-- ==== Sys2Proof/Word.lean ====
section
/-! DEFINITION. The word types of the DN2-1280A and the type of a sparse table.

R17: bit 0 is the least significant bit; multi-byte values and instruction halfwords are stored little-endian. -/

namespace Sys2Proof

/-- One byte of memory. -/
abbrev Byte := BitVec 8

/-- One instruction halfword (R71). -/
abbrev Half := BitVec 16

/-- A 32-bit word: an instruction word w (R76), q, p, vl, vs, status. -/
abbrev Word32 := BitVec 32

/-- A 64-bit register value (R20). -/
abbrev Word := BitVec 64

/-- A sparse table: key and value pairs, keys strictly rising, no entry equal to the table's default
(Sys2Proof/Machine/Tbl.lean says so once and keeps it). -/
abbrev Tbl (α : Type) := List (Nat × α)

end Sys2Proof
end

