-- ==== Sys2Proof/Syntax.lean ====
section
/-! DEFINITION. The steps of the DN2-1280A as syntax: ONE constructor for each row of spec/opcode_table.json.

The table holds two kinds of row. An ENCODED row is an instruction: its constructor carries the fields of its word, as
wide as the format gives them (R76, R79), and a register field holds the raw 5-bit code (R77), since a code of the wrong
kind is an instruction that traps OPND (R80), not an encoding of something else. An EVENT row is a step that an engine,
the scheduler, a link, the firmware or the host takes: it has no word, and its constructor carries what names the event
(which thread, core, die, ring, command). -/

namespace Sys2Proof

/-- An engine that selects tokens (R223, R262): a course's matrix engine, a course's copy engine (collectives run on it
too, R251), or a vault column group. -/
inductive Engine where
  | matrix (course : Nat)
  | copy (course : Nat)
  | vault (group : Nat)
  deriving DecidableEq, Repr

/-- One end of a link: UCIe module m of die d (R389), pier port p of die d (R406), or Ebnan port e (R400). -/
inductive LinkId where
  | module (die m : Nat)
  | pier (die p : Nat)
  | ebnan (port : Nat)
  deriving DecidableEq, Repr

/-- What every firmware command carries (R417): the Ebnan port of the command page and the host's tag. -/
structure CmdHead where
  port : Nat
  tag : BitVec 32
  deriving DecidableEq, Repr

/-- The settings of PARTSET (R417). -/
structure PartCfg where
  /-- the partition number, 0-159 -/
  part : Nat
  /-- its logical courses (R12) -/
  courses : List Nat
  /-- trange: first ASID and count (R343) -/
  asidFirst : Nat
  asidCount : Nat
  /-- its slice of the group table (R45): first entry and size -/
  sliceFirst : Nat
  sliceCount : Nat
  /-- permit shares on dies 0-7 (R48) -/
  shares : List (BitVec 8)
  /-- the vault column groups it holds (R255, R386) -/
  vaultGroups : List Nat
  /-- physical addresses of the ring control blocks of rings 0-7 (R357); 0 for none -/
  rings : List Nat
  /-- host physical address of the host fault queue's control block (R404); 0 for none -/
  faultQueue : Nat
  /-- quantum Q in cycles, 2^16 to 2^32 (R364) -/
  quantum : Nat
  /-- granules (pa div 65,536) that the partition owns (R347), as (first, count) ranges -/
  owned : List (Nat × Nat)
  /-- host-writable granules (R417), as (first, count) ranges -/
  writable : List (Nat × Nat)
  deriving DecidableEq, Repr

/-- What firmware is told when it places a group in a pier set (R407). -/
structure PierCfg where
  group : BitVec 8
  devices : Nat
  rank : BitVec 8
  deriving DecidableEq, Repr

/-- What DHALT names (R420): a logical thread, or every thread of a team. -/
inductive DbgTarget where
  | thread (thr : Nat)
  | team (launch team : Nat)
  deriving DecidableEq, Repr

/-- A register file that the debugger writes (R420). -/
inductive DbgReg where
  | g | e | q | p | sd | pc | vl | vs | rk
  /-- in and out windows by number 0-3; loop registers by 3 × number + part, 64 bits to a part; tile handles; status; cin and
  cout -/
  | i | o | l | t | status | cin | cout
  deriving DecidableEq, Repr

/-- One register write of the debugger; it takes effect at resumption (R420). -/
structure DbgWrite where
  reg : DbgReg
  idx : Nat
  val : BitVec 64
  deriving DecidableEq, Repr

/-- The arguments of a command block (R417), as the firmware reads them from bytes 8-63; each command takes those that it has. -/
structure CmdArgs where
  cfg : PartCfg
  part : Nat
  addr : Nat
  nonce : List (BitVec 8)
  target : DbgTarget
  thr : Nat
  writes : List DbgWrite
  version : BitVec 32
  sig : List (BitVec 8)
  deriving DecidableEq, Repr

/-- The steps of the device. -/
inductive Instr where
  /-- ADD (R123). Writes the 64-bit sum a + b, modulo 2^64, into d. -/
  | add (d a b : BitVec 5)
  /-- SUB (R123). Writes the difference a − b, modulo 2^64, into d. -/
  | sub (d a b : BitVec 5)
  /-- AND (R123). Writes the bitwise AND of a and b into d. -/
  | and (d a b : BitVec 5)
  /-- OR (R123). Writes the bitwise OR of a and b into d. -/
  | or (d a b : BitVec 5)
  /-- XOR (R123). Writes the bitwise exclusive OR of a and b into d. -/
  | xor (d a b : BitVec 5)
  /-- ANDN (R123). Writes a AND NOT b into d. -/
  | andn (d a b : BitVec 5)
  /-- SLL (R123). Shifts a left by b[5:0] and writes the result into d. -/
  | sll (d a b : BitVec 5)
  /-- SRL (R123). Shifts a right logically by b[5:0] and writes the result into d. -/
  | srl (d a b : BitVec 5)
  /-- SRA (R123). Shifts a right arithmetically by b[5:0] and writes the result into d. -/
  | sra (d a b : BitVec 5)
  /-- ROL (R123). Rotates a left by b[5:0] and writes the result into d. -/
  | rol (d a b : BitVec 5)
  /-- ROR (R123). Rotates a right by b[5:0] and writes the result into d. -/
  | ror (d a b : BitVec 5)
  /-- MUL (R123). Writes the low 64 bits of a × b into d. -/
  | mul (d a b : BitVec 5)
  /-- MULH (R123). Writes the high 64 bits of the signed product a × b into d. -/
  | mulh (d a b : BitVec 5)
  /-- MULHN (R123). Writes the high 64 bits of the unsigned product a × b into d. -/
  | mulhn (d a b : BitVec 5)
  /-- DIV (R124). Writes the signed quotient a / b, truncated toward zero, into d; a divisor of zero gives all ones. -/
  | div (d a b : BitVec 5)
  /-- DIVN (R124). Writes the unsigned quotient a / b into d; a divisor of zero gives all ones. -/
  | divn (d a b : BitVec 5)
  /-- REM (R124). Writes the signed remainder of a / b into d; a divisor of zero gives a. -/
  | rem (d a b : BitVec 5)
  /-- REMN (R124). Writes the unsigned remainder of a / b into d; a divisor of zero gives a. -/
  | remn (d a b : BitVec 5)
  /-- MIN (R123). Writes the signed lesser of a and b into d. -/
  | min (d a b : BitVec 5)
  /-- MAX (R123). Writes the signed greater of a and b into d. -/
  | max (d a b : BitVec 5)
  /-- MINN (R123). Writes the unsigned lesser of a and b into d. -/
  | minn (d a b : BitVec 5)
  /-- MAXN (R123). Writes the unsigned greater of a and b into d. -/
  | maxn (d a b : BitVec 5)
  /-- SEQ (R123). Writes 1 into d if a = b, and 0 otherwise. -/
  | seq (d a b : BitVec 5)
  /-- SNE (R123). Writes 1 into d if a ≠ b, and 0 otherwise. -/
  | sne (d a b : BitVec 5)
  /-- SLT (R123). Writes 1 into d if a < b as signed values, and 0 otherwise. -/
  | slt (d a b : BitVec 5)
  /-- SGE (R123). Writes 1 into d if a ≥ b as signed values, and 0 otherwise. -/
  | sge (d a b : BitVec 5)
  /-- SLTN (R123). Writes 1 into d if a < b as unsigned values, and 0 otherwise. -/
  | sltn (d a b : BitVec 5)
  /-- SGEN (R123). Writes 1 into d if a ≥ b as unsigned values, and 0 otherwise. -/
  | sgen (d a b : BitVec 5)
  /-- CLZ (R123). Writes the number of leading zero bits of a into d. -/
  | clz (d a : BitVec 5)
  /-- CTZ (R123). Writes the number of trailing zero bits of a into d. -/
  | ctz (d a : BitVec 5)
  /-- POPC (R123). Writes the number of one bits of a into d. -/
  | popc (d a : BitVec 5)
  /-- BSWAP (R123). Writes a into d with its eight bytes reversed. -/
  | bswap (d a : BitVec 5)
  /-- LEA_B8 (R124). Writes a + b into d, wrapping modulo 2^64, with no address check. -/
  | leaB8 (d a b : BitVec 5)
  /-- LEA_B16 (R124). Writes a + 2 × b into d, wrapping modulo 2^64. -/
  | leaB16 (d a b : BitVec 5)
  /-- LEA_B32 (R124). Writes a + 4 × b into d, wrapping modulo 2^64. -/
  | leaB32 (d a b : BitVec 5)
  /-- LEA_B64 (R124). Writes a + 8 × b into d, wrapping modulo 2^64. -/
  | leaB64 (d a b : BitVec 5)
  /-- HASH (R124). Writes mix(a, b), the mixer of R108, into d. -/
  | hash (d a b : BitVec 5)
  /-- BANK (R123). Writes into d the scratchpad bank of address a. -/
  | bank (d a : BitVec 5)
  /-- ADDI (R125). Writes a plus the sign-extended immediate into d. -/
  | addi (d a : BitVec 5) (imm : BitVec 14)
  /-- ANDI (R125). Writes a AND the sign-extended immediate into d. -/
  | andi (d a : BitVec 5) (imm : BitVec 14)
  /-- ORI (R125). Writes a OR the zero-extended immediate into d. -/
  | ori (d a : BitVec 5) (imm : BitVec 14)
  /-- XORI (R125). Writes a XOR the zero-extended immediate into d. -/
  | xori (d a : BitVec 5) (imm : BitVec 14)
  /-- SLLI (R126). Shifts a left by the immediate sh and writes the result into d. -/
  | slli (d a : BitVec 5) (sh : BitVec 6)
  /-- SRLI (R126). Shifts a right logically by the immediate sh and writes the result into d. -/
  | srli (d a : BitVec 5) (sh : BitVec 6)
  /-- SRAI (R126). Shifts a right arithmetically by the immediate sh and writes the result into d. -/
  | srai (d a : BitVec 5) (sh : BitVec 6)
  /-- ROLI (R126). Rotates a left by the immediate sh and writes the result into d. -/
  | roli (d a : BitVec 5) (sh : BitVec 6)
  /-- BFX_N64 (R127). Writes into d the zero-extended bit field a[pos+len−1:pos]. -/
  | bfxN64 (d a : BitVec 5) (pos len : BitVec 6)
  /-- BFX_I64 (R127). Writes into d the sign-extended bit field a[pos+len−1:pos]. -/
  | bfxI64 (d a : BitVec 5) (pos len : BitVec 6)
  /-- BFI (R127). Inserts the low len bits of a into d at position pos, keeping the other bits of d. -/
  | bfi (d a : BitVec 5) (pos len : BitVec 6)
  /-- LI (R128). Writes the sign-extended 19-bit immediate into d. -/
  | li (d : BitVec 5) (imm : BitVec 19)
  /-- LIS (R128). Shifts d left by 19 bits and ORs in the 19-bit immediate. -/
  | lis (d : BitVec 5) (imm : BitVec 19)
  /-- FADD (R130). Writes the rounded floating-point sum a + b into d. -/
  | fadd (d a b : BitVec 5) (rm : BitVec 3) (ty : BitVec 2)
  /-- FSUB (R130). Writes the rounded floating-point difference a − b into d. -/
  | fsub (d a b : BitVec 5) (rm : BitVec 3) (ty : BitVec 2)
  /-- FMUL (R130). Writes the rounded floating-point product a × b into d. -/
  | fmul (d a b : BitVec 5) (rm : BitVec 3) (ty : BitVec 2)
  /-- FDIV (R131). Writes the rounded floating-point quotient a / b into d. -/
  | fdiv (d a b : BitVec 5) (rm : BitVec 3) (ty : BitVec 2)
  /-- FSQRT (R131). Writes the rounded square root of a into d. -/
  | fsqrt (d a : BitVec 5) (rm : BitVec 3) (ty : BitVec 2)
  /-- FMIN (R131). Writes the lesser of a and b into d, with −0 taken as less than +0. -/
  | fmin (d a b : BitVec 5) (ty : BitVec 2)
  /-- FMAX (R131). Writes the greater of a and b into d, with −0 taken as less than +0. -/
  | fmax (d a b : BitVec 5) (ty : BitVec 2)
  /-- FMAC (R130). Writes a × b + d into d with a single rounding. -/
  | fmac (d a b : BitVec 5) (rm : BitVec 3) (ty : BitVec 2)
  /-- FCVT_FLOAT_FLOAT (R130). Converts a from one floating-point type to another under R98. -/
  | fcvtFloatFloat (d a : BitVec 5) (src : BitVec 2) (rm : BitVec 3) (ty : BitVec 2)
  /-- FCVT_FLOAT_INTEGER (R130). Converts a floating-point value to an integer type under R98. -/
  | fcvtFloatInteger (d a : BitVec 5) (src : BitVec 2) (rm : BitVec 3) (ty : BitVec 2)
  /-- FCVT_INTEGER_FLOAT (R130). Converts an integer value to a floating-point type under R98. -/
  | fcvtIntegerFloat (d a : BitVec 5) (src : BitVec 2) (rm : BitVec 3) (ty : BitVec 2)
  /-- FEQ (R131). Writes 1 into d if a = b as floating-point values, and 0 otherwise. -/
  | feq (d a b : BitVec 5) (ty : BitVec 2)
  /-- FLT (R131). Writes 1 into d if a < b as floating-point values, and 0 otherwise. -/
  | flt (d a b : BitVec 5) (ty : BitVec 2)
  /-- FLE (R131). Writes 1 into d if a ≤ b as floating-point values, and 0 otherwise. -/
  | fle (d a b : BitVec 5) (ty : BitVec 2)
  /-- FCLASS (R131). Writes into d a class mask of a with exactly one bit set. -/
  | fclass (d a : BitVec 5) (ty : BitVec 2)
  /-- FSGN (R131). Writes a into d with its sign bit replaced by the sign bit of b. -/
  | fsgn (d a b : BitVec 5) (ty : BitVec 2)
  /-- BEQ (R132). Branches to pc + 2 × disp11 if a = b. -/
  | beq (a b : BitVec 5) (disp : BitVec 11)
  /-- BNE (R132). Branches to pc + 2 × disp11 if a ≠ b. -/
  | bne (a b : BitVec 5) (disp : BitVec 11)
  /-- BLT (R132). Branches if a < b as signed values. -/
  | blt (a b : BitVec 5) (disp : BitVec 11)
  /-- BGE (R132). Branches if a ≥ b as signed values. -/
  | bge (a b : BitVec 5) (disp : BitVec 11)
  /-- BLTN (R132). Branches if a < b as unsigned values. -/
  | bltn (a b : BitVec 5) (disp : BitVec 11)
  /-- BGEN (R132). Branches if a ≥ b as unsigned values. -/
  | bgen (a b : BitVec 5) (disp : BitVec 11)
  /-- BANY (R132). Branches if (a AND b) ≠ 0. -/
  | bany (a b : BitVec 5) (disp : BitVec 11)
  /-- BNONE (R132). Branches if (a AND b) = 0. -/
  | bnone (a b : BitVec 5) (disp : BitVec 11)
  /-- JMP (R133). Jumps to pc + 2 × disp24. -/
  | jmp (disp : BitVec 24)
  /-- CALL (R133). Writes pc + 4 into g15 and jumps to pc + 2 × disp24. -/
  | call (disp : BitVec 24)
  /-- LP (R139). Starts a hardware loop of count iterations over the body that follows, or skips the body when the count is 0. -/
  | lp (l cnt : BitVec 5) (span : BitVec 11)
  /-- LPX (R139). Starts a hardware loop with start, bound and step taken from extension registers. -/
  | lpx (l e : BitVec 5) (span : BitVec 11)
  /-- JR (R134). Jumps to the address held in register a. -/
  | jr (a : BitVec 5)
  /-- CALLR (R134). Writes pc + 4 into g15 and jumps to the address held in register a. -/
  | callr (a : BitVec 5)
  /-- RET (R134). Jumps to the address in g15, parking while g15 is empty. -/
  | ret
  /-- YIELD (R136). Resets the watchdog count, renegotiates lanes, and may lend the context to a fired waiting task. -/
  | yield
  /-- HALT (R135). Parks the thread until its outstanding replies arrive, then ends it. -/
  | halt
  /-- BRK (R134). Traps BRK precisely, with pc at the brk. -/
  | brk
  /-- NOP (R134). Does nothing. -/
  | nop
  /-- LPEXIT (R141). Deactivates the named loop, and the inner loop with it when the named loop is the outer one. -/
  | lpexit (l : BitVec 5)
  /-- LPIDX (R134). Writes the index of the named loop into d. -/
  | lpidx (d l : BitVec 5)
  /-- LD_I8 (R149). Loads a signed byte into d. -/
  | ldI8 (d base : BitVec 5) (q : BitVec 2) (off : BitVec 9)
  /-- LD_N8 (R149). Loads an unsigned byte into d. -/
  | ldN8 (d base : BitVec 5) (q : BitVec 2) (off : BitVec 9)
  /-- LD_I16 (R149). Loads a signed halfword into d. -/
  | ldI16 (d base : BitVec 5) (q : BitVec 2) (off : BitVec 9)
  /-- LD_N16 (R149). Loads an unsigned halfword into d. -/
  | ldN16 (d base : BitVec 5) (q : BitVec 2) (off : BitVec 9)
  /-- LD_I32 (R149). Loads a signed word into d. -/
  | ldI32 (d base : BitVec 5) (q : BitVec 2) (off : BitVec 9)
  /-- LD_N32 (R149). Loads an unsigned word into d. -/
  | ldN32 (d base : BitVec 5) (q : BitVec 2) (off : BitVec 9)
  /-- LD_B64 (R149). Loads 8 bytes into d. -/
  | ldB64 (d base : BitVec 5) (q : BitVec 2) (off : BitVec 9)
  /-- ST_B8 (R150). Stores the low byte of s. -/
  | stB8 (s base : BitVec 5) (q : BitVec 2) (off : BitVec 9)
  /-- ST_B16 (R150). Stores the low 2 bytes of s. -/
  | stB16 (s base : BitVec 5) (q : BitVec 2) (off : BitVec 9)
  /-- ST_B32 (R150). Stores the low 4 bytes of s. -/
  | stB32 (s base : BitVec 5) (q : BitVec 2) (off : BitVec 9)
  /-- ST_B64 (R150). Stores the 8 bytes of s. -/
  | stB64 (s base : BitVec 5) (q : BitVec 2) (off : BitVec 9)
  /-- LD_F16 (R149). Loads an f16 pattern into d unchanged. -/
  | ldF16 (d base : BitVec 5) (q : BitVec 2) (off : BitVec 9)
  /-- LD_BF16 (R149). Loads a bf16 pattern into d unchanged. -/
  | ldBf16 (d base : BitVec 5) (q : BitVec 2) (off : BitVec 9)
  /-- LD_F32 (R149). Loads an f32 pattern into d unchanged. -/
  | ldF32 (d base : BitVec 5) (q : BitVec 2) (off : BitVec 9)
  /-- LD_F64 (R149). Loads an f64 pattern into d unchanged. -/
  | ldF64 (d base : BitVec 5) (q : BitVec 2) (off : BitVec 9)
  /-- ST_F16 (R150). Stores an f16 pattern from s. -/
  | stF16 (s base : BitVec 5) (q : BitVec 2) (off : BitVec 9)
  /-- ST_BF16 (R150). Stores a bf16 pattern from s. -/
  | stBf16 (s base : BitVec 5) (q : BitVec 2) (off : BitVec 9)
  /-- ST_F32 (R150). Stores an f32 pattern from s. -/
  | stF32 (s base : BitVec 5) (q : BitVec 2) (off : BitVec 9)
  /-- ST_F64 (R150). Stores an f64 pattern from s. -/
  | stF64 (s base : BitVec 5) (q : BitVec 2) (off : BitVec 9)
  /-- STA_B8 (R152). Stores one byte into a scratchpad, then arrives n at an arrival word on the same core. -/
  | staB8 (s base : BitVec 5) (q : BitVec 2) (aw : BitVec 5) (n1 : BitVec 4)
  /-- STA_B16 (R152). Stores 2 bytes into a scratchpad, then arrives n at an arrival word. -/
  | staB16 (s base : BitVec 5) (q : BitVec 2) (aw : BitVec 5) (n1 : BitVec 4)
  /-- STA_B32 (R152). Stores 4 bytes into a scratchpad, then arrives n at an arrival word. -/
  | staB32 (s base : BitVec 5) (q : BitVec 2) (aw : BitVec 5) (n1 : BitVec 4)
  /-- STA_B64 (R152). Stores 8 bytes into a scratchpad, then arrives n at an arrival word. -/
  | staB64 (s base : BitVec 5) (q : BitVec 2) (aw : BitVec 5) (n1 : BitVec 4)
  /-- AMOSWAP (R155). Atomically swaps b into memory and returns the old value. -/
  | amoswap (d a b : BitVec 5) (q : BitVec 2) (w : BitVec 1)
  /-- AMOADD (R155). Atomically adds b to memory and returns the old value. -/
  | amoadd (d a b : BitVec 5) (q : BitVec 2) (w : BitVec 1)
  /-- AMOAND (R155). Atomically ANDs b into memory and returns the old value. -/
  | amoand (d a b : BitVec 5) (q : BitVec 2) (w : BitVec 1)
  /-- AMOOR (R155). Atomically ORs b into memory and returns the old value. -/
  | amoor (d a b : BitVec 5) (q : BitVec 2) (w : BitVec 1)
  /-- AMOXOR (R155). Atomically XORs b into memory and returns the old value. -/
  | amoxor (d a b : BitVec 5) (q : BitVec 2) (w : BitVec 1)
  /-- AMOMIN_I (R155). Atomically stores the signed minimum of memory and b, and returns the old value. -/
  | amominI (d a b : BitVec 5) (q : BitVec 2) (w : BitVec 1)
  /-- AMOMAX_I (R155). Atomically stores the signed maximum of memory and b, and returns the old value. -/
  | amomaxI (d a b : BitVec 5) (q : BitVec 2) (w : BitVec 1)
  /-- AMOMIN_N (R155). Atomically stores the unsigned minimum of memory and b, and returns the old value. -/
  | amominN (d a b : BitVec 5) (q : BitVec 2) (w : BitVec 1)
  /-- AMOMAX_N (R155). Atomically stores the unsigned maximum of memory and b, and returns the old value. -/
  | amomaxN (d a b : BitVec 5) (q : BitVec 2) (w : BitVec 1)
  /-- CAS (R155). Atomically writes b if memory equals the old value of d, and returns the old value. -/
  | cas (d a b : BitVec 5) (q : BitVec 2) (w : BitVec 1)
  /-- AMOFADD (R155). Atomically adds b to memory as floating point, rounded to nearest even, and returns the old value. -/
  | amofadd (d a b : BitVec 5) (q : BitVec 2) (w : BitVec 1)
  /-- FENCE (R156). Parks until the fence condition of its q register's order holds at that register's scope. -/
  | fence (q : BitVec 5)
  /-- FENCE_I (R157). Waits until the thread's posted writes are performed at core scope, then discards the instruction cache. -/
  | fenceI
  /-- QSET (R148). Writes a[31:0] into a policy register. -/
  | qset (q a : BitVec 5)
  /-- QGET (R148). Writes a policy register into d. -/
  | qget (d q : BitVec 5)
  /-- FILL (R158). Sets a register full without changing its value. -/
  | fill (r : BitVec 5)
  /-- DRAIN (R158). Sets a register empty without changing its value. -/
  | drain (r : BitVec 5)
  /-- PEEK (R159). Writes a register's full/empty state or a queue's count into d without parking. -/
  | peek (d a : BitVec 5)
  /-- MSEND (R160). Sends a 16-byte message to the mailbox of a core. -/
  | msend (tag a b : BitVec 5)
  /-- MWAIT (R161). Parks while the mailbox is empty, then writes the message count into d. -/
  | mwait (d : BitVec 5)
  /-- MGET (R161). Removes the oldest mailbox message, writing its payload into d and its header into h. -/
  | mget (d h : BitVec 5)
  /-- ARM (R163). Sets an arrival word's target and clears its count. -/
  | arm (a b : BitVec 5)
  /-- ARRIVE (R164). Posts an arrival of amount b to an arrival word. -/
  | arrive (q a b : BitVec 5)
  /-- AWAIT (R165). Parks until an arrival word's generation differs from b, then writes the new generation into d. -/
  | await (d a b : BitVec 5)
  /-- WTADD (R166). Arms a waiting-task table entry from a 32-byte descriptor. -/
  | wtadd (d a : BitVec 5)
  /-- WTDEL (R167). Frees a waiting-task table entry and returns its former state. -/
  | wtdel (d a : BitVec 5)
  /-- START (R238). Starts a thread in context thr of the core at an entry point. -/
  | start (d a b : BitVec 5)
  /-- REAP (R238). Parks while context thr is in use, then returns and clears its end record. -/
  | reap (d a : BitVec 5)
  /-- MIGRATE (R240). Sends the issuing thread to another core as a migration message. -/
  | migrate (a : BitVec 5)
  /-- SPAWN (R243). Pushes a continuation and runs a child task, or in a deterministic launch places it by path hash. -/
  | spawn (red a b : BitVec 5)
  /-- SRET (R244). Ends a spawned child, writes its result into the join record, and resumes the parent or frees the context. -/
  | sret (a : BitVec 5)
  /-- SYNC (R245). Folds the children's results, or suspends the parent until the last child returns. -/
  | sync (d : BitVec 5)
  /-- CHOPEN (R248). Binds cout to the receive queue of a thread of a team. -/
  | chopen (a b : BitVec 5)
  /-- CHACCEPT (R248). Binds cin to accept a named thread's pushes. -/
  | chaccept (a b : BitVec 5)
  /-- CHCLOSE (R250). Queues an end mark on cout, or discards the queue of cin, and unbinds the port. -/
  | chclose (port : BitVec 5)
  /-- CHSTAT (R250). Writes the status of a channel port into d. -/
  | chstat (d port : BitVec 5)
  /-- BAR (R252). Arrives at the barrier of a selector and waits for its release. -/
  | bar (a : BitVec 5)
  /-- ALLRED (R253). Issues an all-reduce collective over a group as a child operation. -/
  | allred (tok src dst : BitVec 5) (e : BitVec 3) (bar mode : BitVec 1)
  /-- RED (R253). Issues a reduction collective whose result goes to the root member. -/
  | red (tok src dst : BitVec 5) (e : BitVec 3) (bar mode : BitVec 1)
  /-- BCAST (R253). Issues a broadcast collective from the root member. -/
  | bcast (tok src dst : BitVec 5) (e : BitVec 3) (bar mode : BitVec 1)
  /-- ALLGAT (R253). Issues an all-gather collective over a group. -/
  | allgat (tok src dst : BitVec 5) (e : BitVec 3) (bar mode : BitVec 1)
  /-- VADD (R179). Adds two vector streams element by element. -/
  | vadd (d a b : BitVec 5) (rm : BitVec 3) (ty : BitVec 2)
  /-- VSUB (R179). Subtracts two vector streams element by element. -/
  | vsub (d a b : BitVec 5) (rm : BitVec 3) (ty : BitVec 2)
  /-- VMUL (R179). Multiplies two vector streams element by element. -/
  | vmul (d a b : BitVec 5) (rm : BitVec 3) (ty : BitVec 2)
  /-- VDIV (R179). Divides two floating-point vector streams element by element. -/
  | vdiv (d a b : BitVec 5) (rm : BitVec 3) (ty : BitVec 1)
  /-- VSQRT (R179). Takes the square root of each element of a floating-point vector stream. -/
  | vsqrt (d a : BitVec 5) (rm : BitVec 3) (ty : BitVec 1)
  /-- VMIN (R179). Writes the element-wise lesser of two vector streams. -/
  | vmin (d a b : BitVec 5) (ty : BitVec 2)
  /-- VMAX (R179). Writes the element-wise greater of two vector streams. -/
  | vmax (d a b : BitVec 5) (ty : BitVec 2)
  /-- VMAC (R179). Computes A × B + D element by element with one rounding. -/
  | vmac (d a b : BitVec 5) (rm : BitVec 3) (ty : BitVec 2)
  /-- VCEQ (R179). Writes an element-wise equality mask. -/
  | vceq (d a b : BitVec 5) (ty : BitVec 2)
  /-- VCLT (R179). Writes an element-wise less-than mask. -/
  | vclt (d a b : BitVec 5) (ty : BitVec 2)
  /-- VCLE (R179). Writes an element-wise less-or-equal mask. -/
  | vcle (d a b : BitVec 5) (ty : BitVec 2)
  /-- VSEL (R180). Selects A or B per element by the mask in the pd stream. -/
  | vsel (d a b : BitVec 5) (ty : BitVec 2)
  /-- VAND (R179). ANDs two integer vector streams. -/
  | vand (d a b : BitVec 5) (ty : BitVec 1)
  /-- VOR (R179). ORs two integer vector streams. -/
  | vor (d a b : BitVec 5) (ty : BitVec 1)
  /-- VXOR (R179). XORs two integer vector streams. -/
  | vxor (d a b : BitVec 5) (ty : BitVec 1)
  /-- VCVT (R181). Converts each element of a vector stream from type U to type T. -/
  | vcvt (d a : BitVec 5) (src : BitVec 2) (rm : BitVec 3) (ty : BitVec 2)
  /-- VECTOR_COMPLETION (R177). A vector instruction completes T cycles after issue, and its thread resumes. -/
  | vectorCompletion (thr : Nat)
  /-- VCLAIM (R170). Negotiates the thread's lane grant from the course pool. -/
  | vclaim (d a : BitVec 5)
  /-- VGRANT (R183). Writes the current lane grant into d. -/
  | vgrant (d : BitVec 5)
  /-- VLSET (R184). Writes vl, clamped to 256, and copies the value into d. -/
  | vlset (d a : BitVec 5)
  /-- VLGET (R184). Writes vl into d. -/
  | vlget (d : BitVec 5)
  /-- VSGET (R184). Writes vs into d. -/
  | vsget (d : BitVec 5)
  /-- VSSET (R184). Writes a[31:0] into vs, clearing or setting its flags. -/
  | vsset (a : BitVec 5)
  /-- PSET (R184). Writes a stream pointer. -/
  | pset (d a : BitVec 5)
  /-- PGET (R184). Reads a stream pointer into d. -/
  | pget (d a : BitVec 5)
  /-- VREDSUM (R185). Sums a vector stream sequentially into a g register. -/
  | vredsum (d a : BitVec 5) (rm : BitVec 3) (ty : BitVec 2)
  /-- VREDMIN (R185). Reduces a vector stream to its minimum. -/
  | vredmin (d a : BitVec 5) (ty : BitVec 2)
  /-- VREDMAX (R185). Reduces a vector stream to its maximum. -/
  | vredmax (d a : BitVec 5) (ty : BitVec 2)
  /-- VSHUF (R186). Permutes a window of elements by an index stream. -/
  | vshuf (d a b : BitVec 5) (w : BitVec 1)
  /-- VGATHER (R187). Gathers elements from a base pointer by an index stream. -/
  | vgather (d a b : BitVec 5) (w : BitVec 1)
  /-- VPADD (R189). Adds packed narrow sub-elements lane by lane. -/
  | vpadd (d a b : BitVec 5) (sat pt : BitVec 2)
  /-- VPSUB (R189). Subtracts packed narrow sub-elements. -/
  | vpsub (d a b : BitVec 5) (sat pt : BitVec 2)
  /-- VPMUL (R189). Multiplies packed narrow sub-elements. -/
  | vpmul (d a b : BitVec 5) (sat pt : BitVec 2)
  /-- VPMAC (R189). Computes pa × pb + pd on packed narrow sub-elements. -/
  | vpmac (d a b : BitVec 5) (sat pt : BitVec 2)
  /-- VEXP2 (R192). Computes 2^x per element by the fixed algorithm. -/
  | vexp2 (d a : BitVec 5)
  /-- VLOG2 (R192). Computes log2 x per element. -/
  | vlog2 (d a : BitVec 5)
  /-- VRCP (R192). Computes the reciprocal per element. -/
  | vrcp (d a : BitVec 5)
  /-- VRSQRT (R192). Computes the reciprocal square root per element. -/
  | vrsqrt (d a : BitVec 5)
  /-- VTANH (R192). Computes tanh per element. -/
  | vtanh (d a : BitVec 5)
  /-- TCLAIM (R199). Binds a tile handle to a free or owed slot of the course. -/
  | tclaim (t : BitVec 5)
  /-- TRELEASE (R200). Returns a tile handle's slot to the course. -/
  | trelease (t : BitVec 5)
  /-- TSHAPE (R201). Writes a slot's shape register from an extension register. -/
  | tshape (t : BitVec 5) (e : BitVec 3)
  /-- TINFO (R202). Writes a slot's shape register into d. -/
  | tinfo (d t : BitVec 5)
  /-- TLD (R203). Fills a slot from ashlars or raw rows in memory. -/
  | tld (t a b : BitVec 5)
  /-- TSAVE (R204). Writes a slot to memory as ashlars or raw rows. -/
  | tsave (t a b : BitVec 5)
  /-- TROWLD (R205). Loads one slot row from a scratchpad stream. -/
  | trowld (t a p : BitVec 5)
  /-- TROWST (R205). Stores one slot row to a scratchpad stream. -/
  | trowst (t a p : BitVec 5)
  /-- TCOLLD (R205). Loads one slot column from a scratchpad stream. -/
  | tcolld (t a p : BitVec 5)
  /-- TCOLST (R205). Stores one slot column to a scratchpad stream. -/
  | tcolst (t a p : BitVec 5)
  /-- CVQ (R209). Quantises a wide stream into ashlars, optionally rotated. -/
  | cvq (d p : BitVec 5) (sat : BitVec 2) (rnd : BitVec 1) (e : BitVec 3) (wide : BitVec 1) (fmt : BitVec 2)
  /-- CVD (R210). Dequantises ashlars, inverse-rotating them where tagged, into a wide stream. -/
  | cvd (p src : BitVec 5) (e : BitVec 3) (wide : BitVec 1) (fmt : BitVec 2)
  /-- MMA_E2M1 (R214). Issues an e2m1 matrix product as a child operation. -/
  | mmaE2m1 (tok a ta tb : BitVec 5) (mode : BitVec 1)
  /-- MMA_E4M3 (R214). Issues an e4m3 matrix product. -/
  | mmaE4m3 (tok a ta tb : BitVec 5) (mode : BitVec 1)
  /-- MMA_E5M2 (R214). Issues an e5m2 matrix product. -/
  | mmaE5m2 (tok a ta tb : BitVec 5) (mode : BitVec 1)
  /-- MMA_E4M3E5M2 (R214). Issues a mixed e4m3 × e5m2 matrix product. -/
  | mmaE4m3e5m2 (tok a ta tb : BitVec 5) (mode : BitVec 1)
  /-- MMA_I8 (R214). Issues an MXINT8 matrix product. -/
  | mmaI8 (tok a ta tb : BitVec 5) (mode : BitVec 1)
  /-- MMA_BF16 (R214). Issues a bf16 matrix product. -/
  | mmaBf16 (tok a ta tb : BitVec 5) (mode : BitVec 1)
  /-- MMA_F32 (R214). Issues an f32 matrix product. -/
  | mmaF32 (tok a ta tb : BitVec 5) (mode : BitVec 1)
  /-- MMA_F64 (R214). Issues an f64 matrix product. -/
  | mmaF64 (tok a ta tb : BitVec 5) (mode : BitVec 1)
  /-- TWAIT (R229). Parks until a token is terminal, returns its result word and collects it. -/
  | twait (d a : BitVec 5)
  /-- TWAIT_T (R229). As twait, but traps TOKEN when the token has faulted. -/
  | twaitT (d a : BitVec 5)
  /-- TTEST (R229). Returns a token's state without parking. -/
  | ttest (d a : BitVec 5)
  /-- TCANCEL (R229). Cancels a queued or running token where R226 allows. -/
  | tcancel (d a : BitVec 5)
  /-- TDETACH (R229). Drops a detached token so that its entry may free. -/
  | tdetach (d a : BitVec 5)
  /-- TADOPT (R229). Makes the issuer the owner of a token. -/
  | tadopt (d a : BitVec 5)
  /-- TPRIO (R229). Changes a queued token's priority. -/
  | tprio (d a b : BitVec 5)
  /-- TAFTER (R230). Sets a queued token's predecessor when no cycle results. -/
  | tafter (d a b : BitVec 5)
  /-- TFAULT (R229). Returns a token's fault record. -/
  | tfault (d a : BitVec 5)
  /-- TLIST (R229). Returns the handle of the n-th live token that the issuer owns. -/
  | tlist (d a : BitVec 5)
  /-- COPY (R235). Issues a strided copy on the course copy engine as a child operation. -/
  | copy (tok src dst : BitVec 5) (e : BitVec 3) (bar mode : BitVec 1)
  /-- CSET (R235). Issues a strided fill with a pattern value. -/
  | cset (tok src dst : BitVec 5) (e : BitVec 3) (bar mode : BitVec 1)
  /-- ADICT (R260). Writes dictionary entries of the vault groups in a mask. -/
  | adict (mask a b : BitVec 5)
  /-- ACFG (R262). Issues a vault configuration image to the capitals as a token. -/
  | acfg (tok a : BitVec 5) (e : BitVec 3)
  /-- ASET (R263). Writes the initial values of a range of integrators. -/
  | aset (p a b : BitVec 5)
  /-- ASCALE (R263). Writes the scale exponents of a range of integrators. -/
  | ascale (p a b : BitVec 5)
  /-- ARUN (R266). Issues a vault run on the groups of a mask as a token. -/
  | arun (tok a b : BitVec 5) (e : BitVec 3)
  /-- ASAMPLE (R270). Samples a range of integrators and writes values with their half-widths. -/
  | asample (a b : BitVec 5) (e : BitVec 3)
  /-- ASTOP (R273). Stops the running vault runs of the partition on the groups of a mask. -/
  | astop (d a : BitVec 5)
  /-- ACAL (R274). Calibrates the vault groups of a mask. -/
  | acal (d a : BitVec 5)
  /-- ASTAT (R275). Writes a vault group's status word into d. -/
  | astat (d a : BitVec 5)
  /-- MFS (R285). Reads a system register into d. -/
  | mfs (d : BitVec 5) (n : BitVec 10)
  /-- MTS (R285). Writes a system register that has no behaviour of its own. -/
  | mts (s : BitVec 5) (n : BitVec 10)
  /-- EPFQ_READ (R283). A read of epfq pops the head of the engine page-fault queue and latches its handle in epfqh. -/
  | epfqRead (thr : Nat)
  /-- BUDGET_WRITE (R415). A write of budget stores the clamped value and recomputes every die's pool count. -/
  | budgetWrite (v : BitVec 64)
  /-- PFLOOR_WRITE (R415). A write of pfloor recomputes every die's pool count. -/
  | pfloorWrite (v : BitVec 64)
  /-- PWEIGHT_WRITE (R415). A write of pweight recomputes every die's pool count. -/
  | pweightWrite (v : BitVec 64)
  /-- ERET (R286). Returns from the trap handler of the current level to xepc. -/
  | eret
  /-- TRAP (R287). Raises class TRAP with a code and resumes after itself. -/
  | trap (n : BitVec 10)
  /-- TLBINV (R289). Invalidates the partition's translations of the named kind. -/
  | tlbinv (a b : BitVec 5)
  /-- WDSET (R288). Sets the partition's watchdog limit and returns the old limit. -/
  | wdset (d a : BitVec 5)
  /-- KILL (R290). Ends every thread of the team placed on a core. -/
  | kill (a : BitVec 5)
  /-- PREEMPT (R290). Starts the pre-emption of the team placed on a core. -/
  | preempt (a : BitVec 5)
  /-- EXT (R82). Copies a register into an extension register. -/
  | ext (a : BitVec 5) (e : BitVec 3)
  /-- EXR (R82). Copies an extension register into a register. -/
  | exr (d : BitVec 5) (e : BitVec 3)
  /-- EXTI (R83). Inserts or sets a 16-bit immediate in one halfword of an extension register. -/
  | exti (e : BitVec 3) (h : BitVec 2) (mode : BitVec 1) (imm : BitVec 16)
  /-- ADD_MOVE_16 (R89). 16-bit form of add d, a, g0. -/
  | addMove_16 (d a : BitVec 5)
  /-- ADD_16 (R89). 16-bit form of add d, d, a. -/
  | add_16 (d a : BitVec 5)
  /-- SUB_16 (R89). 16-bit form of sub d, d, a. -/
  | sub_16 (d a : BitVec 5)
  /-- AND_16 (R89). 16-bit form of and d, d, a. -/
  | and_16 (d a : BitVec 5)
  /-- OR_16 (R89). 16-bit form of or d, d, a. -/
  | or_16 (d a : BitVec 5)
  /-- XOR_16 (R89). 16-bit form of xor d, d, a. -/
  | xor_16 (d a : BitVec 5)
  /-- SLL_16 (R89). 16-bit form of sll d, d, a. -/
  | sll_16 (d a : BitVec 5)
  /-- FADD_F64_16 (R89). 16-bit form of fadd.f64 d, d, a with dynamic rounding. -/
  | faddF64_16 (d a : BitVec 5)
  /-- FMUL_F64_16 (R89). 16-bit form of fmul.f64 d, d, a. -/
  | fmulF64_16 (d a : BitVec 5)
  /-- FADD_F32_16 (R89). 16-bit form of fadd.f32 d, d, a. -/
  | faddF32_16 (d a : BitVec 5)
  /-- FMUL_F32_16 (R89). 16-bit form of fmul.f32 d, d, a. -/
  | fmulF32_16 (d a : BitVec 5)
  /-- LD_B64_16 (R89). 16-bit form of ld.b64 d, [a]. -/
  | ldB64_16 (d a : BitVec 5)
  /-- ST_B64_16 (R89). 16-bit form of st.b64 d, [a]. -/
  | stB64_16 (d a : BitVec 5)
  /-- LD_N32_16 (R89). 16-bit form of ld.n32 d, [a]. -/
  | ldN32_16 (d a : BitVec 5)
  /-- ST_B32_16 (R89). 16-bit form of st.b32 d, [a]. -/
  | stB32_16 (d a : BitVec 5)
  /-- LD_F32_16 (R89). 16-bit form of ld.f32 d, [a]. -/
  | ldF32_16 (d a : BitVec 5)
  /-- ST_F32_16 (R89). 16-bit form of st.f32 d, [a]. -/
  | stF32_16 (d a : BitVec 5)
  /-- LI_16 (R89). 16-bit form of li d, imm5. -/
  | li_16 (d imm : BitVec 5)
  /-- ADDI_16 (R89). 16-bit form of addi d, d, imm5. -/
  | addi_16 (d imm : BitVec 5)
  /-- SLLI_16 (R89). 16-bit form of slli d, d, imm5. -/
  | slli_16 (d imm : BitVec 5)
  /-- SRLI_16 (R89). 16-bit form of srli d, d, imm5. -/
  | srli_16 (d imm : BitVec 5)
  /-- SRAI_16 (R89). 16-bit form of srai d, d, imm5. -/
  | srai_16 (d imm : BitVec 5)
  /-- LD_B64_SP_16 (R89). 16-bit form of ld.b64 d, [sp + 8·imm5]. -/
  | ldB64Sp_16 (d imm : BitVec 5)
  /-- ST_B64_SP_16 (R89). 16-bit form of st.b64 d, [sp + 8·imm5]. -/
  | stB64Sp_16 (d imm : BitVec 5)
  /-- JMP_16 (R133). 16-bit form of jmp with a 10-bit displacement. -/
  | jmp_16 (disp : BitVec 10)
  /-- CALL_16 (R133). 16-bit form of call; writes pc + 2 into g15. -/
  | call_16 (disp : BitVec 10)
  /-- HALT_16 (R89). 16-bit form of halt. -/
  | halt_16
  /-- YIELD_16 (R89). 16-bit form of yield. -/
  | yield_16
  /-- RET_16 (R89). 16-bit form of ret. -/
  | ret_16
  /-- BRK_16 (R89). 16-bit form of brk. -/
  | brk_16
  /-- NOP_16 (R89). 16-bit form of nop, expanding to add g0, g0, g0. -/
  | nop_16
  /-- REPLY_WRITEBACK (R24). A reply to a load, atomic or other parked instruction writes its destination and sets it full, waking the thread. -/
  | replyWriteback (thr : Nat)
  /-- WATCHDOG_EXPIRY (R137). An issue that would exceed the watchdog limit traps WDOG before the instruction executes. -/
  | watchdogExpiry (thr : Nat)
  /-- THREAD_END (R135). A halting thread's last reply arrives; its context frees, an end mark goes downstream, and its tokens and handles are handed on. -/
  | threadEnd (thr : Nat)
  /-- POSTED_WRITE_PERFORM (R150). A posted store, sta pair or arrive is performed at its home. -/
  | postedWritePerform (thr idx : Nat)
  /-- MAILBOX_MESSAGE_DELIVERY (R36). A message reaches the mailbox of its target core. -/
  | mailboxMessageDelivery (core : Nat)
  /-- PENDING_COMPLETION_DELIVERY (R36). A completion held pending for a full mailbox is delivered when an entry frees. -/
  | pendingCompletionDelivery (core : Nat)
  /-- CHANNEL_PUSH_DELIVERY (R249). A push to a queue on another core is delivered once its causal predecessors are performed. -/
  | channelPushDelivery (chan : Nat)
  /-- UPDATE_APPLY (R351). A die applies a strong update from another die once its vector clock is covered. -/
  | updateApply (die : Nat)
  /-- PARKED_CLAIM_GRANT (R170). Freed lanes are granted to parked claims in ascending logical thread number. -/
  | parkedClaimGrant (course : Nat)
  /-- TOKEN_SELECT (R223). An engine selects the next eligible token and starts it, or sets it awaiting a permit. -/
  | tokenSelect (eng : Engine)
  /-- PERMIT_GRANT (R369). The die's permit arbiter grants a permit, and the waiting token runs. -/
  | permitGrant (die : Nat)
  /-- MMA_PARTIAL_READY (R215). The matrix engine finishes its pairs, returns the slots and sends the partial to the mortar. -/
  | mmaPartialReady (course : Nat)
  /-- PARTIAL_RETRY (R218). The engine retries a refused partial every 64 cycles. -/
  | partialRetry (course : Nat)
  /-- MORTAR_MERGE (R217). The mortar merges a partial into the accumulator and advances the sequence record. -/
  | mortarMerge (acc : Nat)
  /-- COPY_UNIT (R235). The copy engine delivers one unit of up to 192 bytes and applies its arrival. -/
  | copyUnit (course : Nat)
  /-- COLLECTIVE_COMPLETE (R253). A collective writes a member's destination, and that member's token is done. -/
  | collectiveComplete (tok : BitVec 32)
  /-- ACFG_COMPLETE (R262). The capitals finish expanding an image, and the groups become configured or are left unconfigured on a fault. -/
  | acfgComplete (tok : BitVec 32)
  /-- VAULT_REQUEST_ARRIVAL (R257). A vault instruction's request reaches the vault die and is applied in arrival order. -/
  | vaultRequestArrival (die : Nat)
  /-- VAULT_TICK (R267). At each vault tick the die integrates and tests the run's end conditions. -/
  | vaultTick (die : Nat)
  /-- SETTLE_TIMEOUT (R267). The settle time-out count expires, and the run is done with status 2. -/
  | settleTimeout (tok : BitVec 32)
  /-- RUN_TIME_LIMIT (R267). The time limit count expires, and the run is done with status 3. -/
  | runTimeLimit (tok : BitVec 32)
  /-- SAMPLE_CONVERSION_DONE (R382). The converters finish the held values, and the die writes the samples with their half-widths. -/
  | sampleConversionDone (thr : Nat)
  /-- CALIBRATION_DONE (R384). After 2^16 ticks a calibration ends, and each group takes its new constants or is marked invalid. -/
  | calibrationDone (thr : Nat)
  /-- CALIBRATION_EXPIRY (R385). The die's tick count reaches cal tick + 2^36, and the column's calibration becomes invalid. -/
  | calibrationExpiry (column : Nat)
  /-- CALIBRATION_TEMPERATURE_DRIFT (R385). The die temperature moves more than 8 °C from its calibration temperature, and v clears. -/
  | calibrationTemperatureDrift (die : Nat) (temp : BitVec 8)
  /-- PREEMPTION_HALT (R293). A thread of a team under pre-emption halts at an instruction boundary. -/
  | preemptionHalt (thr : Nat)
  /-- SWAP_OUT (R294). After its halt, the team's image is saved and its tokens are set aside. -/
  | swapOut (core : Nat)
  /-- SWAP_IN (R295). A swapped-out team is restored onto the core that placement chooses. -/
  | swapIn (core : Nat)
  /-- QUANTUM_EXPIRY (R364). A team's quantum ends, and the core pre-empts it or starts a new quantum. -/
  | quantumExpiry (core : Nat)
  /-- DOORBELL (R358). A host doorbell write makes the sill read the ring's head and serve its packets. -/
  | doorbell (part ring : Nat)
  /-- LAUNCH (R359). The sill checks a LAUNCH packet. -/
  | launch (part ring : Nat)
  /-- LAUNCH_ACCEPT (R361). Once the groups it names are free, the sill writes them and queues the launch's teams. -/
  | launchAccept (part ring : Nat)
  /-- NOP_PACKET (R359). The sill consumes a NOP packet without acting on it. -/
  | nopPacket (part ring : Nat)
  /-- WAITEND (R359). The ring waits until every launch that it accepted earlier has ended. -/
  | waitend (part ring : Nat)
  /-- PREEMPT_PACKET (R359). Pre-empts the resident teams of the tagged launches, optionally holding them off cores. -/
  | preemptPacket (part ring : Nat)
  /-- RESUME_PACKET (R359). Ends the hold on the tagged launches. -/
  | resumePacket (part ring : Nat)
  /-- KILL_PACKET (R359). Kills the resident teams of the tagged launches and drops their waiting teams. -/
  | killPacket (part ring : Nat)
  /-- TEAM_PLACEMENT (R363). The sill places the first waiting team on a free core of the partition. -/
  | teamPlacement (part : Nat)
  /-- LAUNCH_END (R362). Every thread of the launch has ended and every token is terminal; the groups are freed and the end record is written. -/
  | launchEnd (launch : Nat)
  /-- CONTEXT_CLAIM (R366). A freed context is claimed by start, a fired task, a migration, a spawn task or the steal agent. -/
  | contextClaim (core : Nat)
  /-- MIGRATION_ARRIVAL (R240). A migration message reaches its target core and resumes the thread in a free context. -/
  | migrationArrival (core : Nat)
  /-- STEAL_AGENT (R246). Every 256 cycles a free context steals a far-end continuation. -/
  | stealAgent (core : Nat)
  /-- THERMAL_RANKING_REWRITE (R47). The thermal monitor rewrites a die's ranking row, and pending displacements are retried. -/
  | thermalRankingRewrite (die : Nat) (row : List Nat)
  /-- REMOVAL_LEVEL_CHANGE (R368). The thermal monitor changes a core's removal level, removing or restoring slots. -/
  | removalLevelChange (core level : Nat)
  /-- THERMAL_DISPLACEMENT (R368). A thread in a removed slot is displaced by migration at its next boundary. -/
  | thermalDisplacement (thr : Nat)
  /-- POWER_WINDOW (R416). At the end of each 2^14-cycle window the power monitor lowers or raises f. -/
  | powerWindow (die watts : Nat)
  /-- THERMAL_TRIP (R416). A junction at 110 °C or a coolant flow below 1.0 L/min freezes the device. -/
  | thermalTrip (die : Nat) (detail : BitVec 8)
  /-- FLIT_RECEIVE (R392). A receiver checks a flit's CRC and sequence number, and delivers it or sends a NAK. -/
  | flitReceive (lnk : LinkId) (seq : BitVec 8) (good : Bool)
  /-- NAK_RECEIVE (R392). A sender receiving a NAK resends its buffered flits from the named number onward. -/
  | nakReceive (lnk : LinkId) (seq : BitVec 8)
  /-- LANE_FAILURE (R393). A lane fails, and it is repaired or the module retrains at x32. -/
  | laneFailure (lnk : LinkId) (repairable : Bool)
  /-- RETRAIN_COMPLETE (R393). A module finishes retraining, and the waiting flits move again. -/
  | retrainComplete (lnk : LinkId)
  /-- MODULE_DOWN (R394). A module that cannot train goes down, and its traffic is resent over a detour, or the device freezes. -/
  | moduleDown (lnk : LinkId) (sideband : Bool)
  /-- EBNAN_PORT_DOWN (R400). An Ebnan port goes down, and the other port carries all the traffic. -/
  | ebnanPortDown (port : Nat)
  /-- PIER_FAILURE (R409). A pier port or pier device is lost, and the collectives in progress fault GROUP. -/
  | pierFailure (part : Nat) (rank : BitVec 8)
  /-- HOST_WRITE_DEVICE_DRAM (R402). A host access to the device DRAM window is performed at its home slice, or dropped outside the host-writable granules. -/
  | hostWriteDeviceDram (addr : Nat) (bytes : List (BitVec 8))
  /-- HOST_SECTOR_ACCESS (R401). A host access to host memory recalls or invalidates the device's copy of the sector. -/
  | hostSectorAccess (addr : Nat) (bytes : List (BitVec 8))
  /-- BOOTSTAT (R417). Returns the boot status. -/
  | bootstat (cmd : CmdHead)
  /-- PARTSET (R417). Creates or changes a partition. -/
  | partset (cmd : CmdHead) (cfg : PartCfg)
  /-- PARTDEL (R417). Kills every launch of a partition and clears its cores. -/
  | partdel (cmd : CmdHead) (part : Nat)
  /-- ATTEST (R414). Writes a signed attestation report to a host address. -/
  | attest (cmd : CmdHead) (addr : Nat) (nonce : List (BitVec 8))
  /-- MGMTQ (R417). Names the management queue's control block. -/
  | mgmtq (cmd : CmdHead) (addr : Nat)
  /-- FREEZE (R418). Stops every clock of the device. -/
  | freeze (cmd : CmdHead)
  /-- THAW (R418). Restarts the dies after a freeze. -/
  | thaw (cmd : CmdHead)
  /-- DHALT (R420). Requests the debug halt of a thread or a team. -/
  | dhalt (cmd : CmdHead) (target : DbgTarget) (writes : List DbgWrite)
  /-- DEBUG_HALT_REACHED (R420). A named thread halts at an instruction boundary, and a kind-6 record is posted. -/
  | debugHaltReached (thr : Nat)
  /-- DRUN (R420). Resumes a debug-halted thread. -/
  | drun (cmd : CmdHead) (thr : Nat) (writes : List DbgWrite)
  /-- DSTEP (R420). Issues exactly one instruction of a halted thread and halts it again. -/
  | dstep (cmd : CmdHead) (thr : Nat)
  /-- FLOOR (R417). Raises the fused version floor to a signed version. -/
  | floor (cmd : CmdHead) (version : BitVec 32) (sig : List (BitVec 8))
  /-- FREEZE_PIN_ASSERT (R418). FREEZE_N held low freezes the device. -/
  | freezePinAssert
  /-- FREEZE_PIN_RELEASE (R418). The release of FREEZE_N restarts the dies. -/
  | freezePinRelease
  /-- DEVICE_RESET (R411). Runs the boot phases: power good, fuses, firmware verification, training, zeroing, calibration, permits and identity. -/
  | deviceReset (image : List (BitVec 8))
  /-- SCAN_READOUT (R419). The test access port reads a frozen die's scan chains. -/
  | scanReadout (die chain : Nat)
  /-- PATROL_SCRUB (R355). The scrubber reads DRAM sectors and rewrites those it corrects. -/
  | patrolScrub (sector : Nat)
  /-- ILLEGAL_INSTRUCTION (R91). An encoding that no rule assigns, or that has a nonzero reserved bit, reaches issue and traps ILL. -/
  | illegalInstruction (bits : BitVec 32) (half : Bool)
  /-- INSTRUCTION_FETCH_FAULT (R73). The fetch of h0 or h1 at pc fails translation or permission and traps FETCH before any decode. -/
  | instructionFetchFault (addr : BitVec 57) (perm : Bool)
  /-- PIER_SET_CONFIGURE (R407). Firmware places a partition's group in a pier set of D devices, gives this device a rank and sets register 0x170 valid. -/
  | pierSetConfigure (part : Nat) (cfg : PierCfg)
  deriving DecidableEq, Repr

end Sys2Proof
end

