-- ==== Sys2Proof/Config.lean ====
section
/-! DEFINITION. The values that the spec leaves open, as constants without a body: nothing can evaluate them, so a
statement that holds of the model holds for every value they may take. Each is applied to `State.fresh`, a counter that
the step reads and advances, or to the operands that it depends on. -/

namespace Sys2Proof.Config

/-- Which content of a halfword a fetch returns when stores since the thread's last `fence.i` have changed it (R75):
0 the present one, k the k-th older one. DESIGN CHOICE, log entry 20. -/
opaque staleFetch : Nat → Nat

/-- The fabric value of an integrator after a tick (R373: the solution of the differential equation on analogue
circuitry; no rule gives it as a number). DESIGN CHOICE, log entry 30. -/
opaque integrate : Nat → Rat

/-- By how much a held value of the vault drifts in a freeze (R387). DESIGN CHOICE, log entry 88. -/
opaque freezeDrift : Nat → Rat

/-- The code a converter gives for a held value (R382). DESIGN CHOICE, log entry 31. -/
opaque converter : Nat → BitVec 16

/-- The four constants that a calibration measures on a column: c_adc, c_gain, c_drift, c_offset as binary32 (R384). DESIGN CHOICE, log
entry 32. -/
opaque measured : Nat → BitVec 32 × BitVec 32 × BitVec 32 × BitVec 32

/-- Which of its 256 sets a line has in an L2 slice, which of its 64 sets a block has in an L1, and which of eight ways a
full set of an L1 gives up (R338, R339: the spec gives the counts and not the functions). DESIGN CHOICE, log entry 4. -/
opaque l2Set : Nat → BitVec 8
opaque l1Set : Nat → BitVec 6
opaque l1iVictim : Nat → BitVec 9
opaque l1Victim : Nat → BitVec 3

/-- Which of the 1,024 sets of a die TLB an entry of an ASID and a page has; its low seven bits, which of the 128 sets of a course
TLB (R348: the spec gives the counts and the ways). DESIGN CHOICE, log entry 4. -/
opaque tlbSet : Nat → Nat → BitVec 10

/-- The place that merrlog and a record give for a word of operand memory or a side-store (R343, R354): the spec gives those
no addresses. Applied to slot (128 × course + slot) and word. DESIGN CHOICE, log entry 53. -/
opaque operandAddr : Nat → Nat → BitVec 48

/-- What the sill reads at an address where R336 says that nothing is. DESIGN CHOICE, log entry 9. -/
opaque absentByte : Nat → Nat → BitVec 8

/-- What the other devices of a pier set bring to a collective on the spanning group (R408): how many members a device
has, and an element of a member's contribution. DESIGN CHOICE, log entry 33. -/
opaque pierMembers : Nat → Nat
opaque pierTerm : Nat → BitVec 64

/-- Whether the members of a spanning group on the other devices agree with those here on type, operation, n and root, and the
team of one that does not (R408). DESIGN CHOICE, log entry 33. -/
opaque pierAgrees : Nat → Bool
opaque pierTeam : Nat → BitVec 16

/-- How many flits a collective on the spanning group sends, or receives, at a pier port (R406, R398), which no rule counts. DESIGN
CHOICE, log entry 33. -/
opaque pierFlits : Nat → Nat

/-- The rank of the device at the far end of a pier port (R399), by port: the spec does not lay down how the devices of a
pier set are joined. DESIGN CHOICE, log entry 34. -/
opaque pierPeer : Nat → BitVec 8

/-- The fuses of the device: the bytes of the key hash (R413) and of the device secret (R414). DESIGN CHOICE, log entry 42. -/
opaque fusedKeyHash : Nat → BitVec 8
opaque fusedSecret : Nat → BitVec 8

/-- The random bytes of a signature, sixteen for each (FIPS 205; R414 names none). DESIGN CHOICE, log entry 40. -/
opaque signRandom : Nat → Nat → BitVec 8

/-- Whether a course passes its phase 4 test (R412), by course. DESIGN CHOICE, log entry 48. -/
opaque courseWorks : Nat → Nat → Bool

/-- What the monitors read (R416): a core's junction temperature in °C, a die's, and the coolant's flow in tenths of a litre per
minute. DESIGN CHOICE, log entry 70. -/
opaque junction : Nat → Nat → Nat
opaque dieJunction : Nat → Nat → Nat
opaque coolantFlow : Nat → Nat

/-- The bytes that stand for the eight dies' remap fuses, and for the partition table, in an attestation report (R414),
which names them and does not lay them out. DESIGN CHOICE, log entry 42. -/
opaque remapFuses : List (BitVec 8) → List (BitVec 8)
opaque partitionTable : List (List Nat) → List (BitVec 8)

/-- What bytes 8-63 of a command block with an op say, or none if they are no arguments of it (R417): the spec does not lay them
out. DESIGN CHOICE, log entry 48. -/
opaque blockArgs : BitVec 8 → List (BitVec 8) → Option CmdArgs

/-- What a scan chain of a frozen die reads as, and how many bytes a chain has (R419), which the spec does not lay out. DESIGN CHOICE, log
entry 43. -/
opaque scanBytes : Nat → List (BitVec 8)
opaque scanLength : Nat → Nat → Nat

end Sys2Proof.Config
end

