-- ==== Sys2Proof/Machine/Bits.lean ====
section
/-! DEFINITION. Bit fields, extensions and byte order (R17), for the decoder, the encoder and every meaning. -/

namespace Sys2Proof.Machine

/-- x[h:l] where w = h − l + 1 (R17). -/
def bits {n : Nat} (x : BitVec n) (l w : Nat) : BitVec w := x.extractLsb' l w

/-- The value x with its w-bit field at l replaced by v. -/
def setBits {n w : Nat} (x : BitVec n) (l : Nat) (v : BitVec w) : BitVec n :=
  (x &&& ~~~(((BitVec.allOnes w).setWidth n) <<< l)) ||| ((v.setWidth n) <<< l)

/-- One bit as a BitVec. -/
def ofBool (b : Bool) (n : Nat) : BitVec n := if b then 1#n else 0#n

/-- The 64-bit sign extension (R56). -/
def sext {n : Nat} (x : BitVec n) : Word := x.signExtend 64

/-- The 64-bit zero extension (R56). -/
def zext {n : Nat} (x : BitVec n) : Word := x.setWidth 64

/-- The little-endian bytes of x, n of them (R17). -/
def toBytes {w : Nat} : (n : Nat) → BitVec w → List Byte
  | 0, _ => []
  | n + 1, x => x.setWidth 8 :: toBytes n (x >>> 8)

/-- The value of little-endian bytes (R17), as a number. -/
def ofBytesNat : List Byte → Nat
  | [] => 0
  | b :: bs => b.toNat + 256 * ofBytesNat bs

/-- The value of little-endian bytes (R17), in w bits. -/
def ofBytes (w : Nat) (bs : List Byte) : BitVec w := BitVec.ofNat w (ofBytesNat bs)

/-- Bits [63:57] all equal bit 56 (R74, R142): the canonical form of a 57-bit address. -/
def canonical (a : Word) : Bool := (bits a 0 57).signExtend 64 == a

/-- The canonical 64-bit form of a 57-bit address. -/
def canon (a : BitVec 57) : Word := a.signExtend 64

/-- An element of a vector, or the default where the index is out of range. -/
def vget {α : Type} {n : Nat} (d : α) (v : Vector α n) (i : Nat) : α := v.getD i d

/-- A vector with one element replaced; unchanged where the index is out of range. -/
def vset {α : Type} {n : Nat} (v : Vector α n) (i : Nat) (x : α) : Vector α n := v.setIfInBounds i x

/-- mix(k, x) of R108. -/
def mix (k x : Word) : Word :=
  let z := k ^^^ (x * 0x9C3F_6A17_D2E5_B14B)
  let z := (z ^^^ (z >>> 31)) * 0xE6C3_A84D_1F29_7B5D
  z ^^^ (z >>> 29)

/-- line(a) of R337. -/
def lineNo (a : Nat) : Nat := (a / 65536) * 342 + (a % 65536) / 192

/-- sector(a) of R337. -/
def sectorNo (a : Nat) : Nat := (a / 65536) * 1366 + (a % 65536) / 48

/-- full_sector(a) of R337. -/
def fullSector (a : Nat) : Bool := (a % 65536) % 48 == 0 && a % 65536 < 65520

/-- step(x, q) of R337. -/
def stepSector (x : Nat) : Nat → Nat
  | 0 => x
  | q + 1 => stepSector (if x % 65536 + 48 < 65520 then x + 48 else (x / 65536 + 1) * 65536) q

/-- The core of a logical thread, its course, its die, its slot (R3). -/
def coreOf (thr : Nat) : Nat := thr / 16
def slotOf (thr : Nat) : Nat := thr % 16
def courseOfCore (core : Nat) : Nat := core / 8
def dieOfCore (core : Nat) : Nat := core / 160
def courseOf (thr : Nat) : Nat := courseOfCore (coreOf thr)

end Sys2Proof.Machine
end

