-- ==== Sys2Proof/WellFormed.lean ====
section
/-! DEFINITION. Which instructions are well-formed: those whose fields meet the limits at which the device would trap ILL
(step 3 of R80). A register field is well-formed whatever it holds: a wrong code traps OPND at issue (R77). -/

namespace Sys2Proof

/-- rm 0-4 (R88, R178). -/
def rmOk (rm : BitVec 3) : Bool := rm.toNat < 5

/-- rm under a vector type: an integer type takes only 0 (R178). -/
def vrmOk (rm : BitVec 3) (ty : BitVec 2) : Bool := if ty.toNat < 2 then rmOk rm else rm == 0

/-- pos + len ≤ 64 with len = field + 1 (R127). -/
def fieldOk (pos len : BitVec 6) : Bool := pos.toNat + len.toNat + 1 ≤ 64

/-- A span of 1 to 1,023 halfwords (R138). -/
def spanOk (span : BitVec 11) : Bool := 0 < span.toNat && span.toNat < 1024

/-- The packed forms: ptype 0-2, sat 0-2, sat 0 with bf16 (R188). -/
def packOk (sat pt : BitVec 2) : Bool := pt.toNat < 3 && sat.toNat < 3 && (pt.toNat < 2 || sat == 0)

/-- An attached form names no token register (R211, R233, R251). -/
def attachOk (tok : BitVec 5) (mode : BitVec 1) : Bool := mode == 1 || tok == 0

/-- Every field of the instruction meets its limits. -/
def Instr.wf : Instr → Bool
  | .bfxN64 _ _ pos len => fieldOk pos len
  | .bfxI64 _ _ pos len => fieldOk pos len
  | .bfi _ _ pos len => fieldOk pos len
  | .fadd _ _ _ rm _ => rmOk rm
  | .fsub _ _ _ rm _ => rmOk rm
  | .fmul _ _ _ rm _ => rmOk rm
  | .fdiv _ _ _ rm _ => rmOk rm
  | .fsqrt _ _ rm _ => rmOk rm
  | .fmac _ _ _ rm _ => rmOk rm
  | .fcvtFloatFloat _ _ src rm ty => rmOk rm && src != ty
  | .fcvtFloatInteger _ _ _ rm _ => rmOk rm
  | .fcvtIntegerFloat _ _ _ rm _ => rmOk rm
  | .lp _ _ span => spanOk span
  | .lpx _ _ span => spanOk span
  | .spawn rd _ _ => rd.toNat < 6
  | .allred tok _ _ _ _ mode => attachOk tok mode
  | .red tok _ _ _ _ mode => attachOk tok mode
  | .bcast tok _ _ _ _ mode => attachOk tok mode
  | .allgat tok _ _ _ _ mode => attachOk tok mode
  | .vadd _ _ _ rm ty => vrmOk rm ty
  | .vsub _ _ _ rm ty => vrmOk rm ty
  | .vmul _ _ _ rm ty => vrmOk rm ty
  | .vdiv _ _ _ rm _ => rmOk rm
  | .vsqrt _ _ rm _ => rmOk rm
  | .vmac _ _ _ rm ty => vrmOk rm ty
  | .vcvt _ _ src rm ty => rmOk rm && src != ty && (src.toNat < 2 || ty.toNat < 2)
  | .vredsum _ _ rm _ => rmOk rm
  | .vpadd _ _ _ sat pt => packOk sat pt
  | .vpsub _ _ _ sat pt => packOk sat pt
  | .vpmul _ _ _ sat pt => packOk sat pt
  | .vpmac _ _ _ sat pt => packOk sat pt
  | .cvq _ _ sat _ _ _ _ => sat.toNat < 3
  | .mmaE2m1 tok _ _ _ mode => attachOk tok mode
  | .mmaE4m3 tok _ _ _ mode => attachOk tok mode
  | .mmaE5m2 tok _ _ _ mode => attachOk tok mode
  | .mmaE4m3e5m2 tok _ _ _ mode => attachOk tok mode
  | .mmaI8 tok _ _ _ mode => attachOk tok mode
  | .mmaBf16 tok _ _ _ mode => attachOk tok mode
  | .mmaF32 tok _ _ _ mode => attachOk tok mode
  | .mmaF64 tok _ _ _ mode => attachOk tok mode
  | .copy tok _ _ _ _ mode => attachOk tok mode
  | .cset tok _ _ _ _ mode => attachOk tok mode
  | .add .. | .sub .. | .and .. | .or .. | .xor .. | .andn .. | .sll .. | .srl .. | .sra .. | .rol .. | .ror ..
  | .mul .. | .mulh .. | .mulhn .. | .div .. | .divn .. | .rem .. | .remn .. | .min .. | .max .. | .minn .. | .maxn ..
  | .seq .. | .sne .. | .slt .. | .sge .. | .sltn .. | .sgen .. | .clz .. | .ctz .. | .popc .. | .bswap .. | .leaB8 ..
  | .leaB16 .. | .leaB32 .. | .leaB64 .. | .hash .. | .bank .. | .addi .. | .andi .. | .ori .. | .xori .. | .slli ..
  | .srli .. | .srai .. | .roli .. | .li .. | .lis .. | .fmin .. | .fmax .. | .feq .. | .flt .. | .fle .. | .fclass ..
  | .fsgn .. | .beq .. | .bne .. | .blt .. | .bge .. | .bltn .. | .bgen .. | .bany .. | .bnone .. | .jmp .. | .call ..
  | .jr .. | .callr .. | .ret .. | .yield .. | .halt .. | .brk .. | .nop .. | .lpexit .. | .lpidx .. | .ldI8 ..
  | .ldN8 .. | .ldI16 .. | .ldN16 .. | .ldI32 .. | .ldN32 .. | .ldB64 .. | .stB8 .. | .stB16 .. | .stB32 .. | .stB64 ..
  | .ldF16 .. | .ldBf16 .. | .ldF32 .. | .ldF64 .. | .stF16 .. | .stBf16 .. | .stF32 .. | .stF64 .. | .staB8 ..
  | .staB16 .. | .staB32 .. | .staB64 .. | .amoswap .. | .amoadd .. | .amoand .. | .amoor .. | .amoxor .. | .amominI ..
  | .amomaxI .. | .amominN .. | .amomaxN .. | .cas .. | .amofadd .. | .fence .. | .fenceI .. | .qset .. | .qget ..
  | .fill .. | .drain .. | .peek .. | .msend .. | .mwait .. | .mget .. | .arm .. | .arrive .. | .await .. | .wtadd ..
  | .wtdel .. | .start .. | .reap .. | .migrate .. | .sret .. | .sync .. | .chopen .. | .chaccept .. | .chclose ..
  | .chstat .. | .bar .. | .vmin .. | .vmax .. | .vceq .. | .vclt .. | .vcle .. | .vsel .. | .vand .. | .vor ..
  | .vxor .. | .vectorCompletion .. | .vclaim .. | .vgrant .. | .vlset .. | .vlget .. | .vsget .. | .vsset ..
  | .pset .. | .pget .. | .vredmin .. | .vredmax .. | .vshuf .. | .vgather .. | .vexp2 .. | .vlog2 .. | .vrcp ..
  | .vrsqrt .. | .vtanh .. | .tclaim .. | .trelease .. | .tshape .. | .tinfo .. | .tld .. | .tsave .. | .trowld ..
  | .trowst .. | .tcolld .. | .tcolst .. | .cvd .. | .twait .. | .twaitT .. | .ttest .. | .tcancel .. | .tdetach ..
  | .tadopt .. | .tprio .. | .tafter .. | .tfault .. | .tlist .. | .adict .. | .acfg .. | .aset .. | .ascale ..
  | .arun .. | .asample .. | .astop .. | .acal .. | .astat .. | .mfs .. | .mts .. | .epfqRead .. | .budgetWrite ..
  | .pfloorWrite .. | .pweightWrite .. | .eret .. | .trap .. | .tlbinv .. | .wdset .. | .kill .. | .preempt ..
  | .ext .. | .exr .. | .exti .. | .addMove_16 .. | .add_16 .. | .sub_16 .. | .and_16 .. | .or_16 .. | .xor_16 ..
  | .sll_16 .. | .faddF64_16 .. | .fmulF64_16 .. | .faddF32_16 .. | .fmulF32_16 .. | .ldB64_16 .. | .stB64_16 ..
  | .ldN32_16 .. | .stB32_16 .. | .ldF32_16 .. | .stF32_16 .. | .li_16 .. | .addi_16 .. | .slli_16 .. | .srli_16 ..
  | .srai_16 .. | .ldB64Sp_16 .. | .stB64Sp_16 .. | .jmp_16 .. | .call_16 .. | .halt_16 .. | .yield_16 .. | .ret_16 ..
  | .brk_16 .. | .nop_16 .. | .replyWriteback .. | .watchdogExpiry .. | .threadEnd .. | .postedWritePerform ..
  | .mailboxMessageDelivery .. | .pendingCompletionDelivery .. | .channelPushDelivery .. | .updateApply ..
  | .parkedClaimGrant .. | .tokenSelect .. | .permitGrant .. | .mmaPartialReady .. | .partialRetry .. | .mortarMerge ..
  | .copyUnit .. | .collectiveComplete .. | .acfgComplete .. | .vaultRequestArrival .. | .vaultTick ..
  | .settleTimeout .. | .runTimeLimit .. | .sampleConversionDone .. | .calibrationDone .. | .calibrationExpiry ..
  | .calibrationTemperatureDrift .. | .preemptionHalt .. | .swapOut .. | .swapIn .. | .quantumExpiry .. | .doorbell ..
  | .launch .. | .launchAccept .. | .nopPacket .. | .waitend .. | .preemptPacket .. | .resumePacket .. | .killPacket ..
  | .teamPlacement .. | .launchEnd .. | .contextClaim .. | .migrationArrival .. | .stealAgent ..
  | .thermalRankingRewrite .. | .removalLevelChange .. | .thermalDisplacement .. | .powerWindow .. | .thermalTrip ..
  | .flitReceive .. | .nakReceive .. | .laneFailure .. | .retrainComplete .. | .moduleDown .. | .ebnanPortDown ..
  | .pierFailure .. | .hostWriteDeviceDram .. | .hostSectorAccess .. | .bootstat .. | .partset .. | .partdel ..
  | .attest .. | .mgmtq .. | .freeze .. | .thaw .. | .dhalt .. | .debugHaltReached .. | .drun .. | .dstep ..
  | .floor .. | .freezePinAssert .. | .freezePinRelease .. | .deviceReset .. | .scanReadout .. | .patrolScrub ..
  | .illegalInstruction .. | .instructionFetchFault .. | .pierSetConfigure .. => true

end Sys2Proof
end

