-- ==== Sys2Proof/Decode.lean ====
section
/-! DEFINITION. The decoder (R71, R76, R79, R85 to R91) and the encoder, both from the encoding tables of the spec.

`raw32` and `raw16` place a word by its major opcode, its sub-code and its reserved fields; `decode32` and `decode16` then
keep only a well-formed instruction (Sys2Proof/WellFormed.lean), so that everything the device answers with ILL is none.
The functions that build an instruction are noncomputable for one reason: Lean's compiler gives no object to a constructor
with a tag above 244, and the opcode table has more rows. The kernel evaluates them as any other definition. -/

namespace Sys2Proof

open Machine (bits)

/-- The instruction, where the reserved fields are as they must be. -/
def only (c : Bool) (i : Instr) : Option Instr := if c then some i else none

/-- The register fields d, a and b of RRR, RI, E and LI words (R76). -/
def fD (w : Word32) : BitVec 5 := bits w 19 5
def fA (w : Word32) : BitVec 5 := bits w 14 5
def fB (w : Word32) : BitVec 5 := bits w 9 5

/-- Major 0x01: scalar integer (R123). -/
def dec01 (w : Word32) : Option Instr :=
  match (bits w 0 9).toNat with
  | 0x00 => some (.add (fD w) (fA w) (fB w))
  | 0x01 => some (.sub (fD w) (fA w) (fB w))
  | 0x02 => some (.and (fD w) (fA w) (fB w))
  | 0x03 => some (.or (fD w) (fA w) (fB w))
  | 0x04 => some (.xor (fD w) (fA w) (fB w))
  | 0x05 => some (.andn (fD w) (fA w) (fB w))
  | 0x06 => some (.sll (fD w) (fA w) (fB w))
  | 0x07 => some (.srl (fD w) (fA w) (fB w))
  | 0x08 => some (.sra (fD w) (fA w) (fB w))
  | 0x09 => some (.rol (fD w) (fA w) (fB w))
  | 0x0A => some (.ror (fD w) (fA w) (fB w))
  | 0x0B => some (.mul (fD w) (fA w) (fB w))
  | 0x0C => some (.mulh (fD w) (fA w) (fB w))
  | 0x0D => some (.mulhn (fD w) (fA w) (fB w))
  | 0x0E => some (.div (fD w) (fA w) (fB w))
  | 0x0F => some (.divn (fD w) (fA w) (fB w))
  | 0x10 => some (.rem (fD w) (fA w) (fB w))
  | 0x11 => some (.remn (fD w) (fA w) (fB w))
  | 0x12 => some (.min (fD w) (fA w) (fB w))
  | 0x13 => some (.max (fD w) (fA w) (fB w))
  | 0x14 => some (.minn (fD w) (fA w) (fB w))
  | 0x15 => some (.maxn (fD w) (fA w) (fB w))
  | 0x16 => some (.seq (fD w) (fA w) (fB w))
  | 0x17 => some (.sne (fD w) (fA w) (fB w))
  | 0x18 => some (.slt (fD w) (fA w) (fB w))
  | 0x19 => some (.sge (fD w) (fA w) (fB w))
  | 0x1A => some (.sltn (fD w) (fA w) (fB w))
  | 0x1B => some (.sgen (fD w) (fA w) (fB w))
  | 0x1C => only (bits w 9 5 == 0) (.clz (fD w) (fA w))
  | 0x1D => only (bits w 9 5 == 0) (.ctz (fD w) (fA w))
  | 0x1E => only (bits w 9 5 == 0) (.popc (fD w) (fA w))
  | 0x1F => only (bits w 9 5 == 0) (.bswap (fD w) (fA w))
  | 0x20 => some (.leaB8 (fD w) (fA w) (fB w))
  | 0x21 => some (.leaB16 (fD w) (fA w) (fB w))
  | 0x22 => some (.leaB32 (fD w) (fA w) (fB w))
  | 0x23 => some (.leaB64 (fD w) (fA w) (fB w))
  | 0x24 => some (.hash (fD w) (fA w) (fB w))
  | 0x25 => only (bits w 9 5 == 0) (.bank (fD w) (fA w))
  | _ => none

/-- Major 0x06: shifts by immediate (R126). -/
def dec06 (w : Word32) : Option Instr :=
  match (bits w 8 6).toNat with
  | 0x00 => only (bits w 6 2 == 0) (.slli (fD w) (fA w) (bits w 0 6))
  | 0x01 => only (bits w 6 2 == 0) (.srli (fD w) (fA w) (bits w 0 6))
  | 0x02 => only (bits w 6 2 == 0) (.srai (fD w) (fA w) (bits w 0 6))
  | 0x03 => only (bits w 6 2 == 0) (.roli (fD w) (fA w) (bits w 0 6))
  | _ => none

/-- Major 0x07: bit fields (R127). -/
def dec07 (w : Word32) : Option Instr :=
  match (bits w 12 2).toNat with
  | 0x00 => some (.bfxN64 (fD w) (fA w) (bits w 6 6) (bits w 0 6))
  | 0x01 => some (.bfxI64 (fD w) (fA w) (bits w 6 6) (bits w 0 6))
  | 0x02 => some (.bfi (fD w) (fA w) (bits w 6 6) (bits w 0 6))
  | _ => none

/-- Major 0x0A: scalar floating point (R129). -/
def dec0A (w : Word32) : Option Instr :=
  match (bits w 2 4).toNat with
  | 0x00 => some (.fadd (fD w) (fA w) (fB w) (bits w 6 3) (bits w 0 2))
  | 0x01 => some (.fsub (fD w) (fA w) (fB w) (bits w 6 3) (bits w 0 2))
  | 0x02 => some (.fmul (fD w) (fA w) (fB w) (bits w 6 3) (bits w 0 2))
  | 0x03 => some (.fdiv (fD w) (fA w) (fB w) (bits w 6 3) (bits w 0 2))
  | 0x04 => only (bits w 9 5 == 0) (.fsqrt (fD w) (fA w) (bits w 6 3) (bits w 0 2))
  | 0x05 => only (bits w 6 3 == 0) (.fmin (fD w) (fA w) (fB w) (bits w 0 2))
  | 0x06 => only (bits w 6 3 == 0) (.fmax (fD w) (fA w) (fB w) (bits w 0 2))
  | 0x07 => some (.fmac (fD w) (fA w) (fB w) (bits w 6 3) (bits w 0 2))
  | 0x08 => only (bits w 11 3 == 0) (.fcvtFloatFloat (fD w) (fA w) (bits w 9 2) (bits w 6 3) (bits w 0 2))
  | 0x09 => only (bits w 11 3 == 0) (.fcvtFloatInteger (fD w) (fA w) (bits w 9 2) (bits w 6 3) (bits w 0 2))
  | 0x0A => only (bits w 11 3 == 0) (.fcvtIntegerFloat (fD w) (fA w) (bits w 9 2) (bits w 6 3) (bits w 0 2))
  | 0x0B => only (bits w 6 3 == 0) (.feq (fD w) (fA w) (fB w) (bits w 0 2))
  | 0x0C => only (bits w 6 3 == 0) (.flt (fD w) (fA w) (fB w) (bits w 0 2))
  | 0x0D => only (bits w 6 3 == 0) (.fle (fD w) (fA w) (fB w) (bits w 0 2))
  | 0x0E => only (bits w 6 8 == 0) (.fclass (fD w) (fA w) (bits w 0 2))
  | 0x0F => only (bits w 6 3 == 0) (.fsgn (fD w) (fA w) (fB w) (bits w 0 2))
  | _ => none

/-- Major 0x0B: branches (R132). -/
def dec0B (w : Word32) : Option Instr :=
  match (bits w 11 3).toNat with
  | 0x00 => some (.beq (fD w) (fA w) (bits w 0 11))
  | 0x01 => some (.bne (fD w) (fA w) (bits w 0 11))
  | 0x02 => some (.blt (fD w) (fA w) (bits w 0 11))
  | 0x03 => some (.bge (fD w) (fA w) (bits w 0 11))
  | 0x04 => some (.bltn (fD w) (fA w) (bits w 0 11))
  | 0x05 => some (.bgen (fD w) (fA w) (bits w 0 11))
  | 0x06 => some (.bany (fD w) (fA w) (bits w 0 11))
  | 0x07 => some (.bnone (fD w) (fA w) (bits w 0 11))
  | _ => none

/-- Major 0x10: transfers through registers (R134). -/
def dec10 (w : Word32) : Option Instr :=
  match (bits w 0 9).toNat with
  | 0x00 => only (bits w 9 5 == 0 && bits w 19 5 == 0) (.jr (fA w))
  | 0x01 => only (bits w 9 5 == 0 && bits w 19 5 == 0) (.callr (fA w))
  | 0x02 => only (bits w 9 15 == 0) (.ret)
  | 0x03 => only (bits w 9 15 == 0) (.yield)
  | 0x04 => only (bits w 9 15 == 0) (.halt)
  | 0x05 => only (bits w 9 15 == 0) (.brk)
  | 0x06 => only (bits w 9 15 == 0) (.nop)
  | 0x07 => only (bits w 9 5 == 0 && bits w 19 5 == 0) (.lpexit (fA w))
  | 0x08 => only (bits w 9 5 == 0) (.lpidx (fD w) (fA w))
  | _ => none

/-- Major 0x11: integer loads (R86). -/
def dec11 (w : Word32) : Option Instr :=
  match (bits w 9 3).toNat with
  | 0x00 => some (.ldI8 (fD w) (fA w) (bits w 12 2) (bits w 0 9))
  | 0x01 => some (.ldN8 (fD w) (fA w) (bits w 12 2) (bits w 0 9))
  | 0x02 => some (.ldI16 (fD w) (fA w) (bits w 12 2) (bits w 0 9))
  | 0x03 => some (.ldN16 (fD w) (fA w) (bits w 12 2) (bits w 0 9))
  | 0x04 => some (.ldI32 (fD w) (fA w) (bits w 12 2) (bits w 0 9))
  | 0x05 => some (.ldN32 (fD w) (fA w) (bits w 12 2) (bits w 0 9))
  | 0x06 => some (.ldB64 (fD w) (fA w) (bits w 12 2) (bits w 0 9))
  | _ => none

/-- Major 0x12: integer stores (R86). -/
def dec12 (w : Word32) : Option Instr :=
  match (bits w 9 3).toNat with
  | 0x00 => some (.stB8 (fD w) (fA w) (bits w 12 2) (bits w 0 9))
  | 0x01 => some (.stB16 (fD w) (fA w) (bits w 12 2) (bits w 0 9))
  | 0x02 => some (.stB32 (fD w) (fA w) (bits w 12 2) (bits w 0 9))
  | 0x03 => some (.stB64 (fD w) (fA w) (bits w 12 2) (bits w 0 9))
  | _ => none

/-- Major 0x13: floating-point loads (R86). -/
def dec13 (w : Word32) : Option Instr :=
  match (bits w 9 3).toNat with
  | 0x00 => some (.ldF16 (fD w) (fA w) (bits w 12 2) (bits w 0 9))
  | 0x01 => some (.ldBf16 (fD w) (fA w) (bits w 12 2) (bits w 0 9))
  | 0x02 => some (.ldF32 (fD w) (fA w) (bits w 12 2) (bits w 0 9))
  | 0x03 => some (.ldF64 (fD w) (fA w) (bits w 12 2) (bits w 0 9))
  | _ => none

/-- Major 0x14: floating-point stores (R86). -/
def dec14 (w : Word32) : Option Instr :=
  match (bits w 9 3).toNat with
  | 0x00 => some (.stF16 (fD w) (fA w) (bits w 12 2) (bits w 0 9))
  | 0x01 => some (.stBf16 (fD w) (fA w) (bits w 12 2) (bits w 0 9))
  | 0x02 => some (.stF32 (fD w) (fA w) (bits w 12 2) (bits w 0 9))
  | 0x03 => some (.stF64 (fD w) (fA w) (bits w 12 2) (bits w 0 9))
  | _ => none

/-- Major 0x15: remote stores with arrival (R152). -/
def dec15 (w : Word32) : Option Instr :=
  match (bits w 9 3).toNat with
  | 0x00 => some (.staB8 (fD w) (fA w) (bits w 12 2) (bits w 4 5) (bits w 0 4))
  | 0x01 => some (.staB16 (fD w) (fA w) (bits w 12 2) (bits w 4 5) (bits w 0 4))
  | 0x02 => some (.staB32 (fD w) (fA w) (bits w 12 2) (bits w 4 5) (bits w 0 4))
  | 0x03 => some (.staB64 (fD w) (fA w) (bits w 12 2) (bits w 4 5) (bits w 0 4))
  | _ => none

/-- Major 0x16: atomics (R154). -/
def dec16 (w : Word32) : Option Instr :=
  match (bits w 2 4).toNat with
  | 0x00 => only (bits w 1 1 == 0 && bits w 8 1 == 0) (.amoswap (fD w) (fA w) (fB w) (bits w 6 2) (bits w 0 1))
  | 0x01 => only (bits w 1 1 == 0 && bits w 8 1 == 0) (.amoadd (fD w) (fA w) (fB w) (bits w 6 2) (bits w 0 1))
  | 0x02 => only (bits w 1 1 == 0 && bits w 8 1 == 0) (.amoand (fD w) (fA w) (fB w) (bits w 6 2) (bits w 0 1))
  | 0x03 => only (bits w 1 1 == 0 && bits w 8 1 == 0) (.amoor (fD w) (fA w) (fB w) (bits w 6 2) (bits w 0 1))
  | 0x04 => only (bits w 1 1 == 0 && bits w 8 1 == 0) (.amoxor (fD w) (fA w) (fB w) (bits w 6 2) (bits w 0 1))
  | 0x05 => only (bits w 1 1 == 0 && bits w 8 1 == 0) (.amominI (fD w) (fA w) (fB w) (bits w 6 2) (bits w 0 1))
  | 0x06 => only (bits w 1 1 == 0 && bits w 8 1 == 0) (.amomaxI (fD w) (fA w) (fB w) (bits w 6 2) (bits w 0 1))
  | 0x07 => only (bits w 1 1 == 0 && bits w 8 1 == 0) (.amominN (fD w) (fA w) (fB w) (bits w 6 2) (bits w 0 1))
  | 0x08 => only (bits w 1 1 == 0 && bits w 8 1 == 0) (.amomaxN (fD w) (fA w) (fB w) (bits w 6 2) (bits w 0 1))
  | 0x09 => only (bits w 1 1 == 0 && bits w 8 1 == 0) (.cas (fD w) (fA w) (fB w) (bits w 6 2) (bits w 0 1))
  | 0x0A => only (bits w 1 1 == 0 && bits w 8 1 == 0) (.amofadd (fD w) (fA w) (fB w) (bits w 6 2) (bits w 0 1))
  | _ => none

/-- Major 0x17: fences and policy registers (R156). -/
def dec17 (w : Word32) : Option Instr :=
  match (bits w 0 9).toNat with
  | 0x00 => only (bits w 9 5 == 0 && bits w 19 5 == 0) (.fence (fA w))
  | 0x01 => only (bits w 9 15 == 0) (.fenceI)
  | 0x02 => only (bits w 9 5 == 0) (.qset (fD w) (fA w))
  | 0x03 => only (bits w 9 5 == 0) (.qget (fD w) (fA w))
  | _ => none

/-- Major 0x18: synchronisation. -/
def dec18 (w : Word32) : Option Instr :=
  match (bits w 0 9).toNat with
  | 0x00 => only (bits w 9 10 == 0) (.fill (fD w))
  | 0x01 => only (bits w 9 10 == 0) (.drain (fD w))
  | 0x02 => only (bits w 9 5 == 0) (.peek (fD w) (fA w))
  | 0x03 => some (.msend (fD w) (fA w) (fB w))
  | 0x04 => only (bits w 9 10 == 0) (.mwait (fD w))
  | 0x05 => only (bits w 9 5 == 0) (.mget (fD w) (fA w))
  | 0x06 => only (bits w 19 5 == 0) (.arm (fA w) (fB w))
  | 0x07 => some (.arrive (fD w) (fA w) (fB w))
  | 0x08 => some (.await (fD w) (fA w) (fB w))
  | 0x09 => only (bits w 9 5 == 0) (.wtadd (fD w) (fA w))
  | 0x0A => only (bits w 9 5 == 0) (.wtdel (fD w) (fA w))
  | _ => none

/-- Major 0x19: tasks and channels (R237). -/
def dec19 (w : Word32) : Option Instr :=
  match (bits w 0 6).toNat with
  | 0x00 => only (bits w 6 3 == 0) (.start (fD w) (fA w) (fB w))
  | 0x01 => only (bits w 6 8 == 0) (.reap (fD w) (fA w))
  | 0x02 => only (bits w 6 8 == 0 && bits w 19 5 == 0) (.migrate (fA w))
  | 0x03 => only (bits w 6 3 == 0) (.spawn (fD w) (fA w) (fB w))
  | 0x04 => only (bits w 6 8 == 0 && bits w 19 5 == 0) (.sret (fA w))
  | 0x05 => only (bits w 6 13 == 0) (.sync (fD w))
  | 0x06 => only (bits w 6 3 == 0 && bits w 19 5 == 0) (.chopen (fA w) (fB w))
  | 0x07 => only (bits w 6 3 == 0 && bits w 19 5 == 0) (.chaccept (fA w) (fB w))
  | 0x08 => only (bits w 6 8 == 0 && bits w 19 5 == 0) (.chclose (fA w))
  | 0x09 => only (bits w 6 8 == 0) (.chstat (fD w) (fA w))
  | _ => none

/-- Major 0x1A: barriers and collectives (R251). -/
def dec1A (w : Word32) : Option Instr :=
  match (bits w 2 4).toNat with
  | 0x00 => only (bits w 0 2 == 0 && bits w 6 8 == 0 && bits w 19 5 == 0) (.bar (fA w))
  | 0x04 => some (.allred (fD w) (fA w) (fB w) (bits w 6 3) (bits w 1 1) (bits w 0 1))
  | 0x05 => some (.red (fD w) (fA w) (fB w) (bits w 6 3) (bits w 1 1) (bits w 0 1))
  | 0x06 => some (.bcast (fD w) (fA w) (fB w) (bits w 6 3) (bits w 1 1) (bits w 0 1))
  | 0x07 => some (.allgat (fD w) (fA w) (fB w) (bits w 6 3) (bits w 1 1) (bits w 0 1))
  | _ => none

/-- Major 0x1B: vector arithmetic (R178). -/
def dec1B (w : Word32) : Option Instr :=
  match (bits w 2 4).toNat with
  | 0x00 => some (.vadd (fD w) (fA w) (fB w) (bits w 6 3) (bits w 0 2))
  | 0x01 => some (.vsub (fD w) (fA w) (fB w) (bits w 6 3) (bits w 0 2))
  | 0x02 => some (.vmul (fD w) (fA w) (fB w) (bits w 6 3) (bits w 0 2))
  | 0x03 => only (bits w 1 1 == 0) (.vdiv (fD w) (fA w) (fB w) (bits w 6 3) (bits w 0 1))
  | 0x04 => only (bits w 1 1 == 0 && bits w 9 5 == 0) (.vsqrt (fD w) (fA w) (bits w 6 3) (bits w 0 1))
  | 0x05 => only (bits w 6 3 == 0) (.vmin (fD w) (fA w) (fB w) (bits w 0 2))
  | 0x06 => only (bits w 6 3 == 0) (.vmax (fD w) (fA w) (fB w) (bits w 0 2))
  | 0x07 => some (.vmac (fD w) (fA w) (fB w) (bits w 6 3) (bits w 0 2))
  | 0x08 => only (bits w 6 3 == 0) (.vceq (fD w) (fA w) (fB w) (bits w 0 2))
  | 0x09 => only (bits w 6 3 == 0) (.vclt (fD w) (fA w) (fB w) (bits w 0 2))
  | 0x0A => only (bits w 6 3 == 0) (.vcle (fD w) (fA w) (fB w) (bits w 0 2))
  | 0x0B => only (bits w 6 3 == 0) (.vsel (fD w) (fA w) (fB w) (bits w 0 2))
  | 0x0C => only (bits w 1 1 == 1 && bits w 6 3 == 0) (.vand (fD w) (fA w) (fB w) (bits w 0 1))
  | 0x0D => only (bits w 1 1 == 1 && bits w 6 3 == 0) (.vor (fD w) (fA w) (fB w) (bits w 0 1))
  | 0x0E => only (bits w 1 1 == 1 && bits w 6 3 == 0) (.vxor (fD w) (fA w) (fB w) (bits w 0 1))
  | 0x0F => only (bits w 11 3 == 0) (.vcvt (fD w) (fA w) (bits w 9 2) (bits w 6 3) (bits w 0 2))
  | _ => none

/-- Major 0x1C: vector state, reductions, shuffle (R182). -/
def dec1C (w : Word32) : Option Instr :=
  match (bits w 0 6).toNat with
  | 0x00 => only (bits w 6 8 == 0) (.vclaim (fD w) (fA w))
  | 0x01 => only (bits w 6 13 == 0) (.vgrant (fD w))
  | 0x02 => only (bits w 6 8 == 0) (.vlset (fD w) (fA w))
  | 0x03 => only (bits w 6 13 == 0) (.vlget (fD w))
  | 0x04 => only (bits w 6 13 == 0) (.vsget (fD w))
  | 0x05 => only (bits w 6 8 == 0 && bits w 19 5 == 0) (.vsset (fA w))
  | 0x06 => only (bits w 6 8 == 0) (.pset (fD w) (fA w))
  | 0x07 => only (bits w 6 8 == 0) (.pget (fD w) (fA w))
  | 0x08 => only (bits w 9 5 == 0) (.vredsum (fD w) (fA w) (bits w 6 3) (bits w 0 2))
  | 0x09 => only (bits w 9 5 == 0) (.vredsum (fD w) (fA w) (bits w 6 3) (bits w 0 2))
  | 0x0A => only (bits w 9 5 == 0) (.vredsum (fD w) (fA w) (bits w 6 3) (bits w 0 2))
  | 0x0B => only (bits w 9 5 == 0) (.vredsum (fD w) (fA w) (bits w 6 3) (bits w 0 2))
  | 0x0C => only (bits w 6 8 == 0) (.vredmin (fD w) (fA w) (bits w 0 2))
  | 0x0D => only (bits w 6 8 == 0) (.vredmin (fD w) (fA w) (bits w 0 2))
  | 0x0E => only (bits w 6 8 == 0) (.vredmin (fD w) (fA w) (bits w 0 2))
  | 0x0F => only (bits w 6 8 == 0) (.vredmin (fD w) (fA w) (bits w 0 2))
  | 0x10 => only (bits w 6 8 == 0) (.vredmax (fD w) (fA w) (bits w 0 2))
  | 0x11 => only (bits w 6 8 == 0) (.vredmax (fD w) (fA w) (bits w 0 2))
  | 0x12 => only (bits w 6 8 == 0) (.vredmax (fD w) (fA w) (bits w 0 2))
  | 0x13 => only (bits w 6 8 == 0) (.vredmax (fD w) (fA w) (bits w 0 2))
  | 0x14 => only (bits w 6 3 == 0) (.vshuf (fD w) (fA w) (fB w) (bits w 0 1))
  | 0x15 => only (bits w 6 3 == 0) (.vshuf (fD w) (fA w) (fB w) (bits w 0 1))
  | 0x16 => only (bits w 6 3 == 0) (.vgather (fD w) (fA w) (fB w) (bits w 0 1))
  | 0x17 => only (bits w 6 3 == 0) (.vgather (fD w) (fA w) (fB w) (bits w 0 1))
  | _ => none

/-- Major 0x1D: packed forms and special functions (R188, R190). -/
def dec1D (w : Word32) : Option Instr :=
  match (bits w 0 6).toNat with
  | 0x00 => only (bits w 6 1 == 0) (.vpadd (fD w) (fA w) (fB w) (bits w 7 2) (bits w 0 2))
  | 0x01 => only (bits w 6 1 == 0) (.vpadd (fD w) (fA w) (fB w) (bits w 7 2) (bits w 0 2))
  | 0x02 => only (bits w 6 1 == 0) (.vpadd (fD w) (fA w) (fB w) (bits w 7 2) (bits w 0 2))
  | 0x03 => only (bits w 6 1 == 0) (.vpadd (fD w) (fA w) (fB w) (bits w 7 2) (bits w 0 2))
  | 0x04 => only (bits w 6 1 == 0) (.vpsub (fD w) (fA w) (fB w) (bits w 7 2) (bits w 0 2))
  | 0x05 => only (bits w 6 1 == 0) (.vpsub (fD w) (fA w) (fB w) (bits w 7 2) (bits w 0 2))
  | 0x06 => only (bits w 6 1 == 0) (.vpsub (fD w) (fA w) (fB w) (bits w 7 2) (bits w 0 2))
  | 0x07 => only (bits w 6 1 == 0) (.vpsub (fD w) (fA w) (fB w) (bits w 7 2) (bits w 0 2))
  | 0x08 => only (bits w 6 1 == 0) (.vpmul (fD w) (fA w) (fB w) (bits w 7 2) (bits w 0 2))
  | 0x09 => only (bits w 6 1 == 0) (.vpmul (fD w) (fA w) (fB w) (bits w 7 2) (bits w 0 2))
  | 0x0A => only (bits w 6 1 == 0) (.vpmul (fD w) (fA w) (fB w) (bits w 7 2) (bits w 0 2))
  | 0x0B => only (bits w 6 1 == 0) (.vpmul (fD w) (fA w) (fB w) (bits w 7 2) (bits w 0 2))
  | 0x0C => only (bits w 6 1 == 0) (.vpmac (fD w) (fA w) (fB w) (bits w 7 2) (bits w 0 2))
  | 0x0D => only (bits w 6 1 == 0) (.vpmac (fD w) (fA w) (fB w) (bits w 7 2) (bits w 0 2))
  | 0x0E => only (bits w 6 1 == 0) (.vpmac (fD w) (fA w) (fB w) (bits w 7 2) (bits w 0 2))
  | 0x0F => only (bits w 6 1 == 0) (.vpmac (fD w) (fA w) (fB w) (bits w 7 2) (bits w 0 2))
  | 0x20 => only (bits w 6 8 == 0) (.vexp2 (fD w) (fA w))
  | 0x21 => only (bits w 6 8 == 0) (.vlog2 (fD w) (fA w))
  | 0x22 => only (bits w 6 8 == 0) (.vrcp (fD w) (fA w))
  | 0x23 => only (bits w 6 8 == 0) (.vrsqrt (fD w) (fA w))
  | 0x24 => only (bits w 6 8 == 0) (.vtanh (fD w) (fA w))
  | _ => none

/-- Major 0x1E: tiles (R197). -/
def dec1E (w : Word32) : Option Instr :=
  match (bits w 0 6).toNat with
  | 0x00 => only (bits w 6 13 == 0) (.tclaim (fD w))
  | 0x01 => only (bits w 6 13 == 0) (.trelease (fD w))
  | 0x02 => only (bits w 9 10 == 0) (.tshape (fD w) (bits w 6 3))
  | 0x03 => only (bits w 6 8 == 0) (.tinfo (fD w) (fA w))
  | 0x04 => only (bits w 6 3 == 0) (.tld (fD w) (fA w) (fB w))
  | 0x05 => only (bits w 6 3 == 0) (.tsave (fD w) (fA w) (fB w))
  | 0x06 => only (bits w 6 3 == 0) (.trowld (fD w) (fA w) (fB w))
  | 0x07 => only (bits w 6 3 == 0) (.trowst (fD w) (fA w) (fB w))
  | 0x08 => only (bits w 6 3 == 0) (.tcolld (fD w) (fA w) (fB w))
  | 0x09 => only (bits w 6 3 == 0) (.tcolst (fD w) (fA w) (fB w))
  | _ => none

/-- Major 0x1F: conversion (R207). -/
def dec1F (w : Word32) : Option Instr :=
  match (bits w 3 1).toNat with
  | 0x00 => only (bits w 4 2 == 0 && bits w 12 2 == 0) (.cvq (fD w) (fA w) (bits w 10 2) (bits w 9 1) (bits w 6 3) (bits w 2 1) (bits w 0 2))
  | 0x01 => only (bits w 4 2 == 0 && bits w 9 5 == 0) (.cvd (fD w) (fA w) (bits w 6 3) (bits w 2 1) (bits w 0 2))
  | _ => none

/-- Major 0x20: matrix (R211). -/
def dec20 (w : Word32) : Option Instr :=
  match (bits w 0 3).toNat with
  | 0x00 => some (.mmaE2m1 (fD w) (fA w) (fB w) (bits w 4 5) (bits w 3 1))
  | 0x01 => some (.mmaE4m3 (fD w) (fA w) (fB w) (bits w 4 5) (bits w 3 1))
  | 0x02 => some (.mmaE5m2 (fD w) (fA w) (fB w) (bits w 4 5) (bits w 3 1))
  | 0x03 => some (.mmaE4m3e5m2 (fD w) (fA w) (fB w) (bits w 4 5) (bits w 3 1))
  | 0x04 => some (.mmaI8 (fD w) (fA w) (fB w) (bits w 4 5) (bits w 3 1))
  | 0x05 => some (.mmaBf16 (fD w) (fA w) (fB w) (bits w 4 5) (bits w 3 1))
  | 0x06 => some (.mmaF32 (fD w) (fA w) (fB w) (bits w 4 5) (bits w 3 1))
  | 0x07 => some (.mmaF64 (fD w) (fA w) (fB w) (bits w 4 5) (bits w 3 1))
  | _ => none

/-- Major 0x21: tokens (R228). -/
def dec21 (w : Word32) : Option Instr :=
  match (bits w 0 6).toNat with
  | 0x00 => only (bits w 6 8 == 0) (.twait (fD w) (fA w))
  | 0x01 => only (bits w 6 8 == 0) (.twaitT (fD w) (fA w))
  | 0x02 => only (bits w 6 8 == 0) (.ttest (fD w) (fA w))
  | 0x03 => only (bits w 6 8 == 0) (.tcancel (fD w) (fA w))
  | 0x04 => only (bits w 6 8 == 0) (.tdetach (fD w) (fA w))
  | 0x05 => only (bits w 6 8 == 0) (.tadopt (fD w) (fA w))
  | 0x06 => only (bits w 6 3 == 0) (.tprio (fD w) (fA w) (fB w))
  | 0x07 => only (bits w 6 3 == 0) (.tafter (fD w) (fA w) (fB w))
  | 0x08 => only (bits w 6 8 == 0) (.tfault (fD w) (fA w))
  | 0x09 => only (bits w 6 8 == 0) (.tlist (fD w) (fA w))
  | _ => none

/-- Major 0x22: copies (R232). -/
def dec22 (w : Word32) : Option Instr :=
  match (bits w 2 4).toNat with
  | 0x00 => some (.copy (fD w) (fA w) (fB w) (bits w 6 3) (bits w 1 1) (bits w 0 1))
  | 0x01 => some (.cset (fD w) (fA w) (fB w) (bits w 6 3) (bits w 1 1) (bits w 0 1))
  | _ => none

/-- Major 0x23: vault (R258). -/
def dec23 (w : Word32) : Option Instr :=
  match (bits w 0 6).toNat with
  | 0x00 => only (bits w 6 3 == 0) (.adict (fD w) (fA w) (fB w))
  | 0x01 => only (bits w 9 5 == 0) (.acfg (fD w) (fA w) (bits w 6 3))
  | 0x02 => only (bits w 6 3 == 0) (.aset (fD w) (fA w) (fB w))
  | 0x03 => only (bits w 6 3 == 0) (.ascale (fD w) (fA w) (fB w))
  | 0x04 => some (.arun (fD w) (fA w) (fB w) (bits w 6 3))
  | 0x05 => only (bits w 19 5 == 0) (.asample (fA w) (fB w) (bits w 6 3))
  | 0x06 => only (bits w 6 8 == 0) (.astop (fD w) (fA w))
  | 0x07 => only (bits w 6 8 == 0) (.acal (fD w) (fA w))
  | 0x08 => only (bits w 6 8 == 0) (.astat (fD w) (fA w))
  | _ => none

/-- Major 0x24: system (R284). -/
def dec24 (w : Word32) : Option Instr :=
  match (bits w 0 9).toNat with
  | 0x00 => some (.mfs (fD w) (bits w 9 10))
  | 0x01 => some (.mts (fD w) (bits w 9 10))
  | 0x02 => only (bits w 9 15 == 0) (.eret)
  | 0x03 => only (bits w 19 5 == 0) (.trap (bits w 9 10))
  | 0x04 => only (bits w 19 5 == 0) (.tlbinv (fA w) (fB w))
  | 0x05 => only (bits w 9 5 == 0) (.wdset (fD w) (fA w))
  | 0x06 => only (bits w 9 5 == 0 && bits w 19 5 == 0) (.kill (fA w))
  | 0x07 => only (bits w 9 5 == 0 && bits w 19 5 == 0) (.preempt (fA w))
  | _ => none

/-- Major 0x25: ext, exr (R82). -/
noncomputable def dec25 (w : Word32) : Option Instr :=
  match (bits w 0 6).toNat with
  | 0x00 => only (bits w 9 5 == 0 && bits w 19 5 == 0) (.ext (fA w) (bits w 6 3))
  | 0x01 => only (bits w 9 10 == 0) (.exr (fD w) (bits w 6 3))
  | _ => none

/-- The instruction that a 32-bit word holds, before the limits of its fields (R85). -/
noncomputable def raw32 (w : Word32) : Option Instr :=
  match (bits w 24 6).toNat with
  | 0x01 => dec01 w
  | 0x02 => some (.addi (fD w) (fA w) (bits w 0 14))
  | 0x03 => some (.andi (fD w) (fA w) (bits w 0 14))
  | 0x04 => some (.ori (fD w) (fA w) (bits w 0 14))
  | 0x05 => some (.xori (fD w) (fA w) (bits w 0 14))
  | 0x06 => dec06 w
  | 0x07 => dec07 w
  | 0x08 => some (.li (fD w) (bits w 0 19))
  | 0x09 => some (.lis (fD w) (bits w 0 19))
  | 0x0A => dec0A w
  | 0x0B => dec0B w
  | 0x0C => some (.jmp (bits w 0 24))
  | 0x0D => some (.call (bits w 0 24))
  | 0x0E => only (bits w 11 3 == 0) (.lp (fD w) (fA w) (bits w 0 11))
  | 0x0F => only (bits w 11 3 == 0) (.lpx (fD w) (fA w) (bits w 0 11))
  | 0x10 => dec10 w
  | 0x11 => dec11 w
  | 0x12 => dec12 w
  | 0x13 => dec13 w
  | 0x14 => dec14 w
  | 0x15 => dec15 w
  | 0x16 => dec16 w
  | 0x17 => dec17 w
  | 0x18 => dec18 w
  | 0x19 => dec19 w
  | 0x1A => dec1A w
  | 0x1B => dec1B w
  | 0x1C => dec1C w
  | 0x1D => dec1D w
  | 0x1E => dec1E w
  | 0x1F => dec1F w
  | 0x20 => dec20 w
  | 0x21 => dec21 w
  | 0x22 => dec22 w
  | 0x23 => dec23 w
  | 0x24 => dec24 w
  | 0x25 => dec25 w
  | 0x26 => only (bits w 16 2 == 0) (.exti (bits w 21 3) (bits w 19 2) (bits w 18 1) (bits w 0 16))
  | _ => none

/-- The instruction that a 16-bit halfword holds (R89). -/
noncomputable def raw16 (h : Half) : Option Instr :=
  match (bits h 10 6).toNat with
  | 0x01 => some (.addMove_16 (bits h 5 5) (bits h 0 5))
  | 0x02 => some (.add_16 (bits h 5 5) (bits h 0 5))
  | 0x03 => some (.sub_16 (bits h 5 5) (bits h 0 5))
  | 0x04 => some (.and_16 (bits h 5 5) (bits h 0 5))
  | 0x05 => some (.or_16 (bits h 5 5) (bits h 0 5))
  | 0x06 => some (.xor_16 (bits h 5 5) (bits h 0 5))
  | 0x07 => some (.sll_16 (bits h 5 5) (bits h 0 5))
  | 0x08 => some (.faddF64_16 (bits h 5 5) (bits h 0 5))
  | 0x09 => some (.fmulF64_16 (bits h 5 5) (bits h 0 5))
  | 0x0A => some (.faddF32_16 (bits h 5 5) (bits h 0 5))
  | 0x0B => some (.fmulF32_16 (bits h 5 5) (bits h 0 5))
  | 0x0C => some (.ldB64_16 (bits h 5 5) (bits h 0 5))
  | 0x0D => some (.stB64_16 (bits h 5 5) (bits h 0 5))
  | 0x0E => some (.ldN32_16 (bits h 5 5) (bits h 0 5))
  | 0x0F => some (.stB32_16 (bits h 5 5) (bits h 0 5))
  | 0x10 => some (.ldF32_16 (bits h 5 5) (bits h 0 5))
  | 0x11 => some (.stF32_16 (bits h 5 5) (bits h 0 5))
  | 0x12 => some (.li_16 (bits h 5 5) (bits h 0 5))
  | 0x13 => some (.addi_16 (bits h 5 5) (bits h 0 5))
  | 0x14 => some (.slli_16 (bits h 5 5) (bits h 0 5))
  | 0x15 => some (.srli_16 (bits h 5 5) (bits h 0 5))
  | 0x16 => some (.srai_16 (bits h 5 5) (bits h 0 5))
  | 0x17 => some (.ldB64Sp_16 (bits h 5 5) (bits h 0 5))
  | 0x18 => some (.stB64Sp_16 (bits h 5 5) (bits h 0 5))
  | 0x19 => some (.jmp_16 (bits h 0 10))
  | 0x1A => some (.call_16 (bits h 0 10))
  | 0x1B =>
    match (bits h 0 10).toNat with
    | 0 => some .halt_16
    | 1 => some .yield_16
    | 2 => some .ret_16
    | 3 => some .brk_16
    | 4 => some .nop_16
    | _ => none
  | _ => none

/-- The instruction, if it is well-formed. -/
def checked (i : Option Instr) : Option Instr :=
  match i with
  | some i => only i.wf i
  | none => none

/-- The instruction of a 32-bit word w = h0 × 2^16 + h1; none traps ILL (R91). -/
noncomputable def decode32 (w : Word32) : Option Instr := if bits w 30 2 = 3 then checked (raw32 w) else none

/-- The instruction of a halfword whose bits [15:14] are not 0b11; none traps ILL (R91). -/
noncomputable def decode16 (h : Half) : Option Instr := checked (raw16 h)

/-- h0 announces a 32-bit instruction (R71). -/
def isLong (h0 : Half) : Bool := bits h0 14 2 == 3

/-- What bytes in memory order hold. -/
inductive Decoded where
  /-- an instruction, and the bytes after it -/
  | instr (i : Instr) (rest : List Byte)
  /-- no assigned, well-formed instruction: it traps ILL (R91); the bits and whether they are 16 -/
  | illegal (bits : Word32) (half : Bool)
  /-- fewer bytes than the instruction needs -/
  | truncated
  deriving DecidableEq, Repr

/-- The instruction at the head of a list of bytes in memory order; total on any bytes. -/
noncomputable def decode : List Byte → Decoded
  | b0 :: b1 :: rest =>
    let h0 : Half := b1 ++ b0
    if isLong h0 then
      match rest with
      | b2 :: b3 :: rest =>
        match decode32 (b1 ++ b0 ++ b3 ++ b2) with
        | some i => .instr i rest
        | none => .illegal (b1 ++ b0 ++ b3 ++ b2) false
      | _ => .truncated
    else
      match decode16 h0 with
      | some i => .instr i rest
      | none => .illegal (h0.setWidth 32) true
  | _ => .truncated

/-! ## The encoder -/

/-- The word of a 32-bit instruction (R76 and the encoding of each entry). -/
def encode32 : Instr → Option Word32
  | .add d a b => some (0xC1#8 ++ d ++ a ++ b ++ 0x0#9)
  | .sub d a b => some (0xC1#8 ++ d ++ a ++ b ++ 0x1#9)
  | .and d a b => some (0xC1#8 ++ d ++ a ++ b ++ 0x2#9)
  | .or d a b => some (0xC1#8 ++ d ++ a ++ b ++ 0x3#9)
  | .xor d a b => some (0xC1#8 ++ d ++ a ++ b ++ 0x4#9)
  | .andn d a b => some (0xC1#8 ++ d ++ a ++ b ++ 0x5#9)
  | .sll d a b => some (0xC1#8 ++ d ++ a ++ b ++ 0x6#9)
  | .srl d a b => some (0xC1#8 ++ d ++ a ++ b ++ 0x7#9)
  | .sra d a b => some (0xC1#8 ++ d ++ a ++ b ++ 0x8#9)
  | .rol d a b => some (0xC1#8 ++ d ++ a ++ b ++ 0x9#9)
  | .ror d a b => some (0xC1#8 ++ d ++ a ++ b ++ 0xA#9)
  | .mul d a b => some (0xC1#8 ++ d ++ a ++ b ++ 0xB#9)
  | .mulh d a b => some (0xC1#8 ++ d ++ a ++ b ++ 0xC#9)
  | .mulhn d a b => some (0xC1#8 ++ d ++ a ++ b ++ 0xD#9)
  | .div d a b => some (0xC1#8 ++ d ++ a ++ b ++ 0xE#9)
  | .divn d a b => some (0xC1#8 ++ d ++ a ++ b ++ 0xF#9)
  | .rem d a b => some (0xC1#8 ++ d ++ a ++ b ++ 0x10#9)
  | .remn d a b => some (0xC1#8 ++ d ++ a ++ b ++ 0x11#9)
  | .min d a b => some (0xC1#8 ++ d ++ a ++ b ++ 0x12#9)
  | .max d a b => some (0xC1#8 ++ d ++ a ++ b ++ 0x13#9)
  | .minn d a b => some (0xC1#8 ++ d ++ a ++ b ++ 0x14#9)
  | .maxn d a b => some (0xC1#8 ++ d ++ a ++ b ++ 0x15#9)
  | .seq d a b => some (0xC1#8 ++ d ++ a ++ b ++ 0x16#9)
  | .sne d a b => some (0xC1#8 ++ d ++ a ++ b ++ 0x17#9)
  | .slt d a b => some (0xC1#8 ++ d ++ a ++ b ++ 0x18#9)
  | .sge d a b => some (0xC1#8 ++ d ++ a ++ b ++ 0x19#9)
  | .sltn d a b => some (0xC1#8 ++ d ++ a ++ b ++ 0x1A#9)
  | .sgen d a b => some (0xC1#8 ++ d ++ a ++ b ++ 0x1B#9)
  | .clz d a => some (0xC1#8 ++ d ++ a ++ 0x1C#14)
  | .ctz d a => some (0xC1#8 ++ d ++ a ++ 0x1D#14)
  | .popc d a => some (0xC1#8 ++ d ++ a ++ 0x1E#14)
  | .bswap d a => some (0xC1#8 ++ d ++ a ++ 0x1F#14)
  | .leaB8 d a b => some (0xC1#8 ++ d ++ a ++ b ++ 0x20#9)
  | .leaB16 d a b => some (0xC1#8 ++ d ++ a ++ b ++ 0x21#9)
  | .leaB32 d a b => some (0xC1#8 ++ d ++ a ++ b ++ 0x22#9)
  | .leaB64 d a b => some (0xC1#8 ++ d ++ a ++ b ++ 0x23#9)
  | .hash d a b => some (0xC1#8 ++ d ++ a ++ b ++ 0x24#9)
  | .bank d a => some (0xC1#8 ++ d ++ a ++ 0x25#14)
  | .addi d a imm => some (0xC2#8 ++ d ++ a ++ imm)
  | .andi d a imm => some (0xC3#8 ++ d ++ a ++ imm)
  | .ori d a imm => some (0xC4#8 ++ d ++ a ++ imm)
  | .xori d a imm => some (0xC5#8 ++ d ++ a ++ imm)
  | .slli d a sh => some (0xC6#8 ++ d ++ a ++ 0x0#8 ++ sh)
  | .srli d a sh => some (0xC6#8 ++ d ++ a ++ 0x4#8 ++ sh)
  | .srai d a sh => some (0xC6#8 ++ d ++ a ++ 0x8#8 ++ sh)
  | .roli d a sh => some (0xC6#8 ++ d ++ a ++ 0xC#8 ++ sh)
  | .bfxN64 d a pos len => some (0xC7#8 ++ d ++ a ++ 0x0#2 ++ pos ++ len)
  | .bfxI64 d a pos len => some (0xC7#8 ++ d ++ a ++ 0x1#2 ++ pos ++ len)
  | .bfi d a pos len => some (0xC7#8 ++ d ++ a ++ 0x2#2 ++ pos ++ len)
  | .li d imm => some (0xC8#8 ++ d ++ imm)
  | .lis d imm => some (0xC9#8 ++ d ++ imm)
  | .fadd d a b rm ty => some (0xCA#8 ++ d ++ a ++ b ++ rm ++ 0x0#4 ++ ty)
  | .fsub d a b rm ty => some (0xCA#8 ++ d ++ a ++ b ++ rm ++ 0x1#4 ++ ty)
  | .fmul d a b rm ty => some (0xCA#8 ++ d ++ a ++ b ++ rm ++ 0x2#4 ++ ty)
  | .fdiv d a b rm ty => some (0xCA#8 ++ d ++ a ++ b ++ rm ++ 0x3#4 ++ ty)
  | .fsqrt d a rm ty => some (0xCA#8 ++ d ++ a ++ 0x0#5 ++ rm ++ 0x4#4 ++ ty)
  | .fmin d a b ty => some (0xCA#8 ++ d ++ a ++ b ++ 0x5#7 ++ ty)
  | .fmax d a b ty => some (0xCA#8 ++ d ++ a ++ b ++ 0x6#7 ++ ty)
  | .fmac d a b rm ty => some (0xCA#8 ++ d ++ a ++ b ++ rm ++ 0x7#4 ++ ty)
  | .fcvtFloatFloat d a src rm ty => some (0xCA#8 ++ d ++ a ++ 0x0#3 ++ src ++ rm ++ 0x8#4 ++ ty)
  | .fcvtFloatInteger d a src rm ty => some (0xCA#8 ++ d ++ a ++ 0x0#3 ++ src ++ rm ++ 0x9#4 ++ ty)
  | .fcvtIntegerFloat d a src rm ty => some (0xCA#8 ++ d ++ a ++ 0x0#3 ++ src ++ rm ++ 0xA#4 ++ ty)
  | .feq d a b ty => some (0xCA#8 ++ d ++ a ++ b ++ 0xB#7 ++ ty)
  | .flt d a b ty => some (0xCA#8 ++ d ++ a ++ b ++ 0xC#7 ++ ty)
  | .fle d a b ty => some (0xCA#8 ++ d ++ a ++ b ++ 0xD#7 ++ ty)
  | .fclass d a ty => some (0xCA#8 ++ d ++ a ++ 0xE#12 ++ ty)
  | .fsgn d a b ty => some (0xCA#8 ++ d ++ a ++ b ++ 0xF#7 ++ ty)
  | .beq a b disp => some (0xCB#8 ++ a ++ b ++ 0x0#3 ++ disp)
  | .bne a b disp => some (0xCB#8 ++ a ++ b ++ 0x1#3 ++ disp)
  | .blt a b disp => some (0xCB#8 ++ a ++ b ++ 0x2#3 ++ disp)
  | .bge a b disp => some (0xCB#8 ++ a ++ b ++ 0x3#3 ++ disp)
  | .bltn a b disp => some (0xCB#8 ++ a ++ b ++ 0x4#3 ++ disp)
  | .bgen a b disp => some (0xCB#8 ++ a ++ b ++ 0x5#3 ++ disp)
  | .bany a b disp => some (0xCB#8 ++ a ++ b ++ 0x6#3 ++ disp)
  | .bnone a b disp => some (0xCB#8 ++ a ++ b ++ 0x7#3 ++ disp)
  | .jmp disp => some (0xCC#8 ++ disp)
  | .call disp => some (0xCD#8 ++ disp)
  | .lp l cnt span => some (0xCE#8 ++ l ++ cnt ++ 0x0#3 ++ span)
  | .lpx l e span => some (0xCF#8 ++ l ++ e ++ 0x0#3 ++ span)
  | .jr a => some (0x1A00#13 ++ a ++ 0x0#14)
  | .callr a => some (0x1A00#13 ++ a ++ 0x1#14)
  | .ret => some (0xD0000002#32)
  | .yield => some (0xD0000003#32)
  | .halt => some (0xD0000004#32)
  | .brk => some (0xD0000005#32)
  | .nop => some (0xD0000006#32)
  | .lpexit l => some (0x1A00#13 ++ l ++ 0x7#14)
  | .lpidx d l => some (0xD0#8 ++ d ++ l ++ 0x8#14)
  | .ldI8 d base q off => some (0xD1#8 ++ d ++ base ++ q ++ 0x0#3 ++ off)
  | .ldN8 d base q off => some (0xD1#8 ++ d ++ base ++ q ++ 0x1#3 ++ off)
  | .ldI16 d base q off => some (0xD1#8 ++ d ++ base ++ q ++ 0x2#3 ++ off)
  | .ldN16 d base q off => some (0xD1#8 ++ d ++ base ++ q ++ 0x3#3 ++ off)
  | .ldI32 d base q off => some (0xD1#8 ++ d ++ base ++ q ++ 0x4#3 ++ off)
  | .ldN32 d base q off => some (0xD1#8 ++ d ++ base ++ q ++ 0x5#3 ++ off)
  | .ldB64 d base q off => some (0xD1#8 ++ d ++ base ++ q ++ 0x6#3 ++ off)
  | .stB8 s base q off => some (0xD2#8 ++ s ++ base ++ q ++ 0x0#3 ++ off)
  | .stB16 s base q off => some (0xD2#8 ++ s ++ base ++ q ++ 0x1#3 ++ off)
  | .stB32 s base q off => some (0xD2#8 ++ s ++ base ++ q ++ 0x2#3 ++ off)
  | .stB64 s base q off => some (0xD2#8 ++ s ++ base ++ q ++ 0x3#3 ++ off)
  | .ldF16 d base q off => some (0xD3#8 ++ d ++ base ++ q ++ 0x0#3 ++ off)
  | .ldBf16 d base q off => some (0xD3#8 ++ d ++ base ++ q ++ 0x1#3 ++ off)
  | .ldF32 d base q off => some (0xD3#8 ++ d ++ base ++ q ++ 0x2#3 ++ off)
  | .ldF64 d base q off => some (0xD3#8 ++ d ++ base ++ q ++ 0x3#3 ++ off)
  | .stF16 s base q off => some (0xD4#8 ++ s ++ base ++ q ++ 0x0#3 ++ off)
  | .stBf16 s base q off => some (0xD4#8 ++ s ++ base ++ q ++ 0x1#3 ++ off)
  | .stF32 s base q off => some (0xD4#8 ++ s ++ base ++ q ++ 0x2#3 ++ off)
  | .stF64 s base q off => some (0xD4#8 ++ s ++ base ++ q ++ 0x3#3 ++ off)
  | .staB8 s base q aw n1 => some (0xD5#8 ++ s ++ base ++ q ++ 0x0#3 ++ aw ++ n1)
  | .staB16 s base q aw n1 => some (0xD5#8 ++ s ++ base ++ q ++ 0x1#3 ++ aw ++ n1)
  | .staB32 s base q aw n1 => some (0xD5#8 ++ s ++ base ++ q ++ 0x2#3 ++ aw ++ n1)
  | .staB64 s base q aw n1 => some (0xD5#8 ++ s ++ base ++ q ++ 0x3#3 ++ aw ++ n1)
  | .amoswap d a b q w => some (0xD6#8 ++ d ++ a ++ b ++ 0x0#1 ++ q ++ 0x0#5 ++ w)
  | .amoadd d a b q w => some (0xD6#8 ++ d ++ a ++ b ++ 0x0#1 ++ q ++ 0x2#5 ++ w)
  | .amoand d a b q w => some (0xD6#8 ++ d ++ a ++ b ++ 0x0#1 ++ q ++ 0x4#5 ++ w)
  | .amoor d a b q w => some (0xD6#8 ++ d ++ a ++ b ++ 0x0#1 ++ q ++ 0x6#5 ++ w)
  | .amoxor d a b q w => some (0xD6#8 ++ d ++ a ++ b ++ 0x0#1 ++ q ++ 0x8#5 ++ w)
  | .amominI d a b q w => some (0xD6#8 ++ d ++ a ++ b ++ 0x0#1 ++ q ++ 0xA#5 ++ w)
  | .amomaxI d a b q w => some (0xD6#8 ++ d ++ a ++ b ++ 0x0#1 ++ q ++ 0xC#5 ++ w)
  | .amominN d a b q w => some (0xD6#8 ++ d ++ a ++ b ++ 0x0#1 ++ q ++ 0xE#5 ++ w)
  | .amomaxN d a b q w => some (0xD6#8 ++ d ++ a ++ b ++ 0x0#1 ++ q ++ 0x10#5 ++ w)
  | .cas d a b q w => some (0xD6#8 ++ d ++ a ++ b ++ 0x0#1 ++ q ++ 0x12#5 ++ w)
  | .amofadd d a b q w => some (0xD6#8 ++ d ++ a ++ b ++ 0x0#1 ++ q ++ 0x14#5 ++ w)
  | .fence q => some (0x1AE0#13 ++ q ++ 0x0#14)
  | .fenceI => some (0xD7000001#32)
  | .qset q a => some (0xD7#8 ++ q ++ a ++ 0x2#14)
  | .qget d q => some (0xD7#8 ++ d ++ q ++ 0x3#14)
  | .fill r => some (0xD8#8 ++ r ++ 0x0#19)
  | .drain r => some (0xD8#8 ++ r ++ 0x1#19)
  | .peek d a => some (0xD8#8 ++ d ++ a ++ 0x2#14)
  | .msend tag a b => some (0xD8#8 ++ tag ++ a ++ b ++ 0x3#9)
  | .mwait d => some (0xD8#8 ++ d ++ 0x4#19)
  | .mget d h => some (0xD8#8 ++ d ++ h ++ 0x5#14)
  | .arm a b => some (0x1B00#13 ++ a ++ b ++ 0x6#9)
  | .arrive q a b => some (0xD8#8 ++ q ++ a ++ b ++ 0x7#9)
  | .await d a b => some (0xD8#8 ++ d ++ a ++ b ++ 0x8#9)
  | .wtadd d a => some (0xD8#8 ++ d ++ a ++ 0x9#14)
  | .wtdel d a => some (0xD8#8 ++ d ++ a ++ 0xA#14)
  | .start d a b => some (0xD9#8 ++ d ++ a ++ b ++ 0x0#9)
  | .reap d a => some (0xD9#8 ++ d ++ a ++ 0x1#14)
  | .migrate a => some (0x1B20#13 ++ a ++ 0x2#14)
  | .spawn red a b => some (0xD9#8 ++ red ++ a ++ b ++ 0x3#9)
  | .sret a => some (0x1B20#13 ++ a ++ 0x4#14)
  | .sync d => some (0xD9#8 ++ d ++ 0x5#19)
  | .chopen a b => some (0x1B20#13 ++ a ++ b ++ 0x6#9)
  | .chaccept a b => some (0x1B20#13 ++ a ++ b ++ 0x7#9)
  | .chclose port => some (0x1B20#13 ++ port ++ 0x8#14)
  | .chstat d port => some (0xD9#8 ++ d ++ port ++ 0x9#14)
  | .bar a => some (0x1B40#13 ++ a ++ 0x0#14)
  | .allred tok src dst e bar mode => some (0xDA#8 ++ tok ++ src ++ dst ++ e ++ 0x4#4 ++ bar ++ mode)
  | .red tok src dst e bar mode => some (0xDA#8 ++ tok ++ src ++ dst ++ e ++ 0x5#4 ++ bar ++ mode)
  | .bcast tok src dst e bar mode => some (0xDA#8 ++ tok ++ src ++ dst ++ e ++ 0x6#4 ++ bar ++ mode)
  | .allgat tok src dst e bar mode => some (0xDA#8 ++ tok ++ src ++ dst ++ e ++ 0x7#4 ++ bar ++ mode)
  | .vadd d a b rm ty => some (0xDB#8 ++ d ++ a ++ b ++ rm ++ 0x0#4 ++ ty)
  | .vsub d a b rm ty => some (0xDB#8 ++ d ++ a ++ b ++ rm ++ 0x1#4 ++ ty)
  | .vmul d a b rm ty => some (0xDB#8 ++ d ++ a ++ b ++ rm ++ 0x2#4 ++ ty)
  | .vdiv d a b rm ty => some (0xDB#8 ++ d ++ a ++ b ++ rm ++ 0x6#5 ++ ty)
  | .vsqrt d a rm ty => some (0xDB#8 ++ d ++ a ++ 0x0#5 ++ rm ++ 0x8#5 ++ ty)
  | .vmin d a b ty => some (0xDB#8 ++ d ++ a ++ b ++ 0x5#7 ++ ty)
  | .vmax d a b ty => some (0xDB#8 ++ d ++ a ++ b ++ 0x6#7 ++ ty)
  | .vmac d a b rm ty => some (0xDB#8 ++ d ++ a ++ b ++ rm ++ 0x7#4 ++ ty)
  | .vceq d a b ty => some (0xDB#8 ++ d ++ a ++ b ++ 0x8#7 ++ ty)
  | .vclt d a b ty => some (0xDB#8 ++ d ++ a ++ b ++ 0x9#7 ++ ty)
  | .vcle d a b ty => some (0xDB#8 ++ d ++ a ++ b ++ 0xA#7 ++ ty)
  | .vsel d a b ty => some (0xDB#8 ++ d ++ a ++ b ++ 0xB#7 ++ ty)
  | .vand d a b ty => some (0xDB#8 ++ d ++ a ++ b ++ 0x19#8 ++ ty)
  | .vor d a b ty => some (0xDB#8 ++ d ++ a ++ b ++ 0x1B#8 ++ ty)
  | .vxor d a b ty => some (0xDB#8 ++ d ++ a ++ b ++ 0x1D#8 ++ ty)
  | .vcvt d a src rm ty => some (0xDB#8 ++ d ++ a ++ 0x0#3 ++ src ++ rm ++ 0xF#4 ++ ty)
  | .vclaim d a => some (0xDC#8 ++ d ++ a ++ 0x0#14)
  | .vgrant d => some (0xDC#8 ++ d ++ 0x1#19)
  | .vlset d a => some (0xDC#8 ++ d ++ a ++ 0x2#14)
  | .vlget d => some (0xDC#8 ++ d ++ 0x3#19)
  | .vsget d => some (0xDC#8 ++ d ++ 0x4#19)
  | .vsset a => some (0x1B80#13 ++ a ++ 0x5#14)
  | .pset d a => some (0xDC#8 ++ d ++ a ++ 0x6#14)
  | .pget d a => some (0xDC#8 ++ d ++ a ++ 0x7#14)
  | .vredsum d a rm ty => some (0xDC#8 ++ d ++ a ++ 0x0#5 ++ rm ++ 0x2#4 ++ ty)
  | .vredmin d a ty => some (0xDC#8 ++ d ++ a ++ 0x3#12 ++ ty)
  | .vredmax d a ty => some (0xDC#8 ++ d ++ a ++ 0x4#12 ++ ty)
  | .vshuf d a b w => some (0xDC#8 ++ d ++ a ++ b ++ 0xA#8 ++ w)
  | .vgather d a b w => some (0xDC#8 ++ d ++ a ++ b ++ 0xB#8 ++ w)
  | .vpadd d a b sat pt => some (0xDD#8 ++ d ++ a ++ b ++ sat ++ 0x0#5 ++ pt)
  | .vpsub d a b sat pt => some (0xDD#8 ++ d ++ a ++ b ++ sat ++ 0x1#5 ++ pt)
  | .vpmul d a b sat pt => some (0xDD#8 ++ d ++ a ++ b ++ sat ++ 0x2#5 ++ pt)
  | .vpmac d a b sat pt => some (0xDD#8 ++ d ++ a ++ b ++ sat ++ 0x3#5 ++ pt)
  | .vexp2 d a => some (0xDD#8 ++ d ++ a ++ 0x20#14)
  | .vlog2 d a => some (0xDD#8 ++ d ++ a ++ 0x21#14)
  | .vrcp d a => some (0xDD#8 ++ d ++ a ++ 0x22#14)
  | .vrsqrt d a => some (0xDD#8 ++ d ++ a ++ 0x23#14)
  | .vtanh d a => some (0xDD#8 ++ d ++ a ++ 0x24#14)
  | .tclaim t => some (0xDE#8 ++ t ++ 0x0#19)
  | .trelease t => some (0xDE#8 ++ t ++ 0x1#19)
  | .tshape t e => some (0xDE#8 ++ t ++ 0x0#10 ++ e ++ 0x2#6)
  | .tinfo d t => some (0xDE#8 ++ d ++ t ++ 0x3#14)
  | .tld t a b => some (0xDE#8 ++ t ++ a ++ b ++ 0x4#9)
  | .tsave t a b => some (0xDE#8 ++ t ++ a ++ b ++ 0x5#9)
  | .trowld t a p => some (0xDE#8 ++ t ++ a ++ p ++ 0x6#9)
  | .trowst t a p => some (0xDE#8 ++ t ++ a ++ p ++ 0x7#9)
  | .tcolld t a p => some (0xDE#8 ++ t ++ a ++ p ++ 0x8#9)
  | .tcolst t a p => some (0xDE#8 ++ t ++ a ++ p ++ 0x9#9)
  | .cvq d p sat rnd e wide fmt => some (0xDF#8 ++ d ++ p ++ 0x0#2 ++ sat ++ rnd ++ e ++ 0x0#3 ++ wide ++ fmt)
  | .cvd p src e wide fmt => some (0xDF#8 ++ p ++ src ++ 0x0#5 ++ e ++ 0x1#3 ++ wide ++ fmt)
  | .mmaE2m1 tok a ta tb mode => some (0xE0#8 ++ tok ++ a ++ ta ++ tb ++ mode ++ 0x0#3)
  | .mmaE4m3 tok a ta tb mode => some (0xE0#8 ++ tok ++ a ++ ta ++ tb ++ mode ++ 0x1#3)
  | .mmaE5m2 tok a ta tb mode => some (0xE0#8 ++ tok ++ a ++ ta ++ tb ++ mode ++ 0x2#3)
  | .mmaE4m3e5m2 tok a ta tb mode => some (0xE0#8 ++ tok ++ a ++ ta ++ tb ++ mode ++ 0x3#3)
  | .mmaI8 tok a ta tb mode => some (0xE0#8 ++ tok ++ a ++ ta ++ tb ++ mode ++ 0x4#3)
  | .mmaBf16 tok a ta tb mode => some (0xE0#8 ++ tok ++ a ++ ta ++ tb ++ mode ++ 0x5#3)
  | .mmaF32 tok a ta tb mode => some (0xE0#8 ++ tok ++ a ++ ta ++ tb ++ mode ++ 0x6#3)
  | .mmaF64 tok a ta tb mode => some (0xE0#8 ++ tok ++ a ++ ta ++ tb ++ mode ++ 0x7#3)
  | .twait d a => some (0xE1#8 ++ d ++ a ++ 0x0#14)
  | .twaitT d a => some (0xE1#8 ++ d ++ a ++ 0x1#14)
  | .ttest d a => some (0xE1#8 ++ d ++ a ++ 0x2#14)
  | .tcancel d a => some (0xE1#8 ++ d ++ a ++ 0x3#14)
  | .tdetach d a => some (0xE1#8 ++ d ++ a ++ 0x4#14)
  | .tadopt d a => some (0xE1#8 ++ d ++ a ++ 0x5#14)
  | .tprio d a b => some (0xE1#8 ++ d ++ a ++ b ++ 0x6#9)
  | .tafter d a b => some (0xE1#8 ++ d ++ a ++ b ++ 0x7#9)
  | .tfault d a => some (0xE1#8 ++ d ++ a ++ 0x8#14)
  | .tlist d a => some (0xE1#8 ++ d ++ a ++ 0x9#14)
  | .copy tok src dst e bar mode => some (0xE2#8 ++ tok ++ src ++ dst ++ e ++ 0x0#4 ++ bar ++ mode)
  | .cset tok src dst e bar mode => some (0xE2#8 ++ tok ++ src ++ dst ++ e ++ 0x1#4 ++ bar ++ mode)
  | .adict mask a b => some (0xE3#8 ++ mask ++ a ++ b ++ 0x0#9)
  | .acfg tok a e => some (0xE3#8 ++ tok ++ a ++ 0x0#5 ++ e ++ 0x1#6)
  | .aset p a b => some (0xE3#8 ++ p ++ a ++ b ++ 0x2#9)
  | .ascale p a b => some (0xE3#8 ++ p ++ a ++ b ++ 0x3#9)
  | .arun tok a b e => some (0xE3#8 ++ tok ++ a ++ b ++ e ++ 0x4#6)
  | .asample a b e => some (0x1C60#13 ++ a ++ b ++ e ++ 0x5#6)
  | .astop d a => some (0xE3#8 ++ d ++ a ++ 0x6#14)
  | .acal d a => some (0xE3#8 ++ d ++ a ++ 0x7#14)
  | .astat d a => some (0xE3#8 ++ d ++ a ++ 0x8#14)
  | .mfs d n => some (0xE4#8 ++ d ++ n ++ 0x0#9)
  | .mts s n => some (0xE4#8 ++ s ++ n ++ 0x1#9)
  | .eret => some (0xE4000002#32)
  | .trap n => some (0x1C80#13 ++ n ++ 0x3#9)
  | .tlbinv a b => some (0x1C80#13 ++ a ++ b ++ 0x4#9)
  | .wdset d a => some (0xE4#8 ++ d ++ a ++ 0x5#14)
  | .kill a => some (0x1C80#13 ++ a ++ 0x6#14)
  | .preempt a => some (0x1C80#13 ++ a ++ 0x7#14)
  | .ext a e => some (0x1CA0#13 ++ a ++ 0x0#5 ++ e ++ 0x0#6)
  | .exr d e => some (0xE5#8 ++ d ++ 0x0#10 ++ e ++ 0x1#6)
  | .exti e h mode imm => some (0xE6#8 ++ e ++ h ++ mode ++ 0x0#2 ++ imm)
  | _ => none

/-- The halfword of a 16-bit instruction (R79, R89). -/
def encode16 : Instr → Option Half
  | .addMove_16 d a => some (0x1#6 ++ d ++ a)
  | .add_16 d a => some (0x2#6 ++ d ++ a)
  | .sub_16 d a => some (0x3#6 ++ d ++ a)
  | .and_16 d a => some (0x4#6 ++ d ++ a)
  | .or_16 d a => some (0x5#6 ++ d ++ a)
  | .xor_16 d a => some (0x6#6 ++ d ++ a)
  | .sll_16 d a => some (0x7#6 ++ d ++ a)
  | .faddF64_16 d a => some (0x8#6 ++ d ++ a)
  | .fmulF64_16 d a => some (0x9#6 ++ d ++ a)
  | .faddF32_16 d a => some (0xA#6 ++ d ++ a)
  | .fmulF32_16 d a => some (0xB#6 ++ d ++ a)
  | .ldB64_16 d a => some (0xC#6 ++ d ++ a)
  | .stB64_16 d a => some (0xD#6 ++ d ++ a)
  | .ldN32_16 d a => some (0xE#6 ++ d ++ a)
  | .stB32_16 d a => some (0xF#6 ++ d ++ a)
  | .ldF32_16 d a => some (0x10#6 ++ d ++ a)
  | .stF32_16 d a => some (0x11#6 ++ d ++ a)
  | .li_16 d imm => some (0x12#6 ++ d ++ imm)
  | .addi_16 d imm => some (0x13#6 ++ d ++ imm)
  | .slli_16 d imm => some (0x14#6 ++ d ++ imm)
  | .srli_16 d imm => some (0x15#6 ++ d ++ imm)
  | .srai_16 d imm => some (0x16#6 ++ d ++ imm)
  | .ldB64Sp_16 d imm => some (0x17#6 ++ d ++ imm)
  | .stB64Sp_16 d imm => some (0x18#6 ++ d ++ imm)
  | .jmp_16 disp => some (0x19#6 ++ disp)
  | .call_16 disp => some (0x1A#6 ++ disp)
  | .halt_16 => some (0x6C00#16)
  | .yield_16 => some (0x6C01#16)
  | .ret_16 => some (0x6C02#16)
  | .brk_16 => some (0x6C03#16)
  | .nop_16 => some (0x6C04#16)
  | _ => none

/-- The halfwords of an instruction in fetch order (R63); none for an event, which has no encoding. -/
def encode (i : Instr) : List Half :=
  match encode32 i with
  | some w => [bits w 16 16, bits w 0 16]
  | none =>
    match encode16 i with
    | some h => [h]
    | none => []

/-- Halfwords as they stand in memory (R17). -/
def halfBytes (hs : List Half) : List Byte := hs.flatMap fun h => [bits h 0 8, bits h 8 8]

/-- The bytes in memory of an instruction whose bits are w as spec/opcode_table.json numbers them: a 16-bit row is h0
alone, a longer one is w[31:16] and then w[15:0] (R63). -/
def tableBytes (nbits w : Nat) : List Byte :=
  if nbits ≤ 16 then halfBytes [BitVec.ofNat 16 w]
  else halfBytes [BitVec.ofNat 16 (w / 65536), BitVec.ofNat 16 w]

/-- The instruction that the decoder reads from a row's word. -/
noncomputable def decodeTableWord (nbits w : Nat) : Option Instr :=
  match decode (tableBytes nbits w) with
  | .instr i _ => some i
  | .illegal _ _ => none
  | .truncated => none

end Sys2Proof
end

