-- ==== Sys2Proof/Machine/Slh.lean ====
section
/-! DEFINITION. SLH-DSA-SHA2-128s, the one signature scheme of the device (R15), which R413 and R414 name. The spec does not lay it
down; this is FIPS 205 (PRESUMED, log entry 40): n = 16, h = 63, d = 7, h' = 9, a = 12, k = 14, w = 16, 35 chains. -/

namespace Sys2Proof.Machine

/-! ## Addresses and hashes -/

/-- The low `n` bytes of a number, the most significant first. -/
def beBytes : Nat → Nat → List Byte
  | 0, _ => []
  | n + 1, x => BitVec.ofNat 8 (x / 256 ^ n) :: beBytes n x

/-- A number from bytes, the most significant first. -/
def beNat (bs : List Byte) : Nat := bs.foldl (fun x b => 256 * x + b.toNat) 0

/-- An address: layer, tree, type, and three words that the type gives a meaning. -/
structure Adrs where
  layer : Nat
  tree : Nat
  typ : Nat
  a : Nat
  b : Nat
  c : Nat

/-- The compressed form of an address, 22 bytes. -/
def Adrs.bytes (x : Adrs) : List Byte :=
  beBytes 1 x.layer ++ beBytes 8 x.tree ++ beBytes 1 x.typ ++ beBytes 4 x.a ++ beBytes 4 x.b ++ beBytes 4 x.c

/-- F, H, T and PRF: one hash of 16 bytes over the public seed, an address and a message. -/
def slhHash (pkSeed : List Byte) (x : Adrs) (m : List Byte) : List Byte :=
  (sha256 (pkSeed ++ List.replicate 48 0 ++ x.bytes ++ m)).take 16

/-- HMAC-SHA-256 with a key of at most 64 bytes. -/
def hmac (key m : List Byte) : List Byte :=
  let pad := fun (v : Byte) => (key ++ List.replicate (64 - key.length) 0).map (· ^^^ v)
  sha256 (pad 0x5C ++ sha256 (pad 0x36 ++ m))

/-- The message digest: 30 bytes of MGF1. -/
def slhDigest (r pkSeed pkRoot m : List Byte) : List Byte :=
  (sha256 (r ++ pkSeed ++ sha256 (r ++ pkSeed ++ pkRoot ++ m) ++ [0, 0, 0, 0])).take 30

/-- Piece i, of 16 bytes. -/
def piece (bs : List Byte) (i : Nat) : List Byte := (bs.drop (16 * i)).take 16

/-- `count` digits of `b` bits of a byte string, the first from its top. -/
def digits (b count : Nat) (bs : List Byte) : List Nat :=
  (List.range count).map fun i => beNat bs / 2 ^ (8 * bs.length - b * (i + 1)) % 2 ^ b

/-! ## WOTS+ -/

/-- `steps` hashes along a chain from hash number `i` on. -/
def wotsChain (pkSeed : List Byte) (x : Adrs) : Nat → Nat → List Byte → List Byte
  | 0, _, v => v
  | steps + 1, i, v => wotsChain pkSeed x steps (i + 1) (slhHash pkSeed { x with c := i } v)

/-- The 35 digits of a message of 16 bytes, with their checksum. -/
def wotsDigits (m : List Byte) : List Nat :=
  let ds := digits 4 32 m
  ds ++ digits 4 3 (beBytes 2 (16 * ds.foldl (fun s d => s + (15 - d)) 0))

/-- The secret of chain i of key pair `key`. -/
def wotsSecret (skSeed pkSeed : List Byte) (layer tree key i : Nat) : List Byte :=
  slhHash pkSeed ⟨layer, tree, 5, key, i, 0⟩ skSeed

/-- The public key from the ends of its chains. -/
def wotsRoot (pkSeed : List Byte) (layer tree key : Nat) (tops : List (List Byte)) : List Byte :=
  slhHash pkSeed ⟨layer, tree, 1, key, 0, 0⟩ tops.flatten

def wotsPublic (skSeed pkSeed : List Byte) (layer tree key : Nat) : List Byte :=
  wotsRoot pkSeed layer tree key ((List.range 35).map fun i =>
    wotsChain pkSeed ⟨layer, tree, 0, key, i, 0⟩ 15 0 (wotsSecret skSeed pkSeed layer tree key i))

def wotsSign (skSeed pkSeed : List Byte) (layer tree key : Nat) (m : List Byte) : List Byte :=
  ((wotsDigits m).zipIdx.map fun d =>
    wotsChain pkSeed ⟨layer, tree, 0, key, d.2, 0⟩ d.1 0 (wotsSecret skSeed pkSeed layer tree key d.2)).flatten

/-- The public key that a signature gives. -/
def wotsFrom (pkSeed : List Byte) (layer tree key : Nat) (sig m : List Byte) : List Byte :=
  wotsRoot pkSeed layer tree key ((wotsDigits m).zipIdx.map fun d =>
    wotsChain pkSeed ⟨layer, tree, 0, key, d.2, 0⟩ (15 - d.1) d.1 (piece sig d.2))

/-! ## Merkle trees -/

/-- Node i at height z of a tree: leaves by `leaf`, addresses by `adrs` of height and index. -/
def merkleNode (pkSeed : List Byte) (adrs : Nat → Nat → Adrs) (leaf : Nat → List Byte) : Nat → Nat → List Byte
  | 0, i => leaf i
  | z + 1, i =>
    slhHash pkSeed (adrs (z + 1) i) (merkleNode pkSeed adrs leaf z (2 * i) ++ merkleNode pkSeed adrs leaf z (2 * i + 1))

/-- The other node of a pair. -/
def sibling (i : Nat) : Nat := if i % 2 = 0 then i + 1 else i - 1

/-- The path of leaf i: the sibling at each of `h` heights. -/
def merklePath (pkSeed : List Byte) (adrs : Nat → Nat → Adrs) (leaf : Nat → List Byte) (h i : Nat) : List Byte :=
  ((List.range h).map fun z => merkleNode pkSeed adrs leaf z (sibling (i / 2 ^ z))).flatten

/-- The root that a node of index i at height z and a path give: one more height for each piece. -/
def merkleFrom (pkSeed : List Byte) (adrs : Nat → Nat → Adrs) : List (List Byte) → Nat → Nat → List Byte → List Byte
  | [], _, _, node => node
  | p :: ps, z, i, node =>
    merkleFrom pkSeed adrs ps (z + 1) (i / 2)
      (slhHash pkSeed (adrs (z + 1) (i / 2)) (if i % 2 = 0 then node ++ p else p ++ node))

/-- The pieces of a byte string. -/
def pieces (n : Nat) (bs : List Byte) : List (List Byte) := (List.range n).map (piece bs)

/-! ## XMSS and the hypertree -/

def xmssAdrs (layer tree z i : Nat) : Adrs := ⟨layer, tree, 2, 0, z, i⟩

def xmssNode (skSeed pkSeed : List Byte) (layer tree z i : Nat) : List Byte :=
  merkleNode pkSeed (xmssAdrs layer tree) (wotsPublic skSeed pkSeed layer tree) z i

def xmssSign (skSeed pkSeed : List Byte) (layer tree leaf : Nat) (m : List Byte) : List Byte :=
  wotsSign skSeed pkSeed layer tree leaf m ++
    merklePath pkSeed (xmssAdrs layer tree) (wotsPublic skSeed pkSeed layer tree) 9 leaf

def xmssFrom (pkSeed : List Byte) (layer tree leaf : Nat) (sig m : List Byte) : List Byte :=
  merkleFrom pkSeed (xmssAdrs layer tree) (pieces 9 (sig.drop 560)) 0 leaf (wotsFrom pkSeed layer tree leaf sig m)

/-- The signatures of `layers` layers from `layer` up. -/
def treeSign (skSeed pkSeed : List Byte) : Nat → Nat → Nat → Nat → List Byte → List Byte
  | 0, _, _, _, _ => []
  | layers + 1, layer, tree, leaf, m =>
    let sig := xmssSign skSeed pkSeed layer tree leaf m
    sig ++ treeSign skSeed pkSeed layers (layer + 1) (tree / 512) (tree % 512) (xmssFrom pkSeed layer tree leaf sig m)

/-- The root that the signatures of `layers` layers give. -/
def treeFrom (pkSeed : List Byte) : Nat → Nat → Nat → Nat → List Byte → List Byte → List Byte
  | 0, _, _, _, _, m => m
  | layers + 1, layer, tree, leaf, sig, m =>
    treeFrom pkSeed layers (layer + 1) (tree / 512) (tree % 512) (sig.drop 704) (xmssFrom pkSeed layer tree leaf sig m)

/-! ## FORS -/

def forsAdrs (tree leaf z i : Nat) : Adrs := ⟨0, tree, 3, leaf, z, i⟩

def forsSecret (skSeed pkSeed : List Byte) (tree leaf i : Nat) : List Byte := slhHash pkSeed ⟨0, tree, 6, leaf, 0, i⟩ skSeed

def forsLeaf (skSeed pkSeed : List Byte) (tree leaf i : Nat) : List Byte :=
  slhHash pkSeed (forsAdrs tree leaf 0 i) (forsSecret skSeed pkSeed tree leaf i)

def forsSign (skSeed pkSeed : List Byte) (tree leaf : Nat) (md : List Byte) : List Byte :=
  ((digits 12 14 md).zipIdx.map fun d =>
    let i := 4096 * d.2 + d.1
    forsSecret skSeed pkSeed tree leaf i ++
      merklePath pkSeed (forsAdrs tree leaf) (forsLeaf skSeed pkSeed tree leaf) 12 i).flatten

/-- The public key that a signature gives. -/
def forsFrom (pkSeed : List Byte) (tree leaf : Nat) (sig md : List Byte) : List Byte :=
  slhHash pkSeed ⟨0, tree, 4, leaf, 0, 0⟩ (((digits 12 14 md).zipIdx.map fun d =>
    let i := 4096 * d.2 + d.1
    let part := sig.drop (208 * d.2)
    merkleFrom pkSeed (forsAdrs tree leaf) (pieces 12 (part.drop 16)) 0 i
      (slhHash pkSeed (forsAdrs tree leaf 0 i) (piece part 0))).flatten)

/-! ## Keys, signatures, verification -/

/-- The internal key generation from SK.seed, SK.prf and PK.seed: the secret key of 64 bytes and the public key of 32. -/
def slhKeygen (skSeed skPrf pkSeed : List Byte) : List Byte × List Byte :=
  let root := xmssNode skSeed pkSeed 6 0 9 0
  (skSeed ++ skPrf ++ pkSeed ++ root, pkSeed ++ root)

/-- A seed of the identity key (R414). -/
def idSeed (secret : List Byte) (label : Byte) : List Byte := (sha256 (secret ++ [label])).take 16

/-- The identity key pair of a device secret (R414). -/
def identity (secret : List Byte) : List Byte × List Byte := slhKeygen (idSeed secret 1) (idSeed secret 2) (idSeed secret 3)

/-- The parts of a digest: the FORS digest, the tree and the leaf. -/
def digestParts (dg : List Byte) : List Byte × Nat × Nat :=
  (dg.take 21, beNat ((dg.drop 21).take 7) % 2 ^ 54, beNat ((dg.drop 28).take 2) % 512)

/-- A message as the pure form signs it, with an empty context. -/
def slhMessage (m : List Byte) : List Byte := [0, 0] ++ m

/-- The signature of a message under a secret key, with 16 bytes of `rand`: 7,856 bytes. -/
def slhSign (sk rand m : List Byte) : List Byte :=
  let skSeed := piece sk 0
  let pkSeed := piece sk 2
  let msg := slhMessage m
  let r := (hmac (piece sk 1) (rand ++ msg)).take 16
  let p := digestParts (slhDigest r pkSeed (piece sk 3) msg)
  let fors := forsSign skSeed pkSeed p.2.1 p.2.2 p.1
  r ++ fors ++ treeSign skSeed pkSeed 7 0 p.2.1 p.2.2 (forsFrom pkSeed p.2.1 p.2.2 fors p.1)

/-- The signature of a message verifies under a public key. -/
def slhVerify (pk m sig : List Byte) : Bool :=
  let pkSeed := piece pk 0
  let p := digestParts (slhDigest (piece sig 0) pkSeed (piece pk 1) (slhMessage m))
  sig.length == 7856 &&
    treeFrom pkSeed 7 0 p.2.1 p.2.2 (sig.drop 2928) (forsFrom pkSeed p.2.1 p.2.2 (sig.drop 16) p.1) == piece pk 1

end Sys2Proof.Machine
end

