-- ==== Sys2Proof/Machine/State.lean ====
section
/-! DEFINITION. The state of the DN2-1280A as plain data, and the state after device reset.

The chapters "Machine State", "Memories and Translation", "Scheduling from Launch to Issue Slot", "The Vault Fabric",
"Host, Die and Device Links" and "Bring-up, Power Permits and Freeze" name it. Every identifier is logical (R3): thread
16 × core + slot, core 8 × course + position, course 20 × die + local course. Sparse tables list what differs from their
default only. -/

namespace Sys2Proof.Machine

/-! ## Memory -/

/-- Memory as byte cells: physical memory (R336), a scratchpad (R35), a slot's payload or side-store (R42, R195). -/
abbrev Mem := Tbl Byte

/-- Where an access lands (R142, R336): a physical address, or an address of a core's scratchpad. -/
inductive Loc where
  | phys (pa : Nat)
  | spad (core addr : Nat)
  deriving DecidableEq, Repr

/-! ## The caches (R338-R342, R401) -/

/-- Eviction classes (R28, R339). -/
inductive EvClass where
  | keep | normal | stream
  deriving DecidableEq, Repr

/-- How a home slice holds a sector (R401); of DRAM it owns every sector. -/
inductive SecState where
  | invalid | shared | owned
  deriving DecidableEq, Repr

/-- What an access to global space brings to the caches: the core whose L1 it goes through (none for an engine), the home
(R340), the class (R28, R346), where it allocates (0 L1 and L2, 1 L2, 2 nowhere) and how it writes (0 back, 1 through,
2 around) (R145, R342, R346), the entry of the group table that its page is homed on in mode 1, its page as the TLBs hold
it: ASID, first granule, leaf; and the partition. -/
structure Via where
  core : Option Nat
  home : Nat
  cls : EvClass
  lvl : Nat
  wp : Nat
  grp : Option Nat
  page : Nat × Nat × Word
  part : Nat
  deriving DecidableEq, Repr

/-- An access to a scratchpad passes no cache; its home is the core. -/
def Via.spad (core : Nat) : Via := ⟨none, core, .normal, 2, 0, none, (0, 0, 0), 0⟩

/-- A line of an L2 slice (R339): its number (R337), its class, whether DRAM has an older content (R342), the states of its
sectors in ascending order (R401), and the groups and pages through which accesses filled or touched it. -/
structure L2Line where
  line : Nat
  cls : EvClass
  dirty : Bool
  secs : List SecState
  grps : List Nat
  pages : List (Nat × Nat × Word)
  /-- of a dirty line: the bytes of its memory that stores have yet to reach, by offset in the line, until it is written back -/
  below : List (Nat × Byte)
  deriving DecidableEq, Repr

/-- The caches. What they hold is in `State.mem`, which every access sees alike: here is which lines and blocks they hold.
The set of L1s that hold blocks of a line, which its home keeps (R338), is those in whose list one stands. -/
structure Caches where
  /-- by core: the numbers of the 64-byte blocks of its L1 data cache -/
  l1 : Tbl (List Nat)
  /-- by core: the numbers of the 64-byte blocks of its L1 instruction cache, at most 512 (R5, R75) -/
  l1i : Tbl (List Nat)
  /-- by core: the lines of its L2 slice, the most recently used first -/
  l2 : Tbl (List L2Line)
  /-- MODEL: L1 blocks replaced so far, from which `Config.l1Victim` draws (DESIGN CHOICE, log entry 4) -/
  fills : Nat
  deriving DecidableEq, Repr

/-! ## The thread context (R20) -/

/-- A hardware loop register (R29). -/
structure LoopReg where
  index : BitVec 32
  bound : BitVec 32
  step : BitVec 32
  top : BitVec 57
  span : BitVec 10
  act : Bool
  deriving DecidableEq, Repr

def LoopReg.zero : LoopReg := ⟨0, 0, 0, 0, 0, false⟩

/-- A trap record set (R278). -/
structure RecSet where
  epc : BitVec 57
  status : BitVec 32
  cause : Word
  info : Word
  addr : Word
  bits : Word
  scratch : Word
  deriving DecidableEq, Repr

def RecSet.zero : RecSet := ⟨0, 0, 0, 0, 0, 0, 0⟩

/-- Which thread of which launch a context runs (R248: bindings name teams): launch, team, and the thread's own slot
number in its team. -/
structure Ident where
  launch : Nat
  team : Nat
  thr : Nat
  deriving DecidableEq, Repr

/-- The orders of R27. -/
inductive Order where
  | loose | causal | acquire | release | acqRel | sc
  deriving DecidableEq, Repr

/-- The scopes of R27. -/
inductive Scope where
  | thread | core | course | die | device | system
  deriving DecidableEq, Repr

/-- How a loaded value of s bytes fills a register (R56, R86). -/
inductive LdKind where
  | i8 | n8 | i16 | n16 | i32 | n32 | b64 | f16 | bf16 | f32 | f64
  deriving DecidableEq, Repr

/-- The operations of R154. -/
inductive AmoOp where
  | swap | add | and | or | xor | minI | maxI | minN | maxN | cas | fadd
  deriving DecidableEq, Repr

/-- A posted write (R150, R152, R164): the bytes to store (none for `arrive`), the arrival that follows, and what orders
it. `sent` marks one that travels to another die as a strong update (R351); `joined`, a loose one that a strong load of
the thread has read, which puts it before the thread's later strong accesses (K1 of R304, R305). -/
structure Posted where
  loc : Loc
  bytes : List Byte
  arrival : Option (Loc × BitVec 32)
  order : Order
  scope : Scope
  via : Via
  sent : Bool
  joined : Bool
  led : Bool
  kept : Bool
  deriving DecidableEq, Repr

/-- A field of an instruction, with its number in an OPND record (R277: 0 d, 1 a, 2 b, 3 esel, 4 q, 5 aw) and what it
names; or a register that the instruction reads without a field. -/
inductive Field where
  /-- a source code -/
  | src (n : Nat) (c : BitVec 5)
  /-- a destination code -/
  | dst (n : Nat) (c : BitVec 5)
  /-- a source and destination: 0-15 (R122) -/
  | both (n : Nat) (c : BitVec 5)
  /-- a source restricted to 0-15 -/
  | gsrc (n : Nat) (c : BitVec 5)
  /-- a state code of `fill` and `drain`: 0-23 (R158) -/
  | state (n : Nat) (c : BitVec 5)
  /-- a code whose state `peek` reads: 0-25 (R159) -/
  | peek (n : Nat) (c : BitVec 5)
  /-- two destinations, which may not be one register other than g0 (R161) -/
  | differ (n : Nat) (a b : BitVec 5)
  /-- a channel port: 24 or 25 -/
  | port (n : Nat) (c : BitVec 5)
  /-- a register of another file with `max` as its last number -/
  | file (n : Nat) (c : BitVec 5) (max : Nat)
  /-- extension registers from e on, `span` of them (R81) -/
  | ext (e span : Nat)
  /-- vl, vs or a loop register, read -/
  | vl
  | vs
  | loop (c : BitVec 5)
  /-- a token table entry of the thread's course -/
  | token
  deriving DecidableEq, Repr

/-- What a parked thread of step 6 or 7 of R80 waits for; it re-issues from step 1 when the condition no longer holds. -/
inductive ParkCond where
  /-- step 6: an operand field is not ready (R22, R26, R44) -/
  | operands (fs : List Field)
  /-- eight posted writes are outstanding (R150) -/
  | postedFull
  /-- a release fence or `fence.i` waits for the posted writes (R156, R157) -/
  | postedAny
  /-- an sc fence waits for its turn in the keystone sequence (R147, R315) -/
  | scPending
  /-- the target mailbox is full (R36, R160) -/
  | mailboxFull (core : Nat)
  /-- the issuing core's mailbox is empty (R161) -/
  | mailboxEmpty
  /-- the slot of a handle is in use by an engine (R194) -/
  | slotBusy (course slot : Nat)
  /-- every slot of the course is bound (R199) -/
  | slotsBound (course : Nat)
  /-- a token is not terminal (R229) -/
  | tokenLive (tok : BitVec 32)
  /-- a context of the core is in use (R238) -/
  | contextUsed (thr : Nat)
  /-- the partition has no free stack segment (R241) -/
  | noSegment
  /-- a named group has an `acfg` token queued or running (R260) -/
  | acfgPending (mask : BitVec 16)
  /-- a named group has a running token (R274) -/
  | runPending (mask : BitVec 16)
  deriving DecidableEq, Repr

/-- What a load, an sc store or an atomic brings back from its home: a bad unit instead of an effect, the destination's value, the
flags raised. -/
structure Answer where
  /-- of what: 0 a load, 1 a store, 2 an atomic -/
  code : Word
  bad : Option (Nat × Nat)
  old : Word
  flags : BitVec 4
  deriving DecidableEq, Repr

/-- What a thread waits for. -/
inductive Wait where
  /-- it issues at its slot -/
  | ready
  /-- parked at step 7; re-issues when the condition ends -/
  | cond (c : ParkCond)
  /-- a load's reply (R149): where it reads and by which home, its effective address, its destination and whether that was
  full at issue (R143), whether it is strong, whether it acts as an acquire fence (R146), whether it goes to another die (R390), its keystone number if its order is sc (R147), the sources that its completion
  consumes (R80, R143) -/
  | load (loc : Loc) (via : Via) (ea : Word) (kind : LdKind) (d : BitVec 5) (was strong acq far : Bool) (sc : Option (BitVec 64))
      (srcs : List (BitVec 5))
  /-- an sc store's reply (R147, R150), with its keystone number -/
  | storeSc (p : Posted) (num : BitVec 64)
  /-- an atomic's reply (R155); likewise -/
  | atomic (loc : Loc) (via : Via) (ea : Word) (op : AmoOp) (wide : Bool) (d : BitVec 5) (v c : Word) (was strong : Bool)
      (sc : Option (BitVec 64)) (srcs : List (BitVec 5))
  /-- a load, an sc store or an atomic performed at a home on another die, whose reply is on its way (R149, R155, R434) -/
  | answered (a : Answer) (ea : Word) (d : BitVec 5) (was : Bool) (srcs : List (BitVec 5))
  /-- a long instruction whose effect is in the state and whose last write is still on its way: `tld`, `tsave`, `cvq`,
  `cvd`, row and column moves, vault writes; the raised flags whose trap is due at its end (R176) -/
  | finish (fpe : BitVec 4)
  /-- a vector instruction (R175, R177); likewise, with its completion time T in cycles from issue, and the destination
  and value of a reduction (R185; g0 for none) -/
  | vector (fpe : BitVec 4) (cycles : Nat) (d : BitVec 5) (v : Word)
  /-- `await`: the word's scratchpad address, the generation it waits to see changed, the destination (R165), the
  sources that its completion consumes -/
  | await (addr : Nat) (gen : Word32) (d : BitVec 5) (srcs : List (BitVec 5))
  /-- a deterministic `vclaim` that waits for its lanes: its destination and source (R170) -/
  | claim (d a : BitVec 5)
  /-- `adict` that has read its words and waits for the `acfg` tokens of its groups (R260 step 2): the groups, the first
  entry, the words, the sources that its completion consumes -/
  | dict (mask : BitVec 16) (first : Nat) (words : List Word) (srcs : List (BitVec 5))
  /-- `bar`: the barrier's key, the generation it arrived in, the source of its selector (R252) -/
  | barrier (key gen : Nat) (a : BitVec 5)
  /-- an attached child operation (R221): its token, and the sources that its completion consumes -/
  | attached (tok : BitVec 32) (srcs : List (BitVec 5))
  /-- `tlbinv` until the TLBs have dropped the entries is one step here; `halt` until the replies are in (R135) -/
  | halting
  /-- requests at the vault dies (R257): the destination that the answer fills, if any, the dies that have not applied
  theirs yet, the answer so far -/
  | vault (d : Option (BitVec 5)) (left : Nat) (sum : Word)
  /-- a claimed context without a stack segment yet; a stolen continuation's, or another's (R241, R246) -/
  | segment (stolen : Bool)
  deriving DecidableEq, Repr

/-- A thread context: the registers of R20, the records of R283, its watchdog count (R137), lanes (R169), posted writes
(R150), and which thread it is. -/
structure Ctx where
  /-- the context is in use -/
  live : Bool
  ident : Ident
  g : Vector Word 16
  gFull : Vector Bool 16
  e : Vector Word 8
  q : Vector Word32 4
  l : Vector LoopReg 2
  lFull : Vector Bool 2
  p : Vector Word32 8
  vl : Word32
  vlFull : Bool
  vs : Word32
  vsFull : Bool
  sd : Vector Word 4
  rk : Word
  /-- t0-t31: the bound slot of the thread's course, if any (R33) -/
  t : Vector (Option (BitVec 7)) 32
  pc : BitVec 57
  status : Word32
  u : RecSet
  sv : RecSet
  uvec : Word
  umask : Word
  tasid : BitVec 12
  epfqh : Word32
  /-- watchdog count (40 bits) -/
  wd : Nat
  grant : Nat
  want : Nat
  /-- a deterministic `vclaim` of the thread waits (R169) -/
  claimParked : Bool
  posted : List Posted
  wait : Wait
  /-- the cycle before which the thread issues nothing (R177, R205, R366) -/
  resumeAt : Nat
  /-- cin accepts from, cout pushes to: (team, thread) of the launch (R248) -/
  cin : Option (Nat × Nat)
  cout : Option (Nat × Nat)
  /-- an entry of the queue bound at cout is reserved by a load (R149) -/
  coutReserved : Bool
  /-- the path of a task of a deterministic launch (R247) -/
  path : Nat
  /-- the stack segments that return when this thread ends (R241), the one its first frame lies on first -/
  segments : List Nat
  /-- the fresh segment of a stolen continuation, which returns when that frame ends (R246) -/
  stolenSeg : Option Nat
  /-- a task started on a lent slot (R136) -/
  lent : Bool
  /-- a pre-emption, kill or debug halt reached it at its boundary (R293, R420) -/
  halted : Bool
  /-- a debug halt was asked for, and holds (R420) -/
  dbgAsked : Bool
  dbgHeld : Bool
  /-- register writes of the debugger, to take effect at resumption (R420) -/
  dbgWrites : List DbgWrite
  /-- one instruction to issue under DSTEP (R420) -/
  dbgStep : Bool
  /-- MODEL: the instruction last issued: its bits, whether they are 16, its address (for the records of R278, R277) -/
  ir : Word32
  /-- MODEL: the number of writes to physical memory at the thread's last `fence.i`, 0 before its first: a start is no fence (R75,
  R157; log entry 20) -/
  fencedAt : Nat
  irHalf : Bool
  irPc : BitVec 57
  /-- MODEL: the cycle of its core at its last issue, from which R24 counts -/
  issuedAt : Nat
  deriving DecidableEq, Repr

/-- The thread-start reset of R20 on a context that is not in use. Its path is that of a team's first thread (R247), which a thread
that `start` or an entry starts keeps (DESIGN CHOICE, log entry 77). -/
def Ctx.blank : Ctx :=
  { live := false, ident := ⟨0, 0, 0⟩
    g := Vector.replicate 16 0, gFull := Vector.replicate 16 true
    e := Vector.replicate 8 0, q := Vector.replicate 4 0x9
    l := Vector.replicate 2 LoopReg.zero, lFull := Vector.replicate 2 true
    p := Vector.replicate 8 0, vl := 0, vlFull := true, vs := 0x10, vsFull := true
    sd := Vector.replicate 4 0, rk := 0, t := Vector.replicate 32 none
    pc := 0, status := 0, u := RecSet.zero, sv := RecSet.zero, uvec := 0, umask := 0
    tasid := 0, epfqh := 0, wd := 0, grant := 0, want := 0, claimParked := false
    posted := [], wait := .ready, resumeAt := 0, cin := none, cout := none, coutReserved := false
    path := 1, segments := [], stolenSeg := none, lent := false, halted := false
    dbgAsked := false, dbgHeld := false, dbgWrites := [], dbgStep := false
    ir := 0, fencedAt := 0, irHalf := false, irPc := 0, issuedAt := 0 }

/-! ## State of a core -/

/-- A window register's write under way (R24): the cycle at which it takes effect, the register (0-63), and the new
value and full/empty state. -/
structure WinWb where
  due : Nat
  reg : Nat
  val : Option Word
  full : Bool
  deriving DecidableEq, Repr

/-- What an `mfs` or `mts` does at its writeback (R285): the cycle, the thread and who it is, the register's number, and the
destination that reads it or the value that it takes. -/
structure SysWb where
  due : Nat
  thr : Nat
  who : Ident
  num : Nat
  act : BitVec 5 ⊕ Word
  deriving DecidableEq, Repr

/-- A mailbox message of 128 bits (R36). -/
abbrev Message := BitVec 128

/-- The states of a waiting-task entry (R39). -/
inductive WtState where
  | free | armed | fired
  deriving DecidableEq, Repr

/-- A waiting-task table entry (R39); the last fields say whose task it starts. -/
structure WtEntry where
  state : WtState
  word : BitVec 15
  threshold : Word32
  gen : Word32
  entry : BitVec 57
  arg : Word
  tasid : BitVec 12
  deriving DecidableEq, Repr

def WtEntry.zero : WtEntry := ⟨.free, 0, 0, 0, 0, 0, 0⟩

/-- A continuation record of the spawn deque (R40, R243): the migration line of R239 and the thread it is tagged with; the
join record and the child that it belongs to, and what stays with the parent's frame: its path, its stack segments, and the
fresh one of an earlier theft (R241, R246). -/
structure Cont where
  owner : Ident
  record : Word
  child : Nat
  /-- its line, and, where it has spilled, the physical address at which the line lies instead (R40) -/
  line : List Byte
  place : Option Nat
  tasid : BitVec 12
  path : Nat
  segs : List Nat
  stolen : Option Nat
  fencedAt : Nat
  deriving DecidableEq, Repr

/-- A migration message waiting at its target (R239, R240); of a swapped-in context that found no slot, the context whose slot
it was lent (R136, R294). -/
structure Migrant where
  ctx : Ctx
  loan : Ctx
  deriving DecidableEq, Repr

/-- A deterministic spawn task (R247): `top` is where its frame begins. -/
structure SpawnTask where
  entry : BitVec 57
  arg : Word
  top : Word
  segment : Nat
  path : Nat
  tasid : BitVec 12
  deriving DecidableEq, Repr

/-- What waits for a context of the core of a deterministic team (R245, R247): a spawn task, or a parent that its last child
resumes, with the destination of its `sync` and the value it takes (none: it resumes at the `sync`). -/
inductive DetWork where
  | task (t : SpawnTask)
  | resume (c : Ctx) (d : BitVec 5) (v : Option Word)
  deriving DecidableEq, Repr

/-- What of a core belongs to the resident team and goes into its swap image (R294): window registers, mailbox,
waiting-task table, spawn deque, scratchpad, saved contexts of lent slots (R136), end records (R238). -/
structure TeamMem where
  win : Vector Word 64
  winFull : Vector Bool 64
  mailbox : List Message
  wt : Tbl WtEntry
  /-- newest first: the near end is the head; up to 64 (R40) -/
  deque : List Cont
  /-- the older records, whose lines lie in the core's spill area (R40) -/
  spilled : List Cont
  spad : Mem
  loans : Tbl Ctx
  /-- per context: 0 `halt`, 1 + (class << 8) fatal trap, 2 killed, 3 none since the last `reap` (R238); the table's
  default is 3 -/
  endRec : Tbl Word
  deriving DecidableEq, Repr

/-- The whole deque, newest first, with what has spilled (R40). -/
def TeamMem.conts (m : TeamMem) : List Cont := m.deque ++ m.spilled

def TeamMem.zero : TeamMem :=
  { win := Vector.replicate 64 0, winFull := Vector.replicate 64 false, mailbox := [], wt := []
    deque := [], spilled := [], spad := [], loans := [], endRec := [] }

/-- A core. -/
structure Core where
  /-- the core's count of cycles (R283, R367) -/
  cycle : Nat
  wb : List WinWb
  /-- pushes to channel queues under way: the cycle of their writeback, the queue's key (R24, R249) -/
  pushDue : List (Nat × Nat)
  /-- accesses to system registers under way (R285) -/
  sysWb : List SysWb
  /-- vector instructions under way: the cycle T at which each completes, its thread (R177) -/
  vecDue : List (Nat × Nat)
  tm : TeamMem
  /-- the resident team: launch and team number (R363) -/
  team : Option (Nat × Nat)
  /-- cycles of the quantum used since placement (R364) -/
  quantum : Nat
  /-- a pre-emption of the resident team is under way (R293) -/
  preempting : Bool
  /-- a deterministic team swapped in waits for the lanes of all its wants (R172) -/
  teamClaim : Bool
  /-- a team that placement chose waits for its image (R295) -/
  restoring : Bool
  /-- removal level L (R368) -/
  removal : BitVec 4
  arrivals : List Migrant
  /-- entries of the L1 TLB, newest first (R348): ASID, first granule, leaf -/
  tlb : List (Nat × Nat × Word)
  deriving DecidableEq, Repr

def Core.zero : Core :=
  { cycle := 0, wb := [], pushDue := [], sysWb := [], vecDue := [], tm := TeamMem.zero, team := none, quantum := 0, preempting := false
    teamClaim := false, restoring := false, removal := 0
    arrivals := [], tlb := [] }

/-! ## State of a course -/

/-- A tile slot (R42, R194-R196): shape register, payload, side-store, the engine uses outstanding, and the team that an
owed slot belongs to with the handle that named it. -/
structure Slot where
  /-- bits [47:0] of the shape register -/
  shape : BitVec 48
  dy : Bool
  ow : Bool
  bd : Bool
  payload : Mem
  side : Mem
  /-- words that hold an uncorrectable error: by number in the payload, from 2,048 on in the side-store (R354) -/
  bad : List Nat
  /-- words that hold an error of one bit, numbered likewise (R354) -/
  corr : List Nat
  uses : Nat
  holder : Ident
  handle : BitVec 5
  /-- what becomes of it when its engine returns it: 0 nothing, 1 it frees (R200), 2 it becomes owed (R206) -/
  onReturn : Nat
  deriving DecidableEq, Repr

def Slot.zero : Slot :=
  { shape := 0, dy := false, ow := false, bd := false, payload := [], side := [], bad := [], corr := [], uses := 0
    holder := ⟨0, 0, 0⟩, handle := 0, onReturn := 0 }

/-- Token states (R44). -/
inductive TokState where
  | free | queued | permit | running | done | faulted | cancelled
  deriving DecidableEq, Repr

/-- The `mma` forms (R211). -/
inductive MmaForm where
  | e2m1 | e4m3 | e5m2 | e4m3e5m2 | i8 | bf16 | f32 | f64
  deriving DecidableEq, Repr

/-- A pair of an `mma` (R212): the handles of A and B, and the slots that they named at issue. -/
structure MmaPair where
  ha : BitVec 5
  hb : BitVec 5
  a : BitVec 7
  b : BitVec 7
  deriving DecidableEq, Repr

/-- The collectives (R251). -/
inductive CollOp where
  | allred | red | bcast | allgat
  deriving DecidableEq, Repr

/-- A layout record (R234). -/
structure Layout where
  dims : Nat
  esz : Nat
  srcSpace : Nat
  dstSpace : Nat
  extent : List Nat
  srcStride : List Int
  dstStride : List Int
  deriving DecidableEq, Repr

/-- A copy or `cset` (R233-R236, R349). -/
structure CopyJob where
  /-- the core whose scratchpad is space 1 -/
  core : Nat
  /-- source base, or pattern; destination base -/
  src : Word
  dst : Word
  lay : Layout
  isSet : Bool
  /-- the arrival word: core and address -/
  aw : Option (Nat × Nat)
  /-- the first element not yet delivered -/
  next : Nat
  /-- shadowed bytes, whose arrival comes at the publish -/
  held : Nat
  /-- shadow frames taken: (visible granule, number of the frame in the pool) -/
  shadow : List (Nat × Nat)
  deriving DecidableEq, Repr

/-- A member's part of a collective (R251, R253, R408). -/
structure CollJob where
  op : CollOp
  /-- the key of the selector, and the member team -/
  sel : Nat
  team : Nat
  /-- 0 f64, 1 f32, 2 i64, 3 i32 -/
  ty : Nat
  /-- 0 sum, 1 min, 2 max -/
  red : Nat
  root : Nat
  n : Nat
  src : Word
  dst : Word
  /-- the issue number on the selector -/
  seqNo : Nat
  deriving DecidableEq, Repr

/-- What a token's engine does: the snapshot of the operands at issue (R81). -/
inductive TokOp where
  | none
  /-- form, accumulator address, the pairs (none once the engine has returned the slots), chunk and count if cv = 1,
  tag=skip (R212, R214) -/
  | mma (form : MmaForm) (acc : Word) (pairs : List MmaPair) (chunk : Option (BitVec 16 × BitVec 16)) (skip : Bool)
  | copy (j : CopyJob)
  | coll (j : CollJob)
  /-- mask, image address, length (R261) -/
  | acfg (mask : BitVec 16) (image : BitVec 57) (len : Nat)
  /-- mask, limit, threshold, hold, tau, timeout, and the initial values and exponents captured (R266) -/
  | arun (mask : BitVec 16) (limit : Word32) (threshold hold : BitVec 16) (tau : Nat) (timeout : Word32)
      (captured : Option (List (Nat × Word32 × Int)))
  deriving DecidableEq, Repr

/-- A token table entry (R44), and what R221-R227 need of its operation. -/
structure Token where
  state : TokState
  gen : BitVec 16
  prio : BitVec 2
  /-- 0x7FFF when the launch holds it (R227) -/
  owner : BitVec 15
  issuer : BitVec 15
  det : Bool
  pend : Bool
  pred : Word32
  part : BitVec 8
  fault : Word
  /-- final status (R216, R267) -/
  fin : BitVec 16
  op : TokOp
  /-- `.b` (R223) -/
  bar : Bool
  /-- arrival order at the engine, or at the vault die (R223, R262) -/
  arr : Nat
  /-- the die whose permit it holds (R48) -/
  permit : Option Nat
  /-- privilege at issue (R347), ASID, launch, thread identity of the issuer -/
  pl : BitVec 2
  tasid : BitVec 12
  ident : Ident
  /-- threads that were parked in `twait` on it when it became terminal and have not returned yet (R222) -/
  owed : List Ident
  /-- ineligible while its team is out (R294) -/
  away : Bool
  /-- its owner is a lent task, not the thread that yielded the slot (R136) -/
  ownLent : Bool
  /-- the owner's launch, team and place in the team (R227) -/
  own : Ident
  /-- a thread waits attached to it (R221) -/
  att : Bool
  /-- it has reached its engines: a vault token has not before its request arrives at the die (R262, R266) -/
  here : Bool
  /-- it stops at its next 4 KiB boundary: 1 cancelled (R226), 2 set aside for a swap (R294) -/
  stop : Nat
  /-- its predecessor ended faulted or cancelled while it was queued (R225) -/
  predFailed : Bool
  deriving DecidableEq, Repr

def Token.zero : Token :=
  { state := .free, gen := 1, prio := 0, owner := 0, issuer := 0, det := false, pend := false, pred := 0, part := 0
    fault := 0, fin := 0, op := .none, bar := false, arr := 0, permit := none, pl := 0, tasid := 0, ident := ⟨0, 0, 0⟩
    owed := [], away := false, ownLent := false, own := ⟨0, 0, 0⟩, att := false
    here := false, stop := 0, predFailed := false }

/-- A partial on its way from a matrix engine to a mortar (R215, R217): the accumulator's virtual address and where the
granules of its region lie (granule number, physical base, leaf), element width, m rows of n element patterns, whether a
rounding returned an infinity from finite operands (R216). -/
structure Partial where
  tok : BitVec 32
  acc : Word
  grans : List (Nat × Nat × Word)
  wide : Bool
  rows : List (List Word)
  inf : Bool
  deriving DecidableEq, Repr

/-- A course. -/
structure Course where
  slots : Tbl Slot
  tokens : Tbl Token
  /-- the token that each engine runs or holds (R223) -/
  matrix : Option (BitVec 32)
  copyEng : Option (BitVec 32)
  /-- a refused partial that the matrix engine retries (R218) -/
  refused : Option Partial
  /-- entries of the course TLB, newest first (R348) -/
  tlb : List (Nat × Nat × Word)
  deriving DecidableEq, Repr

def Course.zero : Course :=
  { slots := [], tokens := [], matrix := none, copyEng := none, refused := none, tlb := [] }

/-! ## State of a die -/

/-- A strong update under way to a die (R351): its origin, the carried clock, the thread whose posted write it is. -/
structure Update where
  origin : Nat
  clock : Vector Word32 8
  thr : Nat
  write : Posted
  deriving DecidableEq, Repr

/-- What a message between dies is (R391): the request of an access, that of an sc access, which goes by way of the keystone
(R147, R352), a reply, or traffic that no thread waits for. -/
inductive Carry where
  | request | ordered | reply | other
  deriving DecidableEq, Repr

/-- A message, with its 16-byte header in a flit: what it is, the thread that it is for, the link ends that have yet to send it on,
the module that it crosses vertically by (R390), the ends that send its reply back (R434), and the bytes of the line or sector
group that go with it, 0 for none (R391). -/
structure Msg where
  kind : Carry
  thr : Nat
  who : Ident
  path : List Nat
  back : List Nat
  vert : Nat
  data : Nat
  deriving DecidableEq, Repr

/-- A flit (R391, R434): its number, the number that it acknowledges up to, its messages, at most three, of which at most one has
bytes of a line. -/
structure Flit where
  seq : BitVec 8
  ack : BitVec 8
  msgs : List Msg
  deriving DecidableEq, Repr

/-- Link counters and flow state of one end (R392, R393, R398, R399). -/
structure Link where
  txflits : Word
  rxflits : Word
  crcerr : Word
  naks : Word
  replayed : Word
  degrades : Word
  retrains : Word
  width : BitVec 8
  /-- 0 absent, 1 up, 2 training, 3 down -/
  state : BitVec 2
  repair : BitVec 8
  /-- the next expected sequence number, and the oldest unacknowledged one -/
  rxSeq : BitVec 8
  acked : BitVec 8
  /-- its traffic takes the detour (R394) -/
  detour : Bool
  /-- it has returned a NAK and discards flits until the expected number arrives (R392) -/
  nakSent : Bool
  /-- a NAK that the far end has yet to get: the number of this end's flit that it rides in (R434) -/
  nakAt : Option (BitVec 8)
  /-- its replay buffer: flits sent and not acknowledged, oldest first, at most 128; and messages that wait to be sent (R392) -/
  buf : List Flit
  queue : List Msg
  /-- flits that came, and the NAK that came, while it trains (R393) -/
  late : List (BitVec 8 × Bool)
  nakHeld : Option (BitVec 8)
  deriving DecidableEq, Repr

def Link.zero : Link := ⟨0, 0, 0, 0, 0, 0, 0, 0, 0, 0, 0, 0, false, false, none, [], [], [], none⟩

/-- A compute die. -/
structure Die where
  /-- pool count of permits (R48, R415), and those held -/
  pcount : BitVec 8
  held : Nat
  /-- tokens waiting for a permit, in arrival order (R369) -/
  waiting : List (BitVec 32)
  /-- vector clock (R351) -/
  clock : Vector Word32 8
  updates : List Update
  /-- thermal ranking row: its cores, coolest first (R47) -/
  ranking : List Nat
  /-- f in MHz (R367, R416), and consecutive low windows -/
  mhz : Nat
  lowWindows : Nat
  /-- entries of the die TLB, newest first (R348) -/
  tlb : List (Nat × Nat × Word)
  /-- remap fuse: the disabled physical course (R412) -/
  disabled : BitVec 8
  deriving DecidableEq, Repr

def Die.zero : Die :=
  { pcount := 0, held := 0, waiting := [], clock := Vector.replicate 8 0, updates := [], ranking := []
    mhz := 1000, lowWindows := 0, tlb := [], disabled := 20 }

/-! ## State of the device -/

/-- A partition's registers and settings (R12, R283, R343, R417). -/
structure Part where
  valid : Bool
  courses : List Nat
  svec : Word
  sdeleg : Word
  spill : Word
  stkpool : Word
  /-- head first: faulting address, handle (R292); `dropped` when entries were dropped before the head -/
  epfq : List (BitVec 57 × BitVec 32)
  epfqDropped : Bool
  rtab : Word
  trange : Word
  mspill : Word
  spool : Word
  merrlog : Word
  cecount : Word
  wdlimit : Nat
  /-- stack segments in use (R241) -/
  segments : List Nat
  /-- shadow frames in use, by number in the pool (R349) -/
  frames : List Nat
  sliceFirst : Nat
  sliceCount : Nat
  shares : Vector (BitVec 8) 8
  /-- permits held on each die -/
  held : Vector Nat 8
  vaultGroups : List Nat
  rings : Vector Nat 8
  faultQueue : Nat
  quantum : Nat
  owned : List (Nat × Nat)
  writable : List (Nat × Nat)
  /-- register 0x170 (R407) -/
  pier : Word
  /-- a device of its pier set was lost since the set was configured (R409) -/
  pierLost : Bool
  /-- a PARTDEL that waits for the end of its launches (R417) -/
  deleting : Option CmdHead
  deriving DecidableEq, Repr

/-- sdeleg at partition creation: every delegable class of R277 (classes 1, 2, 5, 6, 7, 9, 11, 12, 13, 15-32). -/
def sdelegAll : Word := 0x1_FFFF_BAE6

def Part.zero : Part :=
  { valid := false, courses := [], svec := 0, sdeleg := sdelegAll, spill := 0, stkpool := 0, epfq := []
    epfqDropped := false, rtab := 0, trange := 0, mspill := 0, spool := 0, merrlog := 0, cecount := 0
    wdlimit := 0x1000000, segments := [], frames := [], sliceFirst := 0, sliceCount := 0
    shares := Vector.replicate 8 0, held := Vector.replicate 8 0, vaultGroups := [], rings := Vector.replicate 8 0
    faultQueue := 0, quantum := 0x400000, owned := [], writable := [], pier := 0
    pierLost := false, deleting := none }

/-- A group table entry (R45, R440). -/
structure Group where
  valid : Bool
  part : Nat
  launch : Nat
  /-- member teams of the launch that wrote it, ascending -/
  members : List Nat
  /-- (team, core) of each first placement after the group was written -/
  homing : List (Nat × Nat)
  deriving DecidableEq, Repr

def Group.zero : Group := ⟨false, 0, 0, [], []⟩

/-- What becomes of a team (R363). -/
inductive TeamState where
  /-- waiting for its first placement -/
  | waiting
  /-- resident on a core -/
  | resident (core : Nat)
  /-- swapped out, waiting for a core -/
  | out
  /-- every context has ended and its core is given up -/
  | ended
  | killed
  deriving DecidableEq, Repr

/-- A slot record of a swap image (R206). -/
structure SlotRecord where
  thr : Nat
  handle : BitVec 5
  slot : Slot
  deriving DecidableEq, Repr

/-- A team (R69, R293-R295, R363): its state, start argument, place in the queue, swap image. -/
structure Team where
  state : TeamState
  arg : Word
  /-- order in its partition's queue (R363) -/
  order : Nat
  /-- contexts of the image, by the slot that each returns to; from 16 on, those for which no slot is left (R294) -/
  ctxs : Tbl Ctx
  image : TeamMem
  slots : List SlotRecord
  /-- the core that it was last swapped out from -/
  core : Nat
  placedOnce : Bool
  /-- deterministic spawn tasks and resumptions, in order of arrival (R247) -/
  queue : List DetWork
  deriving DecidableEq, Repr

def Team.zero : Team :=
  { state := .ended, arg := 0, order := 0, ctxs := [], image := TeamMem.zero, slots := [], core := 0
    placedOnce := false, queue := [] }

/-- A launch (R361, R362). -/
structure Launch where
  live : Bool
  part : Nat
  ring : Nat
  tag : Word32
  det : Bool
  prio : BitVec 2
  entry : BitVec 57
  n : Nat
  asid : BitVec 12
  endrec : Word
  groups : List Nat
  /-- flags[0] of PREEMPT holds its teams (R359) -/
  held : Bool
  killed : Bool
  fatal : Nat
  firstClass : BitVec 8
  die : Nat
  deriving DecidableEq, Repr

def Launch.zero : Launch :=
  { live := false, part := 0, ring := 0, tag := 0, det := false, prio := 0, entry := 0, n := 0, asid := 0, endrec := 0
    groups := [], held := false, killed := false, fatal := 0, firstClass := 0, die := 0 }

/-- The end of a channel queue (R26). -/
inductive Mark where
  | endMark | abortMark
  deriving DecidableEq, Repr

/-- What lies in a receive queue: a value, or a mark behind the values pushed before it (R26, R250). -/
inductive Item where
  | val (w : Word)
  | mark (m : Mark)
  deriving DecidableEq, Repr

/-- A receive queue (R26, R248-R250), keyed by launch, team and thread. -/
structure Chan where
  /-- oldest first; a mark occupies no entry -/
  q : List Item
  writer : Option (Nat × Nat)
  accepted : Option (Nat × Nat)
  /-- pushes on their way (R249) and entries reserved by a load (R149) -/
  inFlight : List Item
  reserved : Nat
  /-- `chclose cin` discarded it: the next push traps CLOSED (R250) -/
  closed : Bool
  deriving DecidableEq, Repr

def Chan.zero : Chan := ⟨[], none, none, [], 0, false⟩

/-- A barrier (R252), keyed by its selector: the generation, and the member teams that have arrived. -/
structure Barrier where
  gen : Nat
  arrived : List Nat
  deriving DecidableEq, Repr

def Barrier.zero : Barrier := ⟨0, []⟩

/-- A message on its way to a mailbox (R36). -/
structure Flight where
  core : Nat
  msg : Message
  deriving DecidableEq, Repr

/-- A mortar's sequence record (R218): next, N, waiting partials by chunk, chunks that have arrived, discarded or
notified, whether it is broken, whose spill area its waiting partials fill (R353). -/
structure SeqRec where
  next : Nat
  count : Nat
  waiting : List (Nat × Partial)
  seen : List Nat
  closed : List Nat
  broken : Bool
  part : Nat
  deriving DecidableEq, Repr

def SeqRec.zero : SeqRec := ⟨0, 0, [], [], [], false, 0⟩

/-- A collective (R253): its selector's key and issue number, its member teams, the members' tokens by team, the result
of each member's part once every part runs (team, destination granules, bytes), and the first failure: its team and
token. -/
structure Rendezvous where
  sel : Nat
  seqNo : Nat
  launch : Nat
  members : List Nat
  toks : List (Nat × BitVec 32)
  results : List (Nat × List (Nat × Nat × Word) × List Byte)
  failed : Option (Nat × BitVec 32)
  deriving DecidableEq, Repr

/-! ## The vault (R255, R372-R387) -/

/-- Group configuration states (R275). -/
inductive VCfg where
  | unconfigured | configuring | configured
  deriving DecidableEq, Repr

/-- Group activity (R275). -/
inductive VRun where
  | holding | waiting | running | calibrating
  deriving DecidableEq, Repr

/-- A vault column group. -/
structure VGroup where
  cfg : VCfg
  run : VRun
  /-- last outcome, 0-6 (R275) -/
  last : BitVec 4
  runTime : Word32
  cfgGen : BitVec 16
  dict : Tbl Word
  /-- configuration words by cell 0-895 (R372) -/
  cells : Tbl Word
  /-- initial-value registers, scale exponents and fabric values of its integrators, by position 0-255 (R263, R264) -/
  init : Tbl Word32
  scale : Tbl Int
  x : Tbl Rat
  /-- for each integrator, consecutive ticks within the settle bound of the run (R267) -/
  quiet : Tbl Nat
  /-- effective exponents of its coefficient multipliers for the run, by cell (R374) -/
  eff : Tbl Int
  /-- the token that runs on it (R262, R266) -/
  token : Option (BitVec 32)
  /-- its run time counter counts (R267) -/
  counting : Bool
  deriving DecidableEq, Repr

def VGroup.zero : VGroup :=
  { cfg := .unconfigured, run := .holding, counting := false, last := 0, runTime := 0, cfgGen := 0, dict := [], cells := [], init := []
    scale := [], x := [], quiet := [], eff := [], token := none }

/-- A column's calibration register (R383). -/
structure Calib where
  cAdc : Word32
  cGain : Word32
  cDrift : Word32
  cOffset : Word32
  v : Bool
  temp : BitVec 8
  calTick : Word
  deriving DecidableEq, Repr

def Calib.zero : Calib := ⟨0, 0, 0, 0, false, 0, 0⟩

/-- What a request on its way to a vault die asks for (R257). -/
inductive VAsk where
  | dict (mask : BitVec 16) (first : Nat) (words : List Word)
  | setInit (first : Nat) (vals : List Word32)
  | setScale (first : Nat) (vals : List Int)
  /-- a vault token reaches its groups; a run captures its values (R266) -/
  | capture (tok : BitVec 32)
  /-- n integrators from `first` on, and where their samples go, with what the stores bring to the caches -/
  | sample (first n : Nat) (cells : List (Loc × Via))
  | stop (mask : BitVec 16)
  | calibrate (mask : BitVec 16)
  deriving DecidableEq, Repr

/-- A request with the thread that waits for it, and the partition that issued it. -/
structure VReq where
  thr : Nat
  who : Ident
  part : Nat
  ask : VAsk
  deriving DecidableEq, Repr

/-- Samples being converted (R382): where each goes and what it is, value and half-width; the tick of their instant. -/
structure Held where
  thr : Nat
  who : Ident
  since : Nat
  cells : List (Loc × Via × Word)
  deriving DecidableEq, Repr

/-- A calibration (R384): of which groups, whether it has begun and at which tick, whether a freeze interrupted it
(R387). -/
structure Calibrating where
  thr : Nat
  who : Ident
  mask : BitVec 16
  begun : Bool
  since : Nat
  failed : Bool
  deriving DecidableEq, Repr

/-- A vault die. -/
structure VDie where
  /-- ticks since reset (R383) -/
  ticks : Nat
  reqs : List VReq
  samples : List Held
  cals : List Calibrating
  /-- the temperature that the thermal monitor reports (R385) -/
  temp : BitVec 8
  deriving DecidableEq, Repr

def VDie.zero : VDie := ⟨0, [], [], [], 0⟩

/-! ## Firmware and host interface (R411-R420) -/

/-- A command page (R417). -/
structure CmdPage where
  op : BitVec 8
  status : BitVec 8
  reason : BitVec 8
  tag : Word32
  /-- bytes 8-63: the arguments as the host wrote them -/
  args : List Byte
  deriving DecidableEq, Repr

def CmdPage.zero : CmdPage := ⟨0, 0, 0, 0, []⟩

/-- A command of the host (R417). -/
inductive Cmd where
  | bootstat (cmd : CmdHead)
  | partset (cmd : CmdHead) (cfg : PartCfg)
  | partdel (cmd : CmdHead) (part : Nat)
  | attest (cmd : CmdHead) (addr : Nat) (nonce : List Byte)
  | mgmtq (cmd : CmdHead) (addr : Nat)
  | freeze (cmd : CmdHead)
  | thaw (cmd : CmdHead)
  | dhalt (cmd : CmdHead) (target : DbgTarget) (writes : List DbgWrite)
  | drun (cmd : CmdHead) (thr : Nat) (writes : List DbgWrite)
  | dstep (cmd : CmdHead) (thr : Nat)
  | floor (cmd : CmdHead) (version : Word32) (sig : List Byte)
  /-- a block in a page that is refused, for a reason -/
  | refuse (port : Nat) (reason : Byte)
  deriving DecidableEq, Repr

/-- What a scan chain holds (R419): all ones of a running die; a physical course, by its local number if it has one, with the
channel queues of its threads, its barriers, the L1 blocks of its cores and the numbers of their L1 instruction blocks; L2 slices by
core, their lines with the bytes; token tables and the permit arbiter: its pool count, the permits held in all and by partition, the
tokens that wait; the remap registers; the replay buffers by link end; the calibration registers of a vault die; its groups with their dictionaries, and the values held for conversion. -/
inductive Readout where
  | ones
  | course (loc : Option Nat) (state : Course) (cores : List Core) (threads : List Ctx) (queues : List (Nat × Chan))
      (barriers : List (Nat × Barrier)) (blocks : List (Nat × List (Nat × List Byte))) (iblocks : List (List Nat))
  | slices (lines : List (Nat × List (L2Line × List Byte)))
  | tokens (tables : List (Nat × Tbl Token)) (pool : BitVec 8) (held : Nat) (parts : List (Nat × Nat)) (waiting : List (BitVec 32))
  | remap (disabled : BitVec 8)
  | replay (bufs : List (Nat × List Flit))
  | columns (cols : List Calib)
  | capitals (groups : List VGroup) (samples : List Held)
  deriving DecidableEq, Repr

/-- The registers of a thread as the debugger reads them (R420): its context, and i0-i3 and o0-o3, each with its full/empty state. -/
structure DbgView where
  ctx : Ctx
  window : List (Word × Bool)
  deriving DecidableEq, Repr

/-- Firmware state: the registers of R415, boot status, fuses, keys, the frozen state. -/
structure Firmware where
  fwver : Word32
  budget : BitVec 16
  pfloor : BitVec 16
  pweight : BitVec 8
  psel : BitVec 8
  dbgctl : Word32
  /-- 0 booting, 1 ready, 2 signature, 3 fuses (R417) -/
  boot : BitVec 8
  /-- the phases of device reset that are complete, and the image that it boots (R411) -/
  phase : Nat
  image : List Byte
  /-- commands that have arrived and wait to be executed, in order (R417) -/
  waiting : List Cmd
  /-- what the host's last read returned (R402) -/
  hostRead : List Byte
  /-- the registers of the thread that the debugger last named (R420), and what the last scan found (R419) -/
  dbgView : Option DbgView
  readout : Readout
  /-- version floor: the number of blown thermometer fuses (R413) -/
  floor : Nat
  keyHash : List Byte
  /-- the public key of the running image -/
  imageKey : List Byte
  secret : List Byte
  imageHash : List Byte
  /-- identity key pair (R414) -/
  idSecret : List Byte
  idPublic : List Byte
  mgmtQueue : Nat
  pages : Vector CmdPage 2
  frozen : Bool
  /-- a freeze of R394, which only a device reset ends (R418) -/
  frozenHard : Bool
  /-- FREEZE_N is held low (R418) -/
  pinLow : Bool
  /-- the bytes that the test access port last read (R419) -/
  scan : List Byte
  deriving DecidableEq, Repr

/-- An event that an earlier step made due. Each names an event constructor of `Instr` (Machine/Step.lean maps them). -/
inductive Due where
  | reply (thr : Nat)
  | vectorDone (thr : Nat)
  | threadEnd (thr : Nat)
  | postedWrite (thr : Nat)
  | mailDelivery (core : Nat)
  | pendingDelivery (core : Nat)
  | channelPush (chan : Nat)
  | updateApply (die : Nat)
  | claimGrant (course : Nat)
  | tokenSelect (eng : Engine)
  | permitGrant (die : Nat)
  | mmaReady (course : Nat)
  | partialRetry (course : Nat)
  | mortarMerge (acc : Nat)
  | copyUnit (course : Nat)
  | collective (tok : BitVec 32)
  | acfgDone (tok : BitVec 32)
  | vaultRequest (die : Nat)
  | sampleDone (thr : Nat)
  | calibrated (thr : Nat)
  | vaultTick (die : Nat)
  | swapIn (core : Nat)
  | packet (part ring : Nat)
  | quantum (core : Nat)
  | launchAccept (part ring : Nat)
  | placement (part : Nat)
  | launchEnd (launch : Nat)
  | contextClaim (core : Nat)
  | migrationArrival (core : Nat)
  | stealAgent (core : Nat)
  | displacement (thr : Nat)
  | nak (link : LinkId) (seq : BitVec 8)
  | flit (link : LinkId) (seq : BitVec 8)
  | retrained (link : LinkId)
  deriving DecidableEq, Repr

/-- The arrival of a flit at a link end. -/
def Due.isFlitTo (lnk : LinkId) : Due → Bool
  | .flit l _ => l == lnk
  | _ => false

/-- A NAK on its way to a link end. -/
def Due.isNakTo (lnk : LinkId) : Due → Bool
  | .nak l _ => l == lnk
  | _ => false

/-- A parent suspended in `sync` (R245), whose registers lie in memory at its g13 − 384: the virtual address of its join
record, its ASID, its team, the destination of its `sync`, the stack segments that it keeps, its path. -/
structure Suspended where
  record : Word
  asid : BitVec 12
  ident : Ident
  d : BitVec 5
  segments : List Nat
  path : Nat
  fencedAt : Nat
  deriving DecidableEq, Repr

/-- One thing that may happen next: an event, or a core's issue slot. -/
inductive Turn where
  | event (i : Instr)
  | slot (core : Nat)
  deriving DecidableEq, Repr

/-! ## The state -/

/-- The state of the device. -/
structure State where
  /-- contexts by logical thread (R3) -/
  threads : Tbl Ctx
  cores : Tbl Core
  courses : Tbl Course
  dies : Tbl Die
  parts : Tbl Part
  groups : Tbl Group
  launches : Tbl Launch
  /-- teams by launch × 65,536 + team -/
  teams : Tbl Team
  /-- channels by (launch × 65,536 + team) × 2^32 + thread -/
  chans : Tbl Chan
  /-- barriers by selector key -/
  barriers : Tbl Barrier
  colls : List Rendezvous
  /-- collectives issued so far by each member, by (selector key, team) (R253) -/
  collSeq : Tbl Nat
  /-- parents suspended in `sync` -/
  suspended : List Suspended
  /-- sequence records (R218), keyed by partition, ASID and virtual address of the accumulator -/
  seqs : Tbl SeqRec
  /-- physical memory: DRAM and host memory (R336) -/
  mem : Mem
  /-- sectors of DRAM that hold an uncorrectable, or a corrected, error (R354, R355) -/
  badSectors : List Nat
  /-- 8-byte words of lines in L2 that hold an uncorrectable error, by physical address div 8 (R354) -/
  badWords : List Nat
  corrSectors : List Nat
  /-- scratchpad words (core × 65,536 + address div 8) that hold an uncorrectable error (R354) -/
  badSpad : List Nat
  /-- words of lines in L2, and of scratchpads, that hold an error of one bit (R354, R355), numbered as above -/
  corrWords : List Nat
  corrSpad : List Nat
  /-- blocks of L1 data caches whose parity fails: core and block (R354) -/
  badL1 : List (Nat × Nat)
  /-- blocks of L1 instruction caches whose parity fails: core and block of the physical address (R354) -/
  badL1i : List (Nat × Nat)
  /-- TLB entries whose parity fails (R354): 0 core, 1 course, 2 die; its number; the entry -/
  badTlb : List (Nat × Nat × Nat × Nat × Word)
  caches : Caches
  flights : List Flight
  /-- the keystone sequence (R46) -/
  keystone : BitVec 64
  vgroups : Tbl VGroup
  vcols : Tbl Calib
  vdies : Tbl VDie
  /-- link ends: 4d + m for module m of die d, 32 + 2d + p for pier port p of die d, 48 + e for Ebnan port e -/
  links : Tbl Link
  fw : Firmware
  /-- MODEL: the thread whose step this is -/
  cur : Nat
  /-- MODEL: what the environment chooses to happen next, in order -/
  plan : List Turn
  /-- MODEL: events that earlier steps made due, in order -/
  agenda : List Due
  /-- MODEL: the core whose slot comes when plan and agenda are empty -/
  turn : Nat
  /-- MODEL: the number of free values taken so far -/
  fresh : Nat
  /-- MODEL: writes to physical memory so far, and for each the halfword it changed with the content before it
  (R75): (number, physical address, old halfword) -/
  writes : Nat
  hist : List (Nat × Nat × Half)
  /-- MODEL: the next arrival number at an engine (R223), queue order number (R363), launch number (R361) -/
  nextArr : Nat
  nextOrder : Nat
  nextLaunch : Nat
  deriving DecidableEq, Repr

/-- Why a step stops with a fault. No step does: the type stands for the interface. -/
inductive Fault where
  /-- A physical address in a range marked "nothing" in R336. No meaning and no event raises it (log entry 9). -/
  | nothingAt (pa : Nat)
  deriving DecidableEq, Repr

/-- Why a step has no meaning. -/
inductive Refusal where
  /-- The instruction has no meaning in this model yet. Raised by its arm of `exec` only. Safe: nothing is claimed. -/
  | notModelled (mnemonic : String)
  deriving DecidableEq, Repr

/-- What a step ends in. -/
abbrev Out := Host.Outcome State Fault Refusal

/-! ## Reset (R411) -/

/-- A present link end after training: up, at full width (R389, R399). -/
def Link.up (w : BitVec 8) : Link := { Link.zero with width := w, state := 1 }

/-- The link ends present after reset: R389 says which modules are absent, R406 and R400 place the others. -/
def resetLinks : Tbl Link :=
  ((List.range 32).filterMap fun k =>
      if (k % 4 = 0 ∧ (k / 4 = 3 ∨ k / 4 = 7)) ∨ (k % 4 = 1 ∧ (k / 4 = 0 ∨ k / 4 = 4)) then none
      else some (k, Link.up 64))
    ++ ((List.range 16).map fun k => (32 + k, Link.up 8))
    ++ [(48, Link.up 16), (49, Link.up 16)]

/-- A die after reset: the pool count of R415 under the reset figures, f = 2.0 GHz (R411 phase 7). R47 gives its thermal row no
order at reset: ascending core number stands here (DESIGN CHOICE, log entry 68). -/
def resetDie (d : Nat) : Die :=
  { Die.zero with pcount := 28, mhz := 2000, ranking := (List.range 160).map (160 * d + ·) }

/-- A column's calibration after phase 6 of R411: valid. What it measured no rule gives; the limits of R384 stand here
(2^-13, 2^-10, 2^-28, 2^-12; DESIGN CHOICE, log entry 6). -/
def resetCalib : Calib :=
  { Calib.zero with v := true, cAdc := 0x3900_0000, cGain := 0x3A80_0000, cDrift := 0x3180_0000, cOffset := 0x3980_0000 }

/-- The SHA-256 of no bytes: the device after reset holds no image whose bytes the spec gives (R414). -/
def emptyHash : List Byte :=
  [0xE3, 0xB0, 0xC4, 0x42, 0x98, 0xFC, 0x1C, 0x14, 0x9A, 0xFB, 0xF4, 0xC8, 0x99, 0x6F, 0xB9, 0x24,
   0x27, 0xAE, 0x41, 0xE4, 0x64, 0x9B, 0x93, 0x4C, 0xA4, 0x95, 0x99, 0x1B, 0x78, 0x52, 0xB8, 0x55]

/-- Firmware after phase 8 of R411: the identity key is that of the fused secret (R414). -/
def Firmware.reset : Firmware :=
  { fwver := 1, budget := 3600, pfloor := 1760, pweight := 8, psel := 0, dbgctl := 0, boot := 1, phase := 8, image := []
    waiting := [], hostRead := [], dbgView := none, readout := .ones, floor := 0
    keyHash := (List.range 32).map Config.fusedKeyHash, imageKey := [], secret := (List.range 32).map Config.fusedSecret
    imageHash := emptyHash, idSecret := (identity ((List.range 32).map Config.fusedSecret)).1
    idPublic := (identity ((List.range 32).map Config.fusedSecret)).2, mgmtQueue := 0
    pages := Vector.replicate 2 CmdPage.zero, frozen := false, frozenHard := false, pinLow := false, scan := [] }

/-- The device right after reset, all phases of R411 done: no partition exists, every memory is zero, the keystone
sequence is 0. -/
def State.reset : State :=
  { threads := [], cores := [], courses := [], dies := (List.range 8).map fun d => (d, resetDie d)
    parts := [], groups := [], launches := [], teams := [], chans := [], barriers := [], colls := [], collSeq := [], suspended := []
    seqs := [], mem := [], badSectors := [], badWords := [], corrSectors := [], badSpad := []
    corrWords := [], corrSpad := [], badL1 := [], badL1i := [], badTlb := [], caches := ⟨[], [], [], 0⟩, flights := [], keystone := 0
    vgroups := [], vcols := (List.range 128).map fun c => (c, resetCalib), vdies := []
    links := resetLinks, fw := Firmware.reset
    cur := 0, plan := [], agenda := [], turn := 0, fresh := 0, writes := 0, hist := []
    nextArr := 0, nextOrder := 0, nextLaunch := 0 }

end Sys2Proof.Machine
end

