-- ==== Sys2Proof/Machine/Tbl.lean ====
section
/-! DEFINITION. Sparse tables: reading, writing, and the canonical form (keys strictly rising, no entry equal to the
default), so that equal tables are equal data. -/

namespace Sys2Proof.Machine

/-- The entry at k, or the default d. -/
def Tbl.get {α : Type} (d : α) : Tbl α → Nat → α
  | [], _ => d
  | (j, x) :: t, k => if j = k then x else Tbl.get d t k

/-- The table without any entry at k. -/
def Tbl.erase {α : Type} : Tbl α → Nat → Tbl α
  | [], _ => []
  | (j, x) :: t, k => if j = k then Tbl.erase t k else (j, x) :: Tbl.erase t k

/-- The table with v put at k, whatever v is. -/
def Tbl.put {α : Type} : Tbl α → Nat → α → Tbl α
  | [], k, v => [(k, v)]
  | (j, x) :: t, k, v =>
    if j = k then (k, v) :: t else if k < j then (k, v) :: (j, x) :: t else (j, x) :: Tbl.put t k v

/-- The table with v written at k: writing the default removes the entry. -/
def Tbl.set {α : Type} [DecidableEq α] (d : α) (t : Tbl α) (k : Nat) (v : α) : Tbl α :=
  if v = d then Tbl.erase t k else Tbl.put t k v

/-- Every key of the table is above k, and the keys rise strictly. -/
def Tbl.above {α : Type} : Nat → Tbl α → Bool
  | _, [] => true
  | k, (j, _) :: t => k < j && Tbl.above j t

/-- The canonical form. -/
def Tbl.wf {α : Type} [DecidableEq α] (d : α) : Tbl α → Bool
  | [] => true
  | (j, x) :: t => Tbl.above j t && x != d && Tbl.wf d t

/-- n bytes from address a, in ascending order; an unlisted byte reads as 0 (DESIGN CHOICE, log entry 1). -/
def Mem.read (m : Tbl Byte) (a : Nat) : Nat → List Byte
  | 0 => []
  | n + 1 => Tbl.get 0 m a :: Mem.read m (a + 1) n

/-- The memory with the bytes written from address a on. -/
def Mem.write (m : Tbl Byte) (a : Nat) : List Byte → Tbl Byte
  | [] => m
  | b :: bs => Mem.write (Tbl.set 0 m a b) (a + 1) bs

/-- The canonical form of a memory. -/
def Memory.wf (m : Tbl Byte) : Bool := Tbl.wf 0 m

end Sys2Proof.Machine
end

