-- ==== Sys2Proof/Machine/Access.lean ====
section
/-! DEFINITION. Reading and writing the parts of the state, and the fields of status (R34). Every other file reaches a
thread, a core, a course or a table entry through these. -/

namespace Sys2Proof.Machine

/-! ## Parts of the state -/

def State.ctx (s : State) (thr : Nat) : Ctx := Tbl.get Ctx.blank s.threads thr
def State.setCtx (s : State) (thr : Nat) (c : Ctx) : State := { s with threads := Tbl.set Ctx.blank s.threads thr c }
def State.modCtx (s : State) (thr : Nat) (f : Ctx → Ctx) : State := s.setCtx thr (f (s.ctx thr))

/-- The thread whose step this is. -/
def State.me (s : State) : Ctx := s.ctx s.cur
def State.modMe (s : State) (f : Ctx → Ctx) : State := s.modCtx s.cur f

def State.core (s : State) (k : Nat) : Core := Tbl.get Core.zero s.cores k
def State.setCore (s : State) (k : Nat) (c : Core) : State := { s with cores := Tbl.set Core.zero s.cores k c }
def State.modCore (s : State) (k : Nat) (f : Core → Core) : State := s.setCore k (f (s.core k))
def State.modTm (s : State) (k : Nat) (f : TeamMem → TeamMem) : State := s.modCore k fun c => { c with tm := f c.tm }

def State.course (s : State) (k : Nat) : Course := Tbl.get Course.zero s.courses k
def State.setCourse (s : State) (k : Nat) (c : Course) : State :=
  { s with courses := Tbl.set Course.zero s.courses k c }
def State.modCourse (s : State) (k : Nat) (f : Course → Course) : State := s.setCourse k (f (s.course k))

def State.die (s : State) (k : Nat) : Die := Tbl.get Die.zero s.dies k
def State.modDie (s : State) (k : Nat) (f : Die → Die) : State :=
  { s with dies := Tbl.set Die.zero s.dies k (f (s.die k)) }

def State.part (s : State) (k : Nat) : Part := Tbl.get Part.zero s.parts k
def State.modPart (s : State) (k : Nat) (f : Part → Part) : State :=
  { s with parts := Tbl.set Part.zero s.parts k (f (s.part k)) }

def State.group (s : State) (k : Nat) : Group := Tbl.get Group.zero s.groups k
def State.setGroup (s : State) (k : Nat) (g : Group) : State := { s with groups := Tbl.set Group.zero s.groups k g }

def State.launch (s : State) (k : Nat) : Launch := Tbl.get Launch.zero s.launches k
def State.modLaunch (s : State) (k : Nat) (f : Launch → Launch) : State :=
  { s with launches := Tbl.set Launch.zero s.launches k (f (s.launch k)) }

/-- The key of team t of launch l. -/
def teamKey (l t : Nat) : Nat := l * 65536 + t

def State.teamOf (s : State) (l t : Nat) : Team := Tbl.get Team.zero s.teams (teamKey l t)
def State.modTeam (s : State) (l t : Nat) (f : Team → Team) : State :=
  { s with teams := Tbl.set Team.zero s.teams (teamKey l t) (f (s.teamOf l t)) }

/-- The key of the receive queue of a thread (R248). -/
def chanKey (i : Ident) : Nat := teamKey i.launch i.team * 4294967296 + i.thr

def State.chan (s : State) (k : Nat) : Chan := Tbl.get Chan.zero s.chans k
def State.modChan (s : State) (k : Nat) (f : Chan → Chan) : State :=
  { s with chans := Tbl.set Chan.zero s.chans k (f (s.chan k)) }

def State.slot (s : State) (course k : Nat) : Slot := Tbl.get Slot.zero (s.course course).slots k
def State.modSlot (s : State) (course k : Nat) (f : Slot → Slot) : State :=
  s.modCourse course fun c => { c with slots := Tbl.set Slot.zero c.slots k (f (Tbl.get Slot.zero c.slots k)) }

def State.vgroup (s : State) (k : Nat) : VGroup := Tbl.get VGroup.zero s.vgroups k
def State.modVGroup (s : State) (k : Nat) (f : VGroup → VGroup) : State :=
  { s with vgroups := Tbl.set VGroup.zero s.vgroups k (f (s.vgroup k)) }
def State.calib (s : State) (col : Nat) : Calib := Tbl.get Calib.zero s.vcols col
def State.modCalib (s : State) (col : Nat) (f : Calib → Calib) : State :=
  { s with vcols := Tbl.set Calib.zero s.vcols col (f (s.calib col)) }
def State.vdie (s : State) (k : Nat) : VDie := Tbl.get VDie.zero s.vdies k
def State.modVDie (s : State) (k : Nat) (f : VDie → VDie) : State :=
  { s with vdies := Tbl.set VDie.zero s.vdies k (f (s.vdie k)) }

def State.seqRec (s : State) (pa : Nat) : SeqRec := Tbl.get SeqRec.zero s.seqs pa
def State.setSeq (s : State) (pa : Nat) (r : SeqRec) : State := { s with seqs := Tbl.set SeqRec.zero s.seqs pa r }

def State.barrier (s : State) (k : Nat) : Barrier := Tbl.get Barrier.zero s.barriers k
def State.setBarrier (s : State) (k : Nat) (b : Barrier) : State :=
  { s with barriers := Tbl.set Barrier.zero s.barriers k b }

def State.linkAt (s : State) (k : Nat) : Link := Tbl.get Link.zero s.links k
def State.modLink (s : State) (k : Nat) (f : Link → Link) : State :=
  { s with links := Tbl.set Link.zero s.links k (f (s.linkAt k)) }

/-- Makes an event due. -/
def State.post (s : State) (d : Due) : State := { s with agenda := s.agenda ++ [d] }

/-- Takes the next free value: the number to apply a constant of Config to. -/
def State.takeFresh (s : State) : Nat × State := (s.fresh, { s with fresh := s.fresh + 1 })

/-! ## status (R34) -/

def stPl (st : Word32) : BitVec 2 := bits st 0 2
def stDet (st : Word32) : Bool := st.getLsbD 2
def stIh (st : Word32) : Bool := st.getLsbD 3
def stLd (st : Word32) : BitVec 2 := bits st 4 2
def stThr (st : Word32) : BitVec 4 := bits st 6 4
def stCz (st : Word32) : Bool := st.getLsbD 10
def stPrio (st : Word32) : BitVec 2 := bits st 11 2
def stPart (st : Word32) : BitVec 8 := bits st 16 8

def setPl (st : Word32) (v : BitVec 2) : Word32 := setBits st 0 v
def setIh (st : Word32) (v : Bool) : Word32 := setBits st 3 (ofBool v 1)
def setLd (st : Word32) (v : BitVec 2) : Word32 := setBits st 4 v
def setSlot (st : Word32) (slot : Nat) (cz : Bool) : Word32 :=
  setBits (setBits st 6 (BitVec.ofNat 4 slot)) 10 (ofBool cz 1)
def setPrio (st : Word32) (v : BitVec 2) : Word32 := setBits st 11 v
def setPart (st : Word32) (v : BitVec 8) : Word32 := setBits st 16 v

/-- A status word for a new thread (R34): level user, launch mode, slot, priority, partition. -/
def mkStatus (det : Bool) (slot : Nat) (cz : Bool) (prio : BitVec 2) (part : Nat) : Word32 :=
  setPart (setPrio (setSlot (setBits 0 2 (ofBool det 1)) slot cz) prio) (BitVec.ofNat 8 part)

/-- A tile handle is bound, or an attached operation is outstanding (R34). -/
def Ctx.pinned (c : Ctx) : Bool :=
  c.t.any Option.isSome || (match c.wait with
    | .attached _ _ => true
    | _ => false)

/-- status as anything reads it: the pin bit is a view of the handles and the attached operation. -/
def Ctx.statusView (c : Ctx) : Word32 := setBits c.status 13 (ofBool c.pinned 1)

/-- The partition of a thread. -/
def Ctx.part (c : Ctx) : Nat := (stPart c.status).toNat

/-- The partition of the running thread. -/
def State.myPart (s : State) : Part := s.part s.me.part

/-- A logical core belongs to a partition (R12). -/
def Part.hasCore (p : Part) (core : Nat) : Bool := p.courses.contains (courseOfCore core)

/-- The logical cores of a partition, ascending (R340). -/
def Part.cores (p : Part) : List Nat :=
  ((List.range 160).filter p.courses.contains).flatMap fun k => (List.range 8).map (8 * k + ·)

/-- A granule is owned by the partition (R347). -/
def inRanges (rs : List (Nat × Nat)) (g : Nat) : Bool := rs.any fun r => r.1 ≤ g && g < r.1 + r.2

/-- Every granule from g to the end e is in the ranges: each range is used at most once, so `fuel` is their number. -/
def coversTo (rs : List (Nat × Nat)) (e : Nat) : Nat → Nat → Bool
  | _, 0 => false
  | g, fuel + 1 =>
    if e ≤ g then true
    else match rs.find? fun r => r.1 ≤ g && g < r.1 + r.2 with
      | some r => coversTo rs e (r.1 + r.2) fuel
      | none => false

/-- n granules from g on are all owned (R347 step 5). -/
def Part.ownsRange (p : Part) (g n : Nat) : Bool := coversTo p.owned (g + n) g (p.owned.length + 1)

/-- The contexts of a core. -/
def slotsOf (core : Nat) : List Nat := (List.range 16).map (16 * core + ·)

/-- The threads of a course, ascending. -/
def threadsOf (course : Nat) : List Nat := (List.range 128).map (128 * course + ·)

end Sys2Proof.Machine
end

