-- ==== Sys2Proof/Machine/Flits.lean ====
section
/-! DEFINITION. Link ends, the paths of traffic between dies, flits and their replay buffers (R389-R392, R394, R400, R434). -/

namespace Sys2Proof.Machine

/-! ## Link ends (R389) -/

/-- The far die of module m of die d. -/
def moduleFar (d m : Nat) : Nat :=
  match m with
  | 0 => d + 1
  | 1 => d - 1
  | _ => if d < 4 then d + 4 else d - 4

/-- The number of a link end in `State.links`. -/
def linkNo : LinkId → Nat
  | .module die m => 4 * die + m
  | .pier die p => 32 + 2 * die + p
  | .ebnan port => 48 + port

/-- The link end at the far side of a module; a pier or Ebnan port has none in the device. -/
def farEnd (k : Nat) : Option Nat :=
  if 32 ≤ k then none
  else some (match k % 4 with
    | 0 => 4 * (k / 4 + 1) + 1
    | 1 => 4 * (k / 4 - 1)
    | m => 4 * moduleFar (k / 4) m + m)

def linkId (k : Nat) : LinkId :=
  if k < 32 then .module (k / 4) (k % 4) else if k < 48 then .pier ((k - 32) / 2) (k % 2) else .ebnan (k - 48)

/-- The ends of the link that an end belongs to. -/
def bothEnds (k : Nat) : List Nat := k :: (farEnd k).toList

/-- The lanes of an end at full width. -/
def fullWidth (k : Nat) : Nat := if k < 32 then 64 else if k < 48 then 8 else 16

/-! ## Paths (R390, R394) -/

/-- The link ends that send a message on its way: along the row to the destination's column, then across by module `vert`. -/
def pathTo (src dst vert : Nat) : List Nat :=
  let east := (List.range (dst % 4 - src % 4)).map fun i => 4 * (src + i)
  let west := (List.range (src % 4 - dst % 4)).map fun i => 4 * (src - i) + 1
  east ++ west ++ (if src / 4 = dst / 4 then [] else [4 * (src / 4 * 4 + dst % 4) + vert])

/-- The module that crosses vertically for a line address: by bit 0 of its line index (R340, R390). -/
def vertOf (pa : Nat) : Nat := 2 + lineNo pa % 2

/-- The link ends that carry what a module that is down would: for modules 2 and 3 the other of the pair; else across to the other
row, along it, and back. -/
def detourOf (k vert : Nat) : List Nat :=
  let d := k / 4
  match k % 4 with
  | 2 => [k + 1]
  | 3 => [k - 1]
  | m => [4 * d + vert, 4 * moduleFar d 2 + m, 4 * moduleFar (moduleFar d m) 2 + vert]

/-! ## Sending (R392) -/

/-- A number lies before another in the modulo-256 order of at most 128 unacknowledged flits. -/
def seqBefore (a b : BitVec 8) : Bool := 0 < (b - a).toNat && (b - a).toNat ≤ 128

/-- The number that a sender's next new flit has (R434). -/
def Link.nextSeq (l : Link) : Nat := l.txflits.toNat % 256

/-- The sender learns that everything before `n` is delivered: of what it holds, that many of the oldest flits go. What names a
flit that it holds no more says nothing new. -/
def Link.ackTo (l : Link) (n : BitVec 8) : Link :=
  let known := (n + BitVec.ofNat 8 l.buf.length - BitVec.ofNat 8 l.nextSeq).toNat
  if known ≤ l.buf.length then { l with buf := l.buf.drop known, acked := n } else l

/-- The flits from number n on that an end holds. -/
def Link.heldFrom (l : Link) (n : BitVec 8) : List Flit := (l.ackTo n).buf

/-- The flits that are on their way to an end: those that have yet to come, and those that wait there while it trains. -/
def State.onTheWay (s : State) (k : Nat) : Nat := (s.agenda.filter (Due.isFlitTo (linkId k))).length + (s.linkAt k).late.length

/-- A new flit leaves an end: it enters the replay buffer, and carries the end's acknowledgement with it. At a port to the outside
one will come back, which acknowledges it; what answers the host waits for the next (DESIGN CHOICE, log entry 47). -/
def State.sendFlit (s : State) (k : Nat) (ms : List Msg) : State :=
  let l := s.linkAt k
  let seq := BitVec.ofNat 8 l.nextSeq
  let s1 := s.modLink k fun l => { l with txflits := l.txflits + 1, buf := l.buf ++ [⟨seq, l.rxSeq, ms⟩] }
  match farEnd k with
  | some f => s1.post (.flit (linkId f) seq)
  | none => if ms.all fun m => m.kind == .reply then s1
    else s1.post (.flit (linkId k) (l.rxSeq + BitVec.ofNat 8 (s.onTheWay k)))

def Carry.isRequest : Carry → Bool
  | .request => true
  | _ => false
def Carry.isOther : Carry → Bool
  | .other => true
  | _ => false

/-- A flit of the opposite direction is due from end k: its replay buffer has room, and a message waits there, or a request that it
has delivered has yet to be answered, over the same links (R392, R434). -/
def State.flitDue (s : State) (k : Nat) : Bool :=
  decide ((s.linkAt k).buf.length < 128) && (!(s.linkAt k).queue.isEmpty || (match farEnd k with
    | some f => (s.linkAt f).buf.any fun x => seqBefore x.seq (s.linkAt k).rxSeq && x.msgs.any fun m => m.kind.isRequest
    | none => false))

/-- An idle flit acknowledges what end k has sent, when no other flit of the opposite direction is due, nor on its way to k, which
an idle flit does not overtake (R434). -/
def State.idleAck (s : State) (k : Nat) : State :=
  match farEnd k with
  | some f =>
    if s.flitDue f || (s.linkAt f).state != 1 || s.onTheWay k != 0 then s else s.modLink k fun l => l.ackTo (s.linkAt f).rxSeq
  | none => s

/-- The NAK that end k owes rides in its next flit; when none is due, and what it has sent has come, in an idle flit (R434). -/
def State.idleNak (s : State) (k : Nat) : State :=
  match farEnd k, (s.linkAt k).nakAt with
  | some f, some _ =>
    let nak : Due := .nak (linkId f) (s.linkAt k).rxSeq
    if s.flitDue k || (s.linkAt k).state != 1 || s.onTheWay f != 0 || (s.linkAt f).nakHeld.isSome || s.agenda.contains nak then s
    else s.post nak
  | _, _ => s

/-- What of the messages that wait goes into the next flit: up to three headers with one line or sector group (R391); a request or a
reply goes alone (R434). -/
def packing : List Msg → Nat
  | [] => 0
  | m :: ms =>
    let more := if m.kind.isOther then ms.takeWhile fun x => x.kind.isOther && (m.data = 0 || x.data = 0) else []
    1 + match more with
      | x :: y :: _ => if 0 < x.data && 0 < y.data then 1 else 2
      | xs => xs.length

/-- What waits at an end is sent while it is up and its replay buffer has room. `fuel` bounds the messages that wait. -/
def State.pump : Nat → State → Nat → State
  | 0, s, _ => s
  | fuel + 1, s, k =>
    let s := s.idleAck k
    let l := s.linkAt k
    if l.queue.isEmpty || l.state ≠ 1 || 128 ≤ l.buf.length then s
    else
      let n := packing l.queue
      State.pump fuel ((s.modLink k fun l => { l with queue := l.queue.drop n }).sendFlit k (l.queue.take n)) k

/-- A path whose first end is up: the detour of an end that is down, and of what that detour begins with in turn, at most four
times (DESIGN CHOICE, log entry 47). -/
def State.route (s : State) (vert : Nat) : Nat → List Nat → List Nat
  | 0, path => path
  | _ + 1, [] => []
  | n + 1, k :: rest => if (s.linkAt k).detour then s.route vert n (detourOf k vert ++ rest) else k :: rest

/-- A message goes to the next end of its path, or over the detour of an end that is down. -/
def State.sendOn (s : State) (m : Msg) : State :=
  match s.route m.vert 4 m.path with
  | [] => s
  | j :: more =>
    let s := s.modLink j fun l => { l with queue := l.queue ++ [{ m with path := more }] }
    s.pump ((s.linkAt j).queue.length) j

/-- The line address of an access in memory. -/
def Loc.pa : Loc → Nat
  | .spad _ _ => 0
  | .phys pa => pa

/-- A message that brings no thread its answer goes from a die to another: an update, a merge, a line on its way. What it brings
takes effect as its sender's event says, whatever the links do (R395; DESIGN CHOICE, log entry 47). -/
def State.cargo (s : State) (src dst vert data : Nat) : State :=
  if src = dst then s else s.sendOn ⟨.other, 0, ⟨0, 0, 0⟩, pathTo src dst vert, [], vert, data⟩

/-- The ends that a message between two dies passes, with the detours of those that are down. -/
def State.endsOn (s : State) (src dst vert : Nat) : List Nat :=
  (pathTo src dst vert).flatMap fun k => if (s.linkAt k).detour then detourOf k vert else [k]

/-- A flit between two dies would wait in a replay buffer: a link on its way trains, or messages wait there (R393). -/
def State.linksWait (s : State) (src dst vert : Nat) : Bool :=
  src != dst && (s.endsOn src dst vert).any fun k => (s.linkAt k).state == 2 || ((s.linkAt k).state == 1 && !(s.linkAt k).queue.isEmpty)

/-- The ends that send what goes back over the links of a path (R434). -/
def backPath (path : List Nat) : List Nat := (path.filterMap farEnd).reverse

/-- A die reads a line at a home: the request goes there, and the line comes back. -/
def State.readLine (s : State) (die home pa : Nat) : State :=
  if die = home then s
  else (s.cargo die home (vertOf pa) 0).sendOn
    ⟨.other, 0, ⟨0, 0, 0⟩, backPath (pathTo die home (vertOf pa)), [], vertOf pa, 192⟩

/-- The module that what goes to a place crosses vertically by: module 2 for a scratchpad, which has no line address (R390). -/
def Loc.vert : Loc → Nat
  | .spad _ _ => 2
  | .phys pa => vertOf pa

/-- An access of a thread has its home on another die. -/
def crossesDie (thr home : Nat) : Bool := dieOfCore (coreOf thr) != dieOfCore home

/-- The links that a thread's request takes to its home. -/
def requestPath (thr home : Nat) (l : Loc) : List Nat := pathTo (dieOfCore (coreOf thr)) (dieOfCore home) l.vert

/-- An sc access goes from its thread's die to the keystone on die 0, and from there to its home (R147, R352). -/
def keystonePath (thr home : Nat) (l : Loc) : List Nat :=
  pathTo (dieOfCore (coreOf thr)) 0 l.vert ++ pathTo 0 (dieOfCore home) l.vert

/-- The request of a thread's load, sc store or atomic: `far`, if it goes to a home on another die; `sc`, if it goes by way of the
keystone, over the same links where that lies on the way. Its event at the home is due when it arrives; if it leaves no die, at once
(R434). That the leg to the keystone sends flits, as any message between dies, and that its number is taken as the access leaves, are
the model's choices (DESIGN CHOICE, log entry 47). -/
def State.callHome (s : State) (far sc : Bool) (thr home : Nat) (l : Loc) : State :=
  let path := if sc then keystonePath thr home l else if far then requestPath thr home l else []
  if path = [] then s.post (.reply thr)
  else s.sendOn ⟨if path = requestPath thr home l then .request else .ordered, thr, (s.ctx thr).ident, path,
    backPath (requestPath thr home l), l.vert, 0⟩

/-- An sc fence goes to the keystone and comes back, as a message with no line address (R147, R352, R390). -/
def State.toKeystone (s : State) (thr : Nat) : State :=
  (s.cargo (dieOfCore (coreOf thr)) 0 2 0).cargo 0 (dieOfCore (coreOf thr)) 2 0

/-- The reply goes back to the thread's die, over the same links the other way. -/
def State.callBack (s : State) (thr home : Nat) (l : Loc) (data : Nat) : State :=
  s.sendOn ⟨.reply, thr, (s.ctx thr).ident, backPath (requestPath thr home l), [], l.vert, data⟩

/-- A message that a flit delivered: it goes on, or the event of the thread that it is for is due. The request of a thread that has
ended meanwhile is answered all the same, and the answer lost. -/
def State.deliverMsg (s : State) (m : Msg) : State :=
  match m.path with
  | _ :: _ => s.sendOn m
  | [] =>
    if m.kind.isOther then s
    else if (s.ctx m.thr).ident = m.who then s.post (.reply m.thr)
    else s.sendOn ⟨.other, 0, ⟨0, 0, 0⟩, m.back, [], m.vert, 0⟩

end Sys2Proof.Machine
end

