-- ==== Sys2Proof/Machine/Cache.lean ====
section
/-! DEFINITION. The L1 data caches and the L2 slices (R28, R144, R145, R338, R339, R341, R342, R401): which blocks and lines
they hold. They change no value (R144), but an uncorrectable error lies where its line lies (R355). -/

namespace Sys2Proof.Machine

/-! ## Physical ranges (R336) -/

def inDram (pa : Nat) : Bool := pa < 0x200_0000_0000
def inHost (pa : Nat) : Bool := 0x8000_0000_0000 ≤ pa && pa < 0xC000_0000_0000
def hasMemory (pa : Nat) : Bool := inDram pa || inHost pa

/-! ## The class of an access (R28, R144) -/

/-- The line-address hash of a virtual address. -/
def lineHash (ea : BitVec 57) : Nat :=
  let l := BitVec.ofNat 50 (lineNo ea.toNat)
  (bits l 0 10 ^^^ bits l 10 10 ^^^ bits l 20 10 ^^^ bits l 30 10 ^^^ bits l 40 10 : BitVec 10).toNat

/-- The class by the thresholds of a policy register. -/
def classOf (q : Word32) (h : Nat) : EvClass :=
  let t1 := (bits q 12 10 : BitVec 10).toNat
  let t2 := (bits q 22 10 : BitVec 10).toNat
  if h < t1 then .keep else if h < (if t2 = 0 then 1024 else t2) then .normal else .stream

/-! ## L2 slices (R339) -/

/-- The number of a block: three to a line (R338). -/
def blockNo (pa : Nat) : Nat := 3 * lineNo pa + pa % 65536 % 192 / 64

/-- The least recently used line of a class, of lines that stand the most recently used first. -/
def lruOf (c : EvClass) (ways : List L2Line) : Option Nat := (ways.reverse.find? fun x => x.cls == c).map (·.line)

/-- Which lines of a set, without the one filled or touched, leave it for one of class c: for a keep line where 12 stand, the
least recently used keep line, and with it a stream line, if there is one; otherwise, of a full set, the victim by class (R339,
R356; DESIGN CHOICE, log entry 4). -/
def victims (c : EvClass) (ways : List L2Line) : List Nat :=
  if c == .keep && 12 ≤ (ways.filter fun x => x.cls == .keep).length then
    (lruOf .keep ways).toList ++ (lruOf .stream ways).toList
  else if 16 ≤ ways.length then ((lruOf .stream ways).or ((lruOf .normal ways).or (lruOf .keep ways))).toList
  else []

/-- Every L1 loses the blocks that p names, by core and block. -/
def dropBlocks (p : Nat → Nat → Bool) (l1 : Tbl (List Nat)) : Tbl (List Nat) :=
  l1.filterMap fun k =>
    let bs := k.2.filter fun b => !p k.1 b
    if bs.isEmpty then none else some (k.1, bs)

def Caches.slice (c : Caches) (home : Nat) : List L2Line := Tbl.get [] c.l2 home
def Caches.find (c : Caches) (home line : Nat) : Option L2Line := (c.slice home).find? fun x => x.line == line
/-- Some slice holds the line. -/
def Caches.holds (c : Caches) (line : Nat) : Bool := c.l2.any fun s => s.2.any fun x => x.line == line

/-- A line is filled or touched: it is the most recently used of its slice; with what is evicted for it, whose blocks the
L1s lose. -/
def Caches.put (c : Caches) (home : Nat) (x : L2Line) : Caches × List Nat :=
  let rest := (c.slice home).filter fun y => y.line != x.line
  let out := victims x.cls (rest.filter fun y => Config.l2Set y.line == Config.l2Set x.line)
  ({ c with l2 := Tbl.set [] c.l2 home (x :: rest.filter fun y => !out.contains y.line)
            l1 := if out.isEmpty then c.l1 else dropBlocks (fun _ b => out.contains (b / 3)) c.l1 }, out)

/-- Every slice writes back and drops the lines that p names (R341). -/
def Caches.drop (c : Caches) (p : L2Line → Bool) : Caches × List Nat :=
  let out := c.l2.flatMap fun s => (s.2.filter p).map (·.line)
  ({ c with l2 := c.l2.filterMap fun s =>
              let xs := s.2.filter fun x => !p x
              if xs.isEmpty then none else some (s.1, xs)
            l1 := if out.isEmpty then c.l1 else dropBlocks (fun _ b => out.contains (b / 3)) c.l1 }, out)

/-! ## L1 data caches (R338) -/

/-- An L1 takes a block. -/
def Caches.fillBlock (c : Caches) (core block : Nat) : Caches :=
  let bs := Tbl.get [] c.l1 core
  if bs.contains block then c
  else
    let ways := bs.filter fun b => Config.l1Set b == Config.l1Set block
    if ways.length < 8 then { c with l1 := Tbl.set [] c.l1 core (block :: bs) }
    else
      let out := ways.getD (Config.l1Victim c.fills).toNat 0
      { c with l1 := Tbl.set [] c.l1 core (block :: bs.filter fun b => b != out), fills := c.fills + 1 }

/-- An L1 instruction cache takes a block; of 512 one goes, a free choice (R5; DESIGN CHOICE, log entry 20). -/
def Caches.fetchBlock (c : Caches) (core block : Nat) : Caches :=
  let bs := Tbl.get [] c.l1i core
  if bs.contains block then c
  else if bs.length < 512 then { c with l1i := Tbl.set [] c.l1i core (block :: bs) }
  else
    let out := bs.getD (Config.l1iVictim c.fills).toNat 0
    { c with l1i := Tbl.set [] c.l1i core (block :: bs.filter fun b => b != out), fills := c.fills + 1 }

/-! ## Reads and writes -/

/-- The sectors of a line that a slice fills (R401). -/
def newSecs (pa : Nat) : List SecState := List.replicate 4 (if inHost pa then .invalid else .owned)

/-- Which of its line's sectors an address lies in. -/
def secOf (pa : Nat) : Nat := pa % 65536 % 192 / 48

/-- A read takes an invalid sector shared, a write takes it owned. -/
def takeSec (write : Bool) (pa : Nat) (secs : List SecState) : List SecState :=
  if write then secs.set (secOf pa) .owned
  else if secs.getD (secOf pa) .owned = .invalid then secs.set (secOf pa) .shared else secs

/-- A line met by an access: its class, group and page are noted. -/
def L2Line.met (x : L2Line) (v : Via) : L2Line :=
  { x with cls := v.cls
           grps := v.grp.toList.filter (fun g => !x.grps.contains g) ++ x.grps
           pages := if x.pages.contains v.page then x.pages else v.page :: x.pages }

/-- A line that a slice fills for an address. -/
def L2Line.filled (v : Via) (pa : Nat) : L2Line := ⟨lineNo pa, v.cls, false, newSecs pa, [], [], []⟩

/-- A read at an address: a line in its home slice is read there, another one is filled unless the access allocates in no
cache; the reader's L1 takes the block if the access allocates there (R145, R338, R339, R401). -/
def Caches.read (c : Caches) (v : Via) (pa : Nat) : Caches × List Nat :=
  let old := c.find v.home (lineNo pa)
  if old.isNone && v.lvl == 2 then (c, [])
  else
    let x := old.getD (.filled v pa)
    let r := c.put v.home { x.met v with secs := takeSec false pa x.secs }
    match v.core with
    | some k => if v.lvl = 0 then (r.1.fillBlock k (blockNo pa), r.2) else r
    | none => r

/-- The first address of a line, and its bytes: the last of a granule has 64. -/
def lineAt (line : Nat) : Nat := line / 342 * 65536 + line % 342 * 192
def lineLen (line : Nat) : Nat := if line % 342 = 341 then 64 else 192

/-- What memory has below a line after a write at an address over bytes that were `old`: with write-back, what it had; with
write-through and write-around, the store's bytes, so that the line holds no others there (R342). -/
def L2Line.under (x : L2Line) (back : Bool) (pa : Nat) (old : List Byte) : List (Nat × Byte) :=
  let o := pa - lineAt (lineNo pa)
  if back then x.below ++ (old.zipIdx.map fun b => (o + b.2, b.1)).filter fun b => !x.below.any fun y => y.1 == b.1
  else x.below.filter fun y => y.1 < o || o + old.length ≤ y.1

/-- A write at an address: the other L1s lose the block; a line in its home slice is updated, and another one is filled by a
write that allocates there and does not write around (R145, R338, R342, R401). `now` are the bytes that it writes over. -/
def Caches.write (c : Caches) (v : Via) (pa : Nat) (now : List Byte) : Caches × List Nat :=
  let c1 := { c with l1 := dropBlocks (fun k b => b == blockNo pa && v.core != some k) c.l1 }
  let old := c.find v.home (lineNo pa)
  if old.isNone && (v.lvl == 2 || v.wp == 2) then (c1, [])
  else
    let x := old.getD (.filled v pa)
    c1.put v.home { x.met v with
      dirty := x.dirty || v.wp == 0, secs := takeSec true pa x.secs, below := x.under (v.wp == 0) pa now }

/-- An atomic at an address: it allocates as a load does, in an L1 too, whatever the write policy in the q register; the
page's own policy says whether the line is dirty (R145, R155, R342). -/
def Caches.atomic (c : Caches) (v : Via) (pa : Nat) (now : List Byte) : Caches × List Nat :=
  let r := c.write { v with wp := if (bits v.page.2.2 10 2 : BitVec 2) = 0 then 0 else 1 } pa now
  match v.core with
  | some k => if v.lvl = 0 then (r.1.fillBlock k (blockNo pa), r.2) else r
  | none => r

/-! ## The host's ports (R400, R401) -/

/-- The compute die of an Ebnan port (R400). -/
def portDie (k : Nat) : Nat := if k = 48 then 1 else 6

/-- An Ebnan port, or the other while that one is down; the port that an access to host memory takes: pa[12]. -/
def State.upPort (s : State) (k : Nat) : Nat := if (s.linkAt k).state = 3 then 97 - k else k
def State.hostPort (s : State) (pa : Nat) : Nat := s.upPort (48 + pa / 4096 % 2)

/-- A sector of host memory goes between a die and the host: over the modules between that die and the one of its port (R390,
R400), and across the port, one flit each way, the second acknowledging the first (DESIGN CHOICE, log entry 47). It waits while the
port trains, or its replay buffer is full (R392, R393). -/
def State.crossPort (s : State) (die pa : Nat) : State :=
  let k := s.hostPort pa
  if (s.linkAt k).state = 3 then s
  else
    let s := (s.readLine die (portDie k) pa).modLink k fun l =>
      { l with queue := l.queue ++ [⟨.other, 0, ⟨0, 0, 0⟩, [], [], vertOf pa, 48⟩] }
    s.pump (s.linkAt k).queue.length k

/-- The runs of n addresses from pa on that lie between edges: first address and length. -/
def spansOf (edge : Nat → Bool) (pa n : Nat) : List (Nat × Nat) :=
  let starts := pa :: ((List.range n).map (pa + ·)).filter fun a => pa < a && edge a
  starts.zipIdx.map fun x => (x.1, starts.getD (x.2 + 1) (pa + n) - x.1)

/-- A sector begins at an address; a sector or a block of an L1 does (R337, R338). -/
def sectorEdge (a : Nat) : Bool := a % 65536 % 192 % 48 == 0
def blockEdge (a : Nat) : Bool := sectorEdge a || a % 65536 % 192 % 64 == 0

/-- A line begins at an address (R337). -/
def lineEdge (a : Nat) : Bool := a % 65536 % 192 == 0

/-- A flit of the host comes in at a port, before those that the outside has yet to send, and acknowledges what the port has sent
(DESIGN CHOICE, log entry 47). -/
def State.portIn (s : State) (k : Nat) : State :=
  if (s.linkAt k).state ≠ 1 ∧ (s.linkAt k).state ≠ 2 then s
  else
    let later := fun (d : Due) => match d with
      | .flit l q => if l = linkId k then .flit l (q + 1) else d
      | d => d
    let s := s.modLink k fun l =>
      { l.ackTo (BitVec.ofNat 8 l.nextSeq) with
        rxflits := l.rxflits + 1, rxSeq := l.rxSeq + 1, late := l.late.map fun x => (x.1 + 1, x.2) }
    { s with agenda := s.agenda.map later }.pump (s.linkAt k).queue.length k

/-- A flit of a port answers the host. -/
def State.portOut (s : State) (k pa : Nat) : State :=
  let s := s.modLink k fun l => { l with queue := l.queue ++ [⟨.reply, 0, ⟨0, 0, 0⟩, [], [], vertOf pa, 48⟩] }
  s.pump (s.linkAt k).queue.length k

/-- The host reads or writes n bytes of DRAM through a port: one flit for each line, and one back for each line read; between the
port's die and the one whose DRAM it is they cross the modules (R390, R402). -/
def State.hostFlits (s : State) (k pa n : Nat) (write : Bool) : State :=
  (spansOf lineEdge pa n).foldl (fun s x =>
    let die := x.1 / 2 ^ 38 % 8
    let s := s.portIn k
    if write then s.cargo (portDie k) die (vertOf x.1) 192 else (s.readLine (portDie k) die x.1).portOut k x.1) s

/-- A doorbell, or a block of a command page, comes in at a port; one for a sill goes to its die, with no line address (R390). -/
def State.hostBell (s : State) (k : Nat) (die : Option Nat) : State :=
  match die with
  | some d => (s.portIn k).cargo (portDie k) d 2 0
  | none => s.portIn k

/-- A sector of host memory that the device holds is recalled for an access of the host: the request comes in at a port, and the
answer goes back, over the modules from the die of its home slice (R401). -/
def State.recallFlits (s : State) (pa n : Nat) : State :=
  (spansOf sectorEdge pa n).foldl (fun s x =>
    match s.caches.l2.find? fun k => k.2.any fun y => y.line == lineNo x.1 && y.secs.getD (secOf x.1) .invalid != .invalid with
    | none => s
    | some h =>
      let k := s.hostPort x.1
      ((s.portIn k).readLine (portDie k) (dieOfCore h.1) x.1).portOut k x.1) s

/-- The device, and no thread, reads or writes n bytes of host memory: the sectors cross their ports, from the dies on which these
lie (DESIGN CHOICE, log entry 47). -/
def State.hostTouch (s : State) (pa n : Nat) : State :=
  if !inHost pa then s
  else (spansOf sectorEdge pa n).foldl (fun s x => s.crossPort (portDie (s.hostPort x.1)) x.1) s

/-- An access to host memory by which a home slice takes a sector, or which no slice holds, crosses a port. -/
def State.hostTransfer (s : State) (v : Via) (pa : Nat) (write : Bool) : State :=
  if !inHost pa then s
  else
    let sec := ((s.caches.find v.home (lineNo pa)).map fun x => x.secs.getD (secOf pa) .owned).getD .invalid
    if sec = .owned ∨ (sec = .shared ∧ !write) then s else s.crossPort (dieOfCore v.home) pa

/-! ## Homes (R340) -/

/-- The home field and mode of a leaf entry (R346). -/
def lfHome (e : Word) : Nat := (bits e 48 11 : BitVec 11).toNat
def lfHmode (e : Word) : Nat := (bits e 59 2 : BitVec 2).toNat

/-- The homing set of a group, ascending, each core once (R440). -/
def Group.homingSet (g : Group) : List Nat := (List.range 1280).filter fun k => g.homing.any fun h => h.2 == k

/-- The core whose slice is the home of a line. -/
def homeOf (s : State) (p : Part) (partNo : Nat) (leaf : Word) (pa : Nat) : Nat :=
  let h := (BitVec.ofNat 48 (lineNo pa))
  let h := ((bits h 0 16 : BitVec 16) ^^^ bits h 16 16 ^^^ bits h 32 16).toNat
  let pick := fun (cs : List Nat) => cs.getD (h % cs.length) 0
  let g := s.group (p.sliceFirst + lfHome leaf % 256)
  let done := g.valid && g.part == partNo && !g.members.isEmpty && g.members.all fun t => g.homing.any fun x => x.1 == t
  if lfHmode leaf = 2 ∧ p.hasCore (lfHome leaf) then lfHome leaf
  else if lfHmode leaf = 1 ∧ done ∧ lfHome leaf % 256 < p.sliceCount then pick g.homingSet
  else pick p.cores

/-- What an access brings to the caches as it is performed: its home is the one that its line has then, so that no line comes back
to a home that it has left (R341). -/
def State.homed (s : State) (v : Via) (pa : Nat) : Via := { v with home := homeOf s (s.part v.part) v.part v.page.2.2 pa }

/-! ## In the state -/

/-- The caches change; of L1 blocks that are gone no parity error is left. -/
def State.withCaches (s : State) (c : Caches) : State :=
  { s with
    caches := c
    badL1 := if s.badL1.isEmpty then [] else s.badL1.filter fun x => (Tbl.get [] c.l1 x.1).contains x.2 }

/-- The caches change, and the errors of the lines written back go with them to DRAM (R355). -/
def State.cached (s : State) (r : Caches × List Nat) : State :=
  let gone := fun w => r.2.contains (lineNo (8 * w))
  { s.withCaches r.1 with
    corrSectors := if s.corrWords.isEmpty then s.corrSectors
      else (s.corrSectors ++ (s.corrWords.filter gone).map fun w => sectorNo (8 * w)).eraseDups
    corrWords := if s.corrWords.isEmpty then [] else s.corrWords.filter fun w => !gone w
    badSectors := if s.badWords.isEmpty then s.badSectors
      else (s.badSectors ++ (s.badWords.filter gone).map fun w => sectorNo (8 * w)).eraseDups
    badWords := if s.badWords.isEmpty then [] else s.badWords.filter fun w => !gone w }

/-- The sectors of an access cross their ports. -/
def State.hostTransfers (s : State) (v : Via) (pa n : Nat) (write : Bool) : State :=
  (spansOf sectorEdge pa n).foldl (fun s x => s.hostTransfer v x.1 write) s

/-- What an access of n bytes does to the caches, block by block and sector by sector. -/
def Caches.each (c : Caches) (f : Caches → Nat × Nat → Caches × List Nat) (pa n : Nat) : Caches × List Nat :=
  (spansOf blockEdge pa n).foldl (fun r x => ((f r.1 x).1, r.2 ++ (f r.1 x).2)) (c, [])

/-- A read, a write, an atomic of n bytes at a place, at its line's home. -/
def State.cacheRead (s : State) (v : Via) (l : Loc) (n : Nat) : State :=
  match l with
  | .phys pa => (s.hostTransfers (s.homed v pa) pa n false).cached (s.caches.each (fun c x => c.read (s.homed v pa) x.1) pa n)
  | .spad _ _ => s

def State.cacheWrite (s : State) (v : Via) (l : Loc) (n : Nat) : State :=
  match l with
  | .phys pa => (s.hostTransfers (s.homed v pa) pa n true).cached
      (s.caches.each (fun c x => c.write (s.homed v pa) x.1 (Mem.read s.mem x.1 x.2)) pa n)
  | .spad _ _ => s

def State.cacheAtomic (s : State) (v : Via) (l : Loc) (n : Nat) : State :=
  match l with
  | .phys pa => (s.hostTransfers (s.homed v pa) pa n true).cached
      (s.caches.each (fun c x => c.atomic (s.homed v pa) x.1 (Mem.read s.mem x.1 x.2)) pa n)
  | .spad _ _ => s

/-- The L1s lose their blocks of a granule (R338): 342 lines of three blocks each. -/
def State.loseBlocks (s : State) (granule : Nat) : State :=
  s.withCaches { s.caches with l1 := dropBlocks (fun _ b => b / 1026 == granule) s.caches.l1 }

/-- The slices write back and drop lines (R341). -/
def State.dropLines (s : State) (p : L2Line → Bool) : State := s.cached (s.caches.drop p)

/-- A host access to n bytes: the L1s lose the blocks that a write changes; of host memory the device's copies of the
sectors are recalled, to shared, for a read, and invalidated for a write (R401, R402). Memory then has what the lines hold of a
recalled sector, and what the host writes. -/
def State.hostAccess (s : State) (pa n : Nat) (write : Bool) : State :=
  let meets := fun (first len : Nat) => first < pa + n && pa < first + len
  let sec := fun (x : L2Line) (k : SecState × Nat) =>
    if inHost pa && meets (lineAt x.line + 48 * k.2) 48 && k.1 != .invalid then (if write then .invalid else .shared) else k.1
  s.withCaches { s.caches with
    l1 := if write then dropBlocks (fun _ b => meets (lineAt (b / 3) + 64 * (b % 3)) 64) s.caches.l1 else s.caches.l1
    l2 := s.caches.l2.map fun k => (k.1, k.2.map fun x =>
      let back := fun (o : Nat) =>
        if inHost pa then meets (lineAt x.line + 48 * (o / 48)) 48 else write && meets (lineAt x.line + o) 1
      { x with secs := x.secs.zipIdx.map (sec x), below := x.below.filter fun b => !back b.1 }) }

end Sys2Proof.Machine
end

