-- ==== Sys2Proof/Machine/Ops.lean ====
section
/-! DEFINITION. The named operations over registers, channel queues and memory; completing an instruction; ending a
thread; taking a trap and returning from one. Each acts for a thread that it is given, since events act for threads
other than `State.cur`. -/

namespace Sys2Proof.Machine

/-! ## Trap classes (R277) -/

/-- The classes of R277. -/
inductive TrapClass where
  | ill | opnd | priv | fetch | align | addr | perm | page | spad | memerr | fpe | brk | trap | wdog | loop | order
  | chan | closed | abort | thread | task | migrate | tile | shape | fmt | tag | check | token | merge | group | vault
  | asat
  deriving DecidableEq, Repr

/-- The code of a class. -/
def TrapClass.code : TrapClass → Nat
  | .ill => 1 | .opnd => 2 | .priv => 3 | .fetch => 4 | .align => 5 | .addr => 6 | .perm => 7 | .page => 8
  | .spad => 9 | .memerr => 10 | .fpe => 11 | .brk => 12 | .trap => 13 | .wdog => 14 | .loop => 15 | .order => 16
  | .chan => 17 | .closed => 18 | .abort => 19 | .thread => 20 | .task => 21 | .migrate => 22 | .tile => 23
  | .shape => 24 | .fmt => 25 | .tag => 26 | .check => 27 | .token => 28 | .merge => 29 | .group => 30 | .vault => 31
  | .asat => 32

/-- Why an instruction has no effect at step 7 of R80: it traps, or its thread parks until a condition ends. -/
inductive Stop where
  | trap (cls : TrapClass) (info addr : Word)
  /-- a read met an uncorrectable error: the unit code and its address, for merrlog; it traps MEMERR (R355) -/
  | bad (unit pa : Nat) (info addr : Word)
  /-- the translation of a global address fails: it traps PAGE or PERM (R347) -/
  | lost (cls : TrapClass) (info addr : Word)
  | park (c : ParkCond)
  deriving DecidableEq, Repr

/-- A step-7 check: trap with class, xinfo and xaddr unless the condition holds. -/
def need (ok : Bool) (cls : TrapClass) (info addr : Word := 0) : Except Stop Unit :=
  if ok then .ok () else .error (.trap cls info addr)

/-- A step-7 condition: park unless it holds. -/
def hold (ok : Bool) (c : ParkCond) : Except Stop Unit := if ok then .ok () else .error (.park c)

/-! ## Window registers (R23, R24) -/

/-- The window register that code c of slot k names: i0-i3 are the o registers of the slot before. -/
def winIndex (k : Nat) (c : BitVec 5) : Nat :=
  if c.toNat < 20 then 4 * ((k + 15) % 16) + (c.toNat - 16) else 4 * k + (c.toNat - 20)

def State.winFull (s : State) (thr : Nat) (c : BitVec 5) : Bool :=
  vget false (s.core (coreOf thr)).tm.winFull (winIndex (slotOf thr) c)
def State.winVal (s : State) (thr : Nat) (c : BitVec 5) : Word :=
  vget 0 (s.core (coreOf thr)).tm.win (winIndex (slotOf thr) c)

/-- One write taking effect. -/
def TeamMem.land (m : TeamMem) (w : WinWb) : TeamMem :=
  { m with winFull := vset m.winFull w.reg w.full
           win := match w.val with
             | some v => vset m.win w.reg v
             | none => m.win }

/-- A window register's write with its writeback cycle: it takes effect at once if that has come (R24). -/
def State.winAt (s : State) (thr : Nat) (c : BitVec 5) (v : Option Word) (full : Bool) (due : Nat) : State :=
  s.modCore (coreOf thr) fun k =>
    let w : WinWb := ⟨due, winIndex (slotOf thr) c, v, full⟩
    if due ≤ k.cycle then { k with tm := k.tm.land w } else { k with wb := k.wb ++ [w] }

/-- Puts a window register's write under way: it takes effect 8 cycles after issue (R24). -/
def State.winWrite (s : State) (thr : Nat) (c : BitVec 5) (v : Option Word) (full : Bool) : State :=
  s.winAt thr c v full ((s.core (coreOf thr)).cycle + 8)

/-- The writeback of a reply: now, but no earlier than 8 cycles after its instruction's issue (R24). -/
def State.lateDue (s : State) (thr : Nat) : Nat := max (s.core (coreOf thr)).cycle ((s.ctx thr).issuedAt + 8)

/-! ## Channel queues (R26, R248-R250) -/

/-- The queue that the thread pops. -/
def Ctx.inKey (c : Ctx) : Nat := chanKey c.ident

/-- The queue that the thread's cout is bound to. -/
def Ctx.outKey (c : Ctx) : Option Nat := c.cout.map fun b => chanKey ⟨c.ident.launch, b.1, b.2⟩

def Item.isVal : Item → Bool
  | .val _ => true
  | .mark _ => false

/-- Entries in use: values delivered, values on their way, entries reserved by a load. -/
def Chan.used (c : Chan) : Nat := (c.q.filter Item.isVal).length + (c.inFlight.filter Item.isVal).length + c.reserved

/-- The team is swapped out: it is off the cores, or its core still waits for its swap-in (R249, R294). -/
def State.teamOut (s : State) (l t : Nat) : Bool :=
  match (s.teamOf l t).state with
  | .out => true
  | .resident core => (s.core core).restoring
  | _ => false

/-- A push to the queue does not park: the reader's team is not swapped out (R249), and an entry is free. A queue that
`chclose cin` discarded takes the push, which then traps CLOSED. -/
def State.pushReady (s : State) (thr : Nat) : Bool :=
  let c := s.ctx thr
  match c.cout, c.outKey with
  | some b, some k =>
    let ch := s.chan k
    ch.closed || (!s.teamOut c.ident.launch b.1 && ch.used < 8)
  | _, _ => true

/-- Puts a push under way, on the queue bound now, with its writeback cycle. -/
def State.pushAt (s : State) (thr : Nat) (x : Item) (due : Nat) : State :=
  match (s.ctx thr).outKey with
  | none => s
  | some k =>
    (s.modChan k fun ch => { ch with inFlight := ch.inFlight ++ [x] }).modCore (coreOf thr) fun c =>
      { c with pushDue := c.pushDue ++ [(due, k)] }

/-- Puts a push under way: its writeback is 8 cycles after issue (R24). -/
def State.pushItem (s : State) (thr : Nat) (x : Item) : State := s.pushAt thr x ((s.core (coreOf thr)).cycle + 8)

/-- The thread's cout is bound no longer: its queue has no writer. -/
def State.unbindOut (s : State) (thr : Nat) : State :=
  let s := match (s.ctx thr).outKey with
    | none => s
    | some k => s.modChan k fun ch => { ch with writer := none }
  s.modCtx thr fun c => { c with cout := none }

/-- The thread's cin is bound no longer. -/
def State.unbindIn (s : State) (thr : Nat) : State :=
  (s.modChan (s.ctx thr).inKey fun ch => { ch with accepted := none }).modCtx thr fun c => { c with cin := none }

/-! ## Reading and writing the registers of R21 -/

/-- The value of a source: g0 reads 0; cin with no channel traps CHAN, and a mark traps CLOSED or ABORT (R26). -/
def State.src (s : State) (thr : Nat) (c : BitVec 5) : Except Stop Word :=
  if c = 0 then .ok 0
  else if c.toNat < 16 then .ok (vget 0 (s.ctx thr).g c.toNat)
  else if c.toNat < 24 then .ok (s.winVal thr c)
  else if (s.ctx thr).cin.isNone then .error (.trap .chan 24 0)
  else match (s.chan (s.ctx thr).inKey).q with
    | .val v :: _ => .ok v
    | .mark .endMark :: _ => .error (.trap .closed 24 0)
    | .mark .abortMark :: _ => .error (.trap .abort 24 0)
    | [] => .ok 0

/-- The value of a general register, as the device reads it for its own use. -/
def Ctx.gpr (c : Ctx) (i : Nat) : Word := if i = 0 then 0 else vget 0 c.g i

/-- What reading source c does besides: a consuming read empties at its writeback, a pop pops (R22, R24, R26). -/
def State.consumeAt (s : State) (thr : Nat) (c : BitVec 5) (due : Nat) : State :=
  if c.toNat < 16 then s
  else if c.toNat < 20 then s.winAt thr c none false due
  else if c.toNat = 24 then s.modChan (s.ctx thr).inKey fun ch => { ch with q := ch.q.drop 1 }
  else s

/-- The same at issue. -/
def State.consume1 (s : State) (thr : Nat) (c : BitVec 5) : State :=
  s.consumeAt thr c ((s.core (coreOf thr)).cycle + 8)

/-- The reads of an instruction's sources: one register named twice is read once (R122). -/
def State.consume (s : State) (thr : Nat) (cs : List (BitVec 5)) : State :=
  cs.eraseDups.foldl (fun s c => s.consume1 thr c) s

/-- The reads of an instruction that completes later, and might have trapped until then: at its completion (R80, R143;
DEDUCED, log entry 62). -/
def State.consumeLate (s : State) (thr : Nat) (cs : List (BitVec 5)) : State :=
  cs.eraseDups.foldl (fun s c => s.consumeAt thr c (s.lateDue thr)) s

/-- A general register written and set full (R22). -/
def Ctx.setG (c : Ctx) (i : Nat) (v : Word) : Ctx :=
  if i = 0 then c else { c with g := vset c.g i v, gFull := vset c.gFull i true }

/-- Writes a destination: g0 discards, an o register fills at its writeback, cout pushes. -/
def State.dest (s : State) (thr : Nat) (c : BitVec 5) (v : Word) : State :=
  if c.toNat < 16 then s.modCtx thr fun x => x.setG c.toNat v
  else if c.toNat < 24 then s.winWrite thr c (some v) true
  else s.pushItem thr (.val v)

/-- Writes the destination of an operation that replies now (R24). -/
def State.destLate (s : State) (thr : Nat) (c : BitVec 5) (v : Word) : State :=
  if c.toNat < 16 then s.modCtx thr fun x => x.setG c.toNat v
  else if c.toNat < 24 then s.winAt thr c (some v) true (s.lateDue thr)
  else s.pushAt thr (.val v) (s.lateDue thr)

/-- The destination of an operation that replies later is set empty, an o register 8 cycles after issue; cout reserves an
entry (R22, R24, R149). -/
def State.emptyDest (s : State) (thr : Nat) (c : BitVec 5) : State :=
  if c = 0 then s
  else if c.toNat < 16 then s.modCtx thr fun x => { x with gFull := vset x.gFull c.toNat false }
  else if c.toNat < 24 then s.winWrite thr c none false
  else match (s.ctx thr).outKey with
    | none => s
    | some k => (s.modCtx thr fun x => { x with coutReserved := true }).modChan k fun ch =>
        { ch with reserved := ch.reserved + 1 }

/-- Whether a destination is full before an instruction empties it. -/
def State.wasFull (s : State) (thr : Nat) (c : BitVec 5) : Bool :=
  if c = 0 then true else if c.toNat < 16 then vget true (s.ctx thr).gFull c.toNat else false

/-- Gives back the reserved entry. -/
def State.unreserve (s : State) (thr : Nat) : State :=
  match (s.ctx thr).coutReserved, (s.ctx thr).outKey with
  | true, some k => (s.modCtx thr fun x => { x with coutReserved := false }).modChan k fun ch =>
      { ch with reserved := ch.reserved - 1 }
  | _, _ => s

/-- The reply of an operation: the destination takes the value; a queue that was discarded meanwhile discards it
(R149). -/
def State.reply (s : State) (thr : Nat) (c : BitVec 5) (v : Word) : State :=
  if c.toNat < 24 then s.destLate thr c v
  else
    let gone := match (s.ctx thr).outKey with
      | some k => (s.chan k).closed
      | none => true
    if gone then s.unreserve thr else (s.unreserve thr).destLate thr c v

/-- A reply that traps: the destination has the full/empty state that it had before issue (R143). -/
def State.undoDest (s : State) (thr : Nat) (c : BitVec 5) (was : Bool) : State :=
  if c = 0 then s
  else if c.toNat < 16 then s.modCtx thr fun x => { x with gFull := vset x.gFull c.toNat was }
  else if c.toNat < 24 then s
  else s.unreserve thr

/-! ## Completing an instruction (R72, R140) -/

/-- The number of active loops. -/
def Ctx.activeLoops (c : Ctx) : Nat := (c.l.toList.filter LoopReg.act).length

/-- The step of a loop: its new index, and whether it goes on. -/
def LoopReg.next (l : LoopReg) : Word32 × Bool :=
  let v := l.index.toInt + l.step.toInt
  let vb := BitVec.ofInt 32 v
  let go := if l.step.toInt = 1 ∨ l.step.toInt = -1 then vb != l.bound
    else if 0 < l.step.toInt then decide (v < l.bound.toInt) else decide (l.bound.toInt < v)
  (vb, go)

/-- The active loops, inner first: the one with the greater top. -/
def Ctx.loopOrder (c : Ctx) : List Nat :=
  let a := vget LoopReg.zero c.l 0
  let b := vget LoopReg.zero c.l 1
  (if a.act && b.act then (if b.top.toNat < a.top.toNat then [0, 1] else [1, 0])
   else if a.act then [0] else if b.act then [1] else [])

/-- The end test of R140 at the end of an instruction that ends at address x: the context, and the next pc. -/
def endTest (x : BitVec 57) : List Nat → Ctx → Ctx × BitVec 57
  | [], c => (c, x)
  | i :: is, c =>
    let l := vget LoopReg.zero c.l i
    if x ≠ l.top + 2 * (l.span.setWidth 57) then (c, x)
    else
      let r := l.next
      let c' := { c with l := vset c.l i { l with index := r.1 } }
      if r.2 then (c', l.top)
      else endTest x is { c' with l := vset c'.l i { l with index := r.1, act := false }
                                  status := setLd c.status (stLd c.status - 1) }

/-- The length of the instruction last issued. -/
def Ctx.len (c : Ctx) : BitVec 57 := if c.irHalf then 2 else 4

/-- A completed instruction without a taken transfer: pc advances, and the loops' end test runs outside handlers
(R72, R140, R282). -/
def Ctx.advance (c : Ctx) : Ctx :=
  let x := c.pc + c.len
  if stIh c.status then { c with pc := x }
  else
    let r := endTest x c.loopOrder c
    { r.1 with pc := r.2 }

def State.advance (s : State) (thr : Nat) : State := s.modCtx thr Ctx.advance

/-- The thread goes on: it waits for nothing more, and its instruction has completed. -/
def State.resume (s : State) (thr : Nat) : State := s.modCtx thr fun c => { c.advance with wait := .ready }

/-! ## Memory -/

/-- A sector of DRAM: its first address and its length (R337). -/
def sectorSpan (x : Nat) : Nat × Nat := ((x / 1366) * 65536 + x % 1366 * 48, if x % 1366 = 1365 then 16 else 48)

/-- The physical bytes from pa on. -/
def State.physRead (s : State) (pa n : Nat) : List Byte := Mem.read s.mem pa n

/-- Writes physical memory: the halfwords changed are noted for fetches that may still see the old ones (R75), and an
error is cleared in each unit wholly overwritten (R151, R355). -/
def State.physWrite (s : State) (pa : Nat) (bs : List Byte) : State :=
  if bs.isEmpty then s
  else
    let kept := fun x => !(pa ≤ (sectorSpan x).1 && (sectorSpan x).1 + (sectorSpan x).2 ≤ pa + bs.length)
    { s with
      mem := Mem.write s.mem pa bs
      writes := s.writes + 1
      hist := s.hist ++ (List.range ((bs.length + pa % 2 + 1) / 2)).map fun i =>
        (s.writes + 1, pa / 2 * 2 + 2 * i, ofBytes 16 (Mem.read s.mem (pa / 2 * 2 + 2 * i) 2))
      badSectors := s.badSectors.filter kept
      badWords := s.badWords.filter fun w => !(pa ≤ 8 * w && 8 * w + 8 ≤ pa + bs.length)
      corrWords := s.corrWords.filter fun w => !(pa ≤ 8 * w && 8 * w + 8 ≤ pa + bs.length)
      corrSectors := s.corrSectors.filter kept }

/-- The bytes of a core's scratchpad from a on. -/
def State.spadRead (s : State) (core a n : Nat) : List Byte := Mem.read (s.core core).tm.spad a n

/-- A field of an arrival word: 32 bits at byte offset o (R37). -/
def State.awField (s : State) (core a o : Nat) : Word32 := ofBytes 32 (s.spadRead core (a + o) 4)

/-- Writes scratchpad bytes, with nothing woken. -/
def State.spadPut (s : State) (core a : Nat) (bs : List Byte) : State :=
  let kept := fun x =>
    !(x / 65536 == core && a ≤ 8 * (x % 65536) && 8 * (x % 65536) + 8 ≤ a + bs.length)
  { s.modTm core fun m => { m with spad := Mem.write m.spad a bs } with
    badSpad := s.badSpad.filter kept, corrSpad := s.corrSpad.filter kept }

/-- Wakes a thread in `await` whose word's generation has changed: the watcher bits clear, and its destination takes the
new generation (R165). The sources of the `await` are consumed now (DEDUCED, log entry 62). -/
def State.awaitWake (s : State) (thr : Nat) : State :=
  match (s.ctx thr).wait with
  | .await a g d srcs =>
    let now := s.awField (coreOf thr) a 8
    if now = g then s
    else (((s.spadPut (coreOf thr) (a + 12) [0, 0]).consumeLate thr srcs).destLate thr d (zext now)).resume thr
  | _ => s

/-- A thread that leaves its context waits in `await` no longer: its watcher bit clears (R37). -/
def State.unwatch (s : State) (thr : Nat) : State :=
  match (s.ctx thr).wait with
  | .await a _ _ _ =>
    let w : BitVec 16 := ofBytes 16 (s.spadRead (coreOf thr) (a + 12) 2)
    s.spadPut (coreOf thr) (a + 12) (toBytes 2 (w &&& ~~~((1 : BitVec 16) <<< slotOf thr)))
  | _ => s

/-- Writes scratchpad bytes. Any write that changes a generation wakes the threads that wait for it. A store over the watchers
or the reserved bits of an arrival word overwrites them, as R38 applies it wholly (DEDUCED, log entry 63). -/
def State.spadWrite (s : State) (core a : Nat) (bs : List Byte) : State :=
  if bs.isEmpty then s else (slotsOf core).foldl State.awaitWake (s.spadPut core a bs)

def State.read (s : State) (l : Loc) (n : Nat) : List Byte :=
  match l with
  | .phys pa => s.physRead pa n
  | .spad core a => s.spadRead core a n

def State.write (s : State) (l : Loc) (bs : List Byte) : State :=
  match l with
  | .phys pa => s.physWrite pa bs
  | .spad core a => s.spadWrite core a bs

/-- Fires the armed entries of a word that meet the condition of R39. -/
def fireEntries (a : Nat) (count gen : Word32) (t : Tbl WtEntry) : Tbl WtEntry :=
  t.map fun e =>
    if e.2.state = .armed ∧ e.2.word.toNat = a / 16 ∧
        ((e.2.threshold ≠ 0 ∧ e.2.threshold.toNat ≤ count.toNat) ∨ gen ≠ e.2.gen)
    then (e.1, { e.2 with state := .fired }) else e

/-- The waiting-task check of a word (R38, R39). -/
def State.checkTasks (s : State) (core a : Nat) : State :=
  (s.modTm core fun m => { m with wt := fireEntries a (s.awField core a 4) (s.awField core a 8) m.wt }).post
    (.contextClaim core)

/-- arrival(w, n) of R38 at the word at address a of a core, the loop in closed form; an amount of 0 changes no field (R164). -/
def State.arrival (s : State) (core a : Nat) (n : Word32) : State :=
  if n = 0 then s.checkTasks core a else
  let target := s.awField core a 0
  let count := s.awField core a 4 + n
  let full := target ≠ 0 ∧ target.toNat ≤ count.toNat
  let count' := if full then count % target else count
  let gen := s.awField core a 8 + (if full then count / target else 0)
  let marks := if full then [0, 0] else s.spadRead core (a + 12) 2
  -- the threads that wait see the new generation; the watcher bits clear with it
  (s.spadWrite core (a + 4) (toBytes 4 count' ++ toBytes 4 gen ++ marks)).checkTasks core a

def State.arriveAt (s : State) (l : Loc) (n : Word32) : State :=
  match l with
  | .spad core a => s.arrival core a n
  | .phys _ => s

/-! ## Posted writes (R150) and updates between dies (R351) -/

/-- Performs a posted write at its home: the write, then the arrival, in one step (R153). -/
def State.perform (s : State) (p : Posted) : State :=
  let s := (s.cacheWrite p.via p.loc p.bytes.length).write p.loc p.bytes
  match p.arrival with
  | some (l, n) => s.arriveAt l n
  | none => s

/-- The 8-byte words that a posted write touches: the place (0 for physical memory, 1 + core), and the word. -/
def wordsOf (l : Loc) (n : Nat) : List (Nat × Nat) :=
  let r := fun p a => (List.range ((a % 8 + n + 7) / 8)).map fun i => (p, a / 8 + i)
  match l with
  | .phys pa => r 0 pa
  | .spad core a => r (1 + core) a

def Posted.words (p : Posted) : List (Nat × Nat) :=
  wordsOf p.loc p.bytes.length ++ (match p.arrival with
    | some (l, _) => wordsOf l 16
    | none => [])

/-- An order with a release side. -/
def Order.releases : Order → Bool
  | .release => true
  | .acqRel => true
  | .sc => true
  | _ => false

/-- An order with an acquire side, of a load or a fence. -/
def Order.acquires : Order → Bool
  | .acquire => true
  | .acqRel => true
  | .sc => true
  | _ => false

/-- The write is strong, or a strong load of its thread has read it: it enters cause (R304, R305). -/
def Posted.strong (p : Posted) : Bool := p.order != .loose || p.joined

/-- An earlier posted write of the thread that a later one may not overtake: one word (K1), both strong (K2), the later one a
release (K4) of a scope beyond the thread (R146), or one that a load led into an acquire before the later one (K3, K5). -/
def Posted.before (a b : Posted) : Bool :=
  a.words.any b.words.contains || (a.strong && b.strong) || (b.order.releases && b.scope != .thread) || a.kept

/-- A posted write, or its arrival, touches a word of n bytes at a place. -/
def Posted.meets (p : Posted) (l : Loc) (n : Nat) : Bool := p.words.any (wordsOf l n).contains

/-- The thread's own load has read a posted write, or follows it strongly: the write is led by what follows that load (K1, K2);
a strong load that read it joins it to cause; an acquire keeps it before all that follows (K3, R304, R305). -/
def Posted.readBy (p : Posted) (l : Loc) (n : Nat) (strong acq : Bool) : Posted :=
  let met := p.meets l n
  { p with joined := p.joined || (strong && met), led := p.led || met || (strong && p.strong)
           kept := p.kept || (acq && (met || p.strong)) }

/-- An acquire fence keeps what loads before it have read before all that follows (K5 of R304). -/
def Posted.fenced (p : Posted) : Posted := { p with kept := p.kept || p.led }

/-- After one of the thread's posted writes is performed. -/
def State.afterPosted (s : State) (thr : Nat) : State :=
  let c := s.ctx thr
  let s := if c.posted.isEmpty then s else s.post (.postedWrite thr)
  if c.wait = .halting then s.post (.threadEnd thr) else s

/-- The die takes over the counters of a clock that it applied. Counters compare modulo 2^32 in a window of 2^31. -/
def clockLe (a b : Word32) : Bool := (b - a).toNat < 2147483648
def clockMax (a b : Vector Word32 8) : Vector Word32 8 := Vector.zipWith (fun x y => if clockLe x y then y else x) a b

/-- A clock covers an update: its origin's counter has reached the update's (R351). -/
def Update.coveredBy (v : Update) (clk : Vector Word32 8) : Bool := clockLe (vget 0 v.clock v.origin) (vget 0 clk v.origin)

/-- An update waits for another of the list: one that its clock covers (R351). -/
def Update.waitsFor (u v : Update) : Bool := v.coveredBy u.clock

/-- The first update that waits for no other. -/
def nextUpdate (us : List Update) : Option (Nat × Update) :=
  (us.zipIdx.find? fun x => !(us.zipIdx.any fun y => y.2 != x.2 && x.1.waitsFor y.1)).map fun x => (x.2, x.1)

/-- Two posted writes of a thread are one, whatever its later loads have noted of it. -/
def Posted.sameWrite (a b : Posted) : Bool := a.loc == b.loc && a.bytes == b.bytes && a.arrival == b.arrival

/-- A die applies the update whose turn it is: the write is performed, and its thread's list has it no more. -/
def State.applyUpdate (s : State) (die : Nat) : State :=
  match nextUpdate (s.die die).updates with
  | none => s
  | some (i, u) =>
    let s := s.modDie die fun d => { d with updates := d.updates.eraseIdx i, clock := clockMax d.clock u.clock }
    let s := s.modCtx u.thr fun c => { c with posted := c.posted.eraseP fun p => p.sent && p.sameWrite u.write }
    (s.perform u.write).afterPosted u.thr

/-- A die applies updates in their order as long as one meets a condition. -/
def State.drain (die : Nat) (more : Update → Bool) : Nat → State → State
  | 0, s => s
  | n + 1, s => if (s.die die).updates.any more then State.drain die more n (s.applyUpdate die) else s

def State.drainDie (s : State) (die : Nat) (more : Update → Bool) : State :=
  State.drain die more (s.die die).updates.length s

/-- The thread's updates under way are applied, each after those that it waits for. -/
def State.flushUpdates (s : State) (thr : Nat) : State :=
  (List.range 8).foldl (fun s d => s.drainDie d fun u => u.thr = thr) s

/-- A strong update that is no posted write (an atomic, an sc store, a merge, a publish, a push) takes effect at another die: it
carries its die's clock, and that die first applies what the clock covers (R351). -/
def State.crossDie (s : State) (from' home : Nat) : State :=
  if from' = home then s
  else
    let s := s.modDie from' fun d => { d with clock := vset d.clock from' (vget 0 d.clock from' + 1) }
    let clk := (s.die from').clock
    (s.drainDie home fun u => u.coveredBy clk).modDie home fun d => { d with clock := clockMax d.clock clk }

/-- A strong update with its message. -/
def State.crossWith (s : State) (from' home vert data : Nat) : State := (s.cargo from' home vert data).crossDie from' home

/-- Performs a posted write of a thread: to another die it goes with a message, and is a strong update if it is strong (R351,
R390). -/
def State.performFrom (s : State) (thr : Nat) (p : Posted) : State :=
  let s := s.cargo (dieOfCore (coreOf thr)) (dieOfCore p.via.home) p.loc.vert p.bytes.length
  (if p.strong then s.crossDie (dieOfCore (coreOf thr)) (dieOfCore p.via.home) else s).perform p

/-- Performs some posted writes of a thread, oldest first. -/
def State.performList (s : State) (thr : Nat) (ps : List Posted) : State := ps.foldl (fun s p => s.performFrom thr p) s

/-- Performs every posted write of a thread, oldest first. -/
def State.performAll (s : State) (thr : Nat) : State :=
  if (s.ctx thr).posted.isEmpty then s
  else
    let s := s.flushUpdates thr
    (s.performList thr (s.ctx thr).posted).modCtx thr fun c => { c with posted := [] }

/-- Which posted writes come before a later event that follows those of a kind, and which may stay behind it (R304). -/
def splitPosted (root : Posted → Bool) : List Posted → List Posted × List Posted
  | [] => ([], [])
  | p :: ps =>
    let r := splitPosted root ps
    if root p || r.1.any p.before then (p :: r.1, r.2) else (r.1, p :: r.2)

/-- Performs a thread's posted writes of a kind with what precedes them. -/
def State.performSome (s : State) (thr : Nat) (root : Posted → Bool) : State :=
  if (s.ctx thr).posted.isEmpty then s
  else
    let s := s.flushUpdates thr
    let r := splitPosted root (s.ctx thr).posted
    (s.performList thr r.1).modCtx thr fun c => { c with posted := r.2 }

/-- Performs what of a thread's posted writes precedes a strong event of it (K1-K3, K5 of R304). -/
def State.performCausal (s : State) (thr : Nat) : State := s.performSome thr fun p => p.strong || p.kept

/-- Performs what of them precedes any event that follows (K3, K5). -/
def State.performKept (s : State) (thr : Nat) : State := s.performSome thr Posted.kept

/-- The threads bound as writers of a queue, whose earlier writes come before its values (R249). -/
def State.writersOf (s : State) (k : Nat) : List Nat :=
  (s.threads.filter fun x => x.2.live && x.2.outKey == some k).map Prod.fst

/-- The thread that owns a queue. -/
def State.readersOf (s : State) (k : Nat) : List Nat :=
  (s.threads.filter fun x => x.2.live && !x.2.lent && x.2.inKey == k).map Prod.fst

/-- Before what a writer pushed arrives at a queue: the accesses that precede the push are performed (R249), and the push is a
strong update of the writer's die (R351). -/
def State.beforePush (s : State) (chan : Nat) : State :=
  let s := (s.writersOf chan).foldl State.performCausal s
  (s.writersOf chan).foldl (fun s t => (s.readersOf chan).foldl (fun s u =>
    s.crossWith (dieOfCore (coreOf t)) (dieOfCore (coreOf u)) 2 0) s) s

/-- What a thread has pushed arrives after what precedes it, though its cout is unbound before (R249). -/
def State.settlePushes (s : State) (thr : Nat) : State :=
  match (s.ctx thr).outKey with
  | some k => s.beforePush k
  | none => s

/-- What the thread itself reads at l: memory under its own posted writes (R149). -/
def overlay (l : Loc) (n : Nat) (bs : List Byte) (p : Posted) : List Byte :=
  let at' := match l, p.loc with
    | .phys a, .phys b => some (a, b)
    | .spad c a, .spad c' b => if c = c' then some (a, b) else none
    | _, _ => none
  match at' with
  | none => bs
  | some (a, b) => (List.range n).map fun i =>
      if b ≤ a + i ∧ a + i < b + p.bytes.length then p.bytes.getD (a + i - b) 0 else bs.getD i 0

def State.readOwn (s : State) (thr : Nat) (l : Loc) (n : Nat) : List Byte :=
  (s.ctx thr).posted.foldl (overlay l n) (s.read l n)

/-! ## The host's queues (R404, R405, R417) -/

/-- Appends a record to the queue whose control block is at cb, 0 for none. `mk` gets the dropped count. A record whose
place holds no memory (R336) is lost. -/
def State.queueRecord (s : State) (cb : Nat) (mk : Word32 → List Byte) : State :=
  if cb = 0 then s
  else
    let s := s.hostTouch cb 28
    let w := fun o n => ofBytesNat (s.physRead (cb + o) n)
    let (base, size, producer, consumer, dropped) := (w 0 8, w 8 4, w 16 4, w 20 4, w 24 4)
    let sizeOk := 16 ≤ size && size ≤ 65536 && 2 ^ Nat.log2 size == size
    if base % 32 ≠ 0 ∨ !sizeOk ∨ (producer + 4294967296 - consumer) % 4294967296 = size then
      (s.hostTouch (cb + 24) 4).physWrite (cb + 24) (toBytes 4 (BitVec.ofNat 32 (dropped + 1)))
    else
      let a := base + 32 * (producer % size)
      let s1 := if hasMemory a then (s.hostTouch a 32).physWrite a (mk (BitVec.ofNat 32 dropped)) else s
      (s1.hostTouch (cb + 16) 4).physWrite (cb + 16) (toBytes 4 (BitVec.ofNat 32 (producer + 1)))

/-- A record of R405. -/
def faultRecord (kind what : Nat) (who : Word32) (at' : Word) (tag dropped : Word32) : List Byte :=
  [BitVec.ofNat 8 kind, BitVec.ofNat 8 what, 0, 0] ++ toBytes 4 who ++ toBytes 8 at' ++ toBytes 4 tag ++
    toBytes 4 dropped ++ List.replicate 8 0

/-- A record in the partition's host fault queue. -/
def State.faultReport (s : State) (part kind what : Nat) (who : Word32) (at' : Word) (tag : Word32) : State :=
  s.queueRecord (s.part part).faultQueue (faultRecord kind what who at' tag)

/-- A record in the management queue (R417). -/
def State.mgmtReport (s : State) (kind detail : Nat) (who : Word32) (v : Word) : State :=
  s.queueRecord s.fw.mgmtQueue fun dropped => faultRecord kind detail who v 0 dropped

/-- merrlog (R343). -/
def State.logError (s : State) (part core unit pa : Nat) : State :=
  let w := BitVec.ofNat 64 (2 ^ 63 + core % 2048 * 2 ^ 52 + unit * 2 ^ 48 + pa % 2 ^ 48)
  s.modPart part fun p => { p with merrlog := w }

/-! ## Stack segments (R241) -/

/-- The pool of a partition: its base and count. -/
def Part.poolBase (p : Part) : Nat := (p.stkpool.toNat / 65536 % 4294967296) * 65536
def Part.poolCount (p : Part) : Nat := p.stkpool.toNat / 281474976710656

/-- The lowest free segment. -/
def Part.freeSegment (p : Part) : Option Nat := (List.range p.poolCount).find? fun k => !p.segments.contains k

/-- The top of segment k. -/
def Part.segTop (p : Part) (k : Nat) : Word := BitVec.ofNat 64 (p.poolBase + 65536 * (k + 1))

/-- A context that waits for a segment takes segment k. -/
def Ctx.withSegment (c : Ctx) (k : Nat) (top : Word) : Ctx :=
  match c.wait with
  | .segment true => { (c.setG 14 top) with stolenSeg := some k, wait := .ready }
  | _ => { ((c.setG 13 top).setG 14 top) with segments := k :: c.segments, wait := .ready }

def Ctx.needsSegment (c : Ctx) : Bool :=
  match c.wait with
  | .segment _ => c.live
  | _ => false

/-- A context of the partition that waits for a segment takes the lowest free one, if there is one. -/
def State.giveSegment (s : State) (thr : Nat) : State :=
  let c := s.ctx thr
  if !c.needsSegment then s
  else if (s.part c.part).poolCount = 0 then
    s.setCtx thr (match c.wait with
      | .segment true => { c with wait := .ready }
      | _ => { ((c.setG 13 0).setG 14 0) with wait := .ready })
  else match (s.part c.part).freeSegment with
    | none => s
    | some k => (s.modPart c.part fun p => { p with segments := k :: p.segments }).setCtx thr
        (c.withSegment k ((s.part c.part).segTop k))

/-- Segments return to the pool; contexts that wait for one take them, lowest thread first. -/
def State.returnSegments (s : State) (part : Nat) (ks : List Nat) : State :=
  if ks.isEmpty then s
  else
    let s := s.modPart part fun p => { p with segments := p.segments.filter fun k => !ks.contains k }
    (s.threads.map Prod.fst).foldl State.giveSegment s

/-! ## Tile slots and tokens of a thread that ends or moves -/

/-- `trelease` of a slot (R200): at once, or when its engine returns it. -/
def State.releaseSlot (s : State) (course k : Nat) : State :=
  s.modSlot course k fun t => if t.uses = 0 then { t with bd := false, dy := false } else { t with onReturn := 1 }

/-- Every handle of the thread is released. -/
def State.releaseTiles (s : State) (thr : Nat) : State :=
  let ks := ((s.ctx thr).t.toList.filterMap id).map BitVec.toNat
  (ks.foldl (fun s k => s.releaseSlot (courseOf thr) k) s).modCtx thr fun c => { c with t := Vector.replicate 32 none }

/-- The lanes go back to the pool (R169). -/
def State.dropLanes (s : State) (thr : Nat) : State :=
  (s.modCtx thr fun c => { c with grant := 0, want := 0, claimParked := false }).post (.claimGrant (courseOf thr))

def TokState.terminal : TokState → Bool
  | .done | .faulted | .cancelled => true
  | _ => false

/-- The entry is freed: its generation advances, skipping 0 (R43). -/
def Token.freed (t : Token) : Token :=
  { Token.zero with gen := if t.gen + 1 = 0 then 1 else t.gen + 1 }

/-- A terminal entry with nothing left to wait for frees (R221, R222). -/
def Token.settle (t : Token) : Token :=
  if t.state.terminal && !t.det && !t.pend && !t.att && t.owed.isEmpty then t.freed else t

/-- Every token of the device, rewritten. -/
def State.mapTokens (s : State) (f : Token → Token) : State :=
  { s with courses := s.courses.map fun c => (c.1, { c.2 with
      tokens := (c.2.tokens.map fun t => (t.1, f t.2)).filter fun t => t.2 ≠ Token.zero }) }

/-- The owner held by the launch (R227). -/
def ownerLaunch : BitVec 15 := 0x7FFF

/-- The owner of the thread's tokens becomes another (R227); a pending message of a token that passes to the launch is
withdrawn (R224). -/
def State.rewriteOwner (s : State) (thr : Nat) (lent : Bool) (owner : BitVec 15) (own : Option Ident) : State :=
  s.mapTokens fun t =>
    if t.state ≠ .free ∧ !t.away ∧ t.owner = BitVec.ofNat 15 thr ∧ t.ownLent = lent then
      { t with owner := owner, own := own.getD t.own, ownLent := false, pend := if owner = ownerLaunch then false else t.pend }.settle
    else t

/-- A thread that has ended waits for no result word any more (R222). One that moves or is swapped out still does. -/
def State.dropOwed (s : State) (who : Ident) : State :=
  s.mapTokens fun t => if t.owed.contains who then { t with owed := t.owed.erase who }.settle else t

/-! ## The end of a thread (R135, R227, R281, R290) -/

/-- A live context belongs to a team. -/
def Ctx.ofTeam (c : Ctx) (l t : Nat) : Bool := c.live && c.ident.launch == l && c.ident.team == t

/-- Nothing of the team is left: no context anywhere, nor on its way, and its core holds no waiting task, continuation or loan (R363). A
frame suspended in `sync` is none of these: its last child resumes it on a thread of its own. -/
def State.teamGone (s : State) (l t core : Nat) : Bool :=
  let m := (s.core core).tm
  !(s.threads.any fun x => x.2.ofTeam l t) &&
  !(s.cores.any fun k => k.2.arrivals.any fun a => a.ctx.ofTeam l t) &&
  !(m.wt.any fun e => e.2.state != .free) && m.conts.isEmpty && !(m.loans.any fun x => x.2.ofTeam l t)

/-- A core gives up a team of a free launch of which nothing is left; of a deterministic launch it does so at the
launch's end (R363). -/
def State.giveUp (s : State) (core : Nat) : State :=
  match (s.core core).team with
  | none => s
  | some (l, t) =>
    if (s.launch l).det || !s.teamGone l t core then s
    else ((s.modCore core fun k => { k with team := none, preempting := false }).modTeam l t fun x =>
      { x with state := .ended }).post (.placement (s.launch l).part)

/-- The end record of a context (R238). -/
def State.setEndRec (s : State) (thr : Nat) (rec : Word) : State :=
  s.modTm (coreOf thr) fun m => { m with endRec := Tbl.set 3 m.endRec (slotOf thr) rec }

/-- The core that holds a team gives it up if nothing is left of it, wherever its last thread was. -/
def State.giveUpTeam (s : State) (l t : Nat) : State :=
  match (s.teamOf l t).state with
  | .resident core => s.giveUp core
  | _ => s

/-- What follows when a context has freed: the core's release, claims, the launch's end. -/
def State.afterEnd (s : State) (thr : Nat) (who : Ident) : State :=
  ((s.giveUpTeam who.launch who.team).post (.contextClaim (coreOf thr))).post (.launchEnd who.launch)

/-- The context frees. -/
def State.freeCtx (s : State) (thr : Nat) : State := s.setCtx thr Ctx.blank

/-- The context of a thread that leaves frees; a lent one goes back to the thread that yielded it, which may issue again from
the second cycle after on (R136; DESIGN CHOICE, log entry 64). -/
def State.vacate (s : State) (thr : Nat) : State :=
  let c := s.ctx thr
  let loan := Tbl.get Ctx.blank (s.core (coreOf thr)).tm.loans (slotOf thr)
  let s := s.modTm (coreOf thr) fun m => { m with loans := Tbl.set Ctx.blank m.loans (slotOf thr) Ctx.blank }
  if c.lent && loan.live then s.setCtx thr { loan with resumeAt := (s.core (coreOf thr)).cycle + 2 }
  else (s.freeCtx thr).afterEnd thr c.ident

/-- Counts a fatal end of the launch (R362). -/
def Launch.countFatal (l : Launch) (rec : Word) : Launch :=
  if bits rec 0 8 = 1 then
    { l with fatal := l.fatal + 1, firstClass := if l.fatal = 0 then bits rec 8 8 else l.firstClass }
  else l

/-- A thread ends with an end record: 0 `halt`, 1 + (class << 8) fatal trap, 2 killed. Its posted writes are performed
first. A lent task gives its context back to the thread that yielded it (R136). -/
def State.endThread (s : State) (thr : Nat) (rec : Word) : State :=
  let s := ((((s.performAll thr).unwatch thr).setEndRec thr rec).dropOwed (s.ctx thr).ident).unreserve thr
  let c := s.ctx thr
  let killed := rec = 2
  let zero := slotOf thr = 0 && !c.lent
  let s := if killed then s
    else s.rewriteOwner thr c.lent (if zero then ownerLaunch else BitVec.ofNat 15 (16 * coreOf thr))
      (if zero then none else some (if (s.ctx (16 * coreOf thr)).live then (s.ctx (16 * coreOf thr)).ident
        else ⟨c.ident.launch, c.ident.team, 0⟩))
  let s := ((s.releaseTiles thr).dropLanes thr).returnSegments c.part (c.segments ++ c.stolenSeg.toList)
  let s := s.modLaunch c.ident.launch fun l => l.countFatal rec
  let s := if c.lent then s else (s.settlePushes thr).pushItem thr (.mark (if killed then .abortMark else .endMark))
  let s := if c.lent then s else (s.unbindOut thr).unbindIn thr
  s.vacate thr

/-- A killed context ends with record 2, and so does the thread that lent it (R290). -/
def State.killThread (s : State) (thr : Nat) : State :=
  let s := s.endThread thr 2
  if (s.ctx thr).live then s.endThread thr 2 else s

/-! ## Taking a trap (R280) and returning from one (R286) -/

/-- The trap goes to the user handler. -/
def userHandles (c : Ctx) (p : Part) (cls : Nat) : Bool :=
  stPl c.status == 0 && !stIh c.status && p.sdeleg.getLsbD cls && c.umask.getLsbD cls && c.uvec != 0

/-- xcause (R278). -/
def causeWord (c : Ctx) (cls : Nat) (eng : Bool) : Word :=
  BitVec.ofNat 64 cls ||| (ofBool c.irHalf 64 <<< 8) ||| (ofBool eng 64 <<< 9) |||
    (zext (stPl c.status) <<< 10) ||| (ofBool (stIh c.status) 64 <<< 12)

/-- The thread enters the handler of the level: the record is filled, and status and pc change. Entry takes one slot. -/
def Ctx.enter (c : Ctx) (p : Part) (user : Bool) (cls : Nat) (info addr : Word) (epc : BitVec 57) (eng : Bool)
    (cycle : Nat) : Ctx :=
  let x : RecSet := { (if user then c.u else c.sv) with
    cause := causeWord c cls eng, info := info, addr := addr, bits := zext c.ir, epc := epc, status := c.statusView }
  { c with
    u := if user then x else c.u
    sv := if user then c.sv else x
    status := setPl (setIh c.status true) (if user then 0 else 1)
    pc := bits (if user then c.uvec else p.svec) 0 57
    wait := .ready
    resumeAt := max c.resumeAt cycle + 17
    wd := if cls = TrapClass.wdog.code then 0 else c.wd }

/-- A trap with no handler ends the thread and reports it (R281). -/
def State.fatal (s : State) (thr cls : Nat) : State :=
  let c := s.ctx thr
  (s.endThread thr (BitVec.ofNat 64 (1 + cls * 256))).faultReport c.part 1 cls (BitVec.ofNat 32 thr) (zext c.pc)
    (s.launch c.ident.launch).tag

/-- trap_entry of R280, with the resume address of R279. -/
def State.trapEntry (s : State) (thr cls : Nat) (info addr : Word) (epc : BitVec 57) (eng : Bool) : State :=
  let c := s.ctx thr
  let p := s.part c.part
  let user := userHandles c p cls
  if !user && ((stPl c.status == 1 && stIh c.status) || p.svec == 0) then s.fatal thr cls
  else s.setCtx thr (c.enter p user cls info addr epc eng (s.core (coreOf thr)).cycle)

/-- A precise trap: the thread resumes at the instruction itself. -/
def State.trapAt (s : State) (thr : Nat) (cls : TrapClass) (info addr : Word) : State :=
  s.trapEntry thr cls.code info addr (s.ctx thr).pc false

/-- `eret` after its checks (R286): status.ih and, at supervisor level, status.pl come back, status.ld counts the active
loops, and pc is xepc. -/
def Ctx.leave (c : Ctx) : Ctx :=
  let x := if stPl c.status = 0 then c.u else c.sv
  let st := setIh c.status (stIh x.status)
  let st := if stPl c.status = 1 then setPl st (if stPl x.status = 0 then 0 else 1) else st
  { c with status := setLd st (BitVec.ofNat 2 c.activeLoops), pc := x.epc }

end Sys2Proof.Machine
end

