-- ==== Sys2Proof/Machine/Walk.lean ====
section
/-! DEFINITION. Translation (R343-R348), what an access brings to the caches (R145), and memory errors (R354, R355). -/

namespace Sys2Proof.Machine

/-! ## Leaf entries (R346) -/

def lfSize (e : Word) : Nat := (bits e 2 2 : BitVec 2).toNat
def lfR (e : Word) : Bool := e.getLsbD 4
def lfW (e : Word) : Bool := e.getLsbD 5
def lfX (e : Word) : Bool := e.getLsbD 6
def lfU (e : Word) : Bool := e.getLsbD 7
def lfSh (e : Word) : Bool := e.getLsbD 15
def lfFrame (e : Word) : Nat := (bits e 16 32 : Word32).toNat * 65536

/-- Granules of a page of a size code. -/
def pageGranules (size : Nat) : Nat :=
  match size with
  | 0 => 1
  | 1 => 32
  | 2 => 1024
  | _ => 32768

/-- Steps 3 and 4 of R347 for a leaf at a level: the reason of a failure. -/
def leafBad (level : Nat) (e : Word) : Option Nat :=
  let sizeOk := match level, lfSize e with
    | 1, 3 => true
    | 2, 1 => true
    | 2, 2 => true
    | 3, 0 => true
    | _, _ => false
  let three := fun l => (bits e l 2 : BitVec 2) == 3
  if !sizeOk || (bits e 61 3 : BitVec 3) != 0 || three 8 || three 10 || lfHmode e == 3 ||
      lfFrame e / 65536 % pageGranules (lfSize e) != 0 || (lfSh e && 2 ≤ lfSize e) then some 2
  else if inDram (lfFrame e) || inHost (lfFrame e) then none
  else some 3

/-- The index of a level (R344): its shift and its number of entries. -/
def levelIndex (level : Nat) (va : Nat) : Nat :=
  match level with
  | 0 => va / 2 ^ 44 % 8192
  | 1 => va / 2 ^ 31 % 8192
  | 2 => va / 2 ^ 21 % 1024
  | _ => va / 65536 % 32

/-- The size of the table of a level, to which it is aligned. -/
def tableSize (level : Nat) : Nat :=
  match level with
  | 0 => 65536
  | 1 => 65536
  | 2 => 8192
  | _ => 256

/-- The first unit of a read that holds an uncorrectable error: its unit code and address (R343). An error of memory is met in
the L2 slice that holds its line, or else in DRAM. -/
def State.badUnit (s : State) (l : Loc) (n : Nat) : Option (Nat × Nat) :=
  match l with
  | .phys pa =>
    ((List.range n).find? fun i => s.badSectors.contains (sectorNo (pa + i)) || s.badWords.contains ((pa + i) / 8)).map
      fun i => (if s.caches.holds (lineNo (pa + i)) then 1 else 0, pa + i)
  | .spad core a =>
    ((List.range n).find? fun i => s.badSpad.contains (core * 65536 + (a + i) / 8)).map fun i => (2, a + i)

def State.read64 (s : State) (pa : Nat) : Word := ofBytes 64 (s.physRead pa 8)

/-- The ASIDs of a partition (R343). -/
def Part.asidFirst (p : Part) : Nat := p.trange.toNat % 4096
def Part.asidCount (p : Part) : Nat := p.trange.toNat / 65536 % 8192
def Part.hasAsid (p : Part) (a : Nat) : Bool := p.asidFirst ≤ a && a < p.asidFirst + p.asidCount

/-! ## Corrected errors (R354, R355) -/

/-- Corrected errors are counted in cecount. -/
def State.countErrors (s : State) (part n : Nat) : State :=
  s.modPart part fun p => { p with cecount := BitVec.ofNat 64 (min 0xFFFF_FFFF (p.cecount.toNat + n)) }

/-- Corrected errors of a read are rewritten and counted: in DRAM and L2, or a scratchpad. -/
def State.correct (s : State) (part : Nat) (l : Loc) (n : Nat) : State :=
  match l with
  | .spad core a =>
    let hit := s.corrSpad.filter fun x => x / 65536 == core && a / 8 ≤ x % 65536 && x % 65536 ≤ (a + n - 1) / 8
    if hit.isEmpty then s
    else { s with corrSpad := s.corrSpad.filter fun x => !hit.contains x }.countErrors part hit.length
  | .phys pa =>
    let secs := s.corrSectors.filter fun x => sectorNo pa ≤ x && x ≤ sectorNo (pa + n - 1)
    let words := s.corrWords.filter fun w => pa / 8 ≤ w && w ≤ (pa + n - 1) / 8
    if secs.isEmpty && words.isEmpty then s
    else { s with
        corrSectors := s.corrSectors.filter fun x => !secs.contains x
        corrWords := s.corrWords.filter fun w => !words.contains w }.countErrors part (secs.length + words.length)

/-- A read of a block of an L1 data cache whose parity fails: the block is discarded, to be fetched again from its home, and
the error is counted (R338). -/
def State.refetch (s : State) (part : Nat) (v : Via) (l : Loc) : State :=
  match v.core, l with
  | some k, .phys pa =>
    if s.badL1.contains (k, blockNo pa) then
      (s.withCaches { s.caches with l1 := dropBlocks (fun c b => c == k && b == blockNo pa) s.caches.l1 }).countErrors part 1
    else s
  | _, _ => s

/-- The same for each block of a read of n bytes. -/
def State.refetches (s : State) (part : Nat) (v : Via) (l : Loc) (n : Nat) : State :=
  match l with
  | .phys pa => (spansOf blockEdge pa n).foldl (fun s x => s.refetch part v (.phys x.1)) s
  | .spad _ _ => s

/-- A read of n bytes reaches the caches: what it corrects, and what they then hold. -/
def State.cacheLoad (s : State) (part : Nat) (v : Via) (l : Loc) (n : Nat) : State :=
  ((s.correct part l n).refetches part v l n).cacheRead v l n

/-! ## Walks (R347) -/

/-- Why a translation fails: the class, the reason of PAGE, the unit of an uncorrectable error that its walk met. -/
structure NoWay where
  cls : TrapClass
  reason : Nat
  unit : Option (Nat × Nat)

def NoWay.page (reason : Nat) : NoWay := ⟨.page, reason, none⟩

/-- Step 3 of R347 for an entry of a level. -/
def entryBad (level : Nat) (e : Word) : Bool :=
  if e.getLsbD 1 then leafBad level e == some 2
  else (bits e 2 6 : BitVec 6) != 0 || (bits e 48 16 : BitVec 16) != 0 || level == 3 ||
    (bits e 8 40 : BitVec 40).toNat * 256 % tableSize (level + 1) != 0

/-- The valid entries that a walk reads below a table, with their levels, down to a leaf; and what ends it before: an entry
with v = 0, a table outside memory, an error. The first argument counts the levels that remain. -/
def walkPath (s : State) (va : Nat) : Nat → Nat → List (Nat × Word) × Option NoWay
  | 0, _ => ([], none)
  | k + 1, table =>
    let level := 3 - k
    let pa := table + 8 * levelIndex level va
    if !hasMemory table then ([], some (.page 3))
    else match s.badUnit (.phys pa) 8 with
      | some u => ([], some ⟨.memerr, 0, some u⟩)
      | none =>
        let e := s.read64 pa
        if !e.getLsbD 0 then ([], some (.page 1))
        else if e.getLsbD 1 then ([(level, e)], none)
        else
          let r := walkPath s va k ((bits e 8 40 : BitVec 40).toNat * 256)
          ((level, e) :: r.1, r.2)

/-- Steps 3 and 4 of R347, once every entry is valid. -/
def walkEnd (rootBad : Bool) (path : List (Nat × Word)) (stop : Option NoWay) : Except NoWay Word :=
  if rootBad || path.any fun x => entryBad x.1 x.2 then .error (.page 2)
  else match stop, path.getLast? with
    | some w, _ => .error w
    | none, none => .error (.page 2)
    | none, some x => match leafBad x.1 x.2 with
      | some r => .error (.page r)
      | none => .ok x.2

/-- A page walk for an ASID of a partition (R347 steps 1-4): v of every level decides before a reserved bit of any. -/
def State.walk (s : State) (p : Part) (asid : BitVec 12) (va : Nat) : Except NoWay Word :=
  let root := p.rtab.toNat + 8 * (asid.toNat - p.asidFirst)
  if !p.hasAsid asid.toNat then .error (.page 1)
  else match s.badUnit (.phys root) 8 with
    | some u => .error ⟨.memerr, 0, some u⟩
    | none =>
      let e := s.read64 root
      let r := walkPath s va 4 ((bits e 16 32 : Word32).toNat * 65536)
      let rootBad := (bits e 1 15 : BitVec 15) != 0 || (bits e 48 16 : BitVec 16) != 0
      if !e.getLsbD 0 then .error (.page 1)
      else match r.2 with
        | some w => if w.cls = .memerr ∨ w.reason = 1 then .error w else walkEnd rootBad r.1 r.2
        | none => walkEnd rootBad r.1 none

/-- Where a page whose leaf is given begins: its first granule. -/
def pageOf (leaf : Word) (va : Nat) : Nat := va / 65536 / pageGranules (lfSize leaf) * pageGranules (lfSize leaf)

/-- What an access with policy word q brings to the caches: class, allocation and write policy are the page's where it fixes
them, or those of q (R28, R145, R346). -/
def viaOf (s : State) (core : Option Nat) (partNo : Nat) (asid : BitVec 12) (leaf : Word) (q : Word32) (va : BitVec 57)
    (pa : Nat) : Via :=
  let p := s.part partNo
  let field := fun (o : Nat) => (bits leaf o 2 : BitVec 2).toNat
  let lvl := (bits q 8 2 : BitVec 2).toNat
  let wovr := (bits q 10 2 : BitVec 2).toNat
  { core := core, home := homeOf s p partNo leaf pa
    cls := match field 13 with
      | 1 => .keep
      | 2 => .normal
      | 3 => .stream
      | _ => classOf q (lineHash va)
    lvl := if lvl = 0 then field 8 else lvl
    wp := if wovr = 0 then field 10 else wovr - 1
    grp := if lfHmode leaf = 1 then some (p.sliceFirst + lfHome leaf % 256) else none
    page := (asid.toNat, pageOf leaf va.toNat, leaf), part := partNo }

/-! ## TLBs (R348) -/

/-- The entries that a walk below a table reads, in order, up to one with an uncorrectable error. -/
def walkReads (s : State) (va : Nat) : Nat → Nat → List Nat
  | 0, _ => []
  | k + 1, table =>
    let e := table + 8 * levelIndex (3 - k) va
    if !(inDram table || inHost table) || (s.badUnit (.phys e) 8).isSome then []
    else e :: (if (s.read64 e).getLsbD 0 && !(s.read64 e).getLsbD 1 then
      walkReads s va k ((bits (s.read64 e) 8 40 : BitVec 40).toNat * 256) else [])

/-- The entries that a walk for an ASID of a partition reads. -/
def State.walkEntries (s : State) (p : Part) (asid : BitVec 12) (va : Nat) : List Nat :=
  let root := p.rtab.toNat + 8 * (asid.toNat - p.asidFirst)
  if !p.hasAsid asid.toNat then []
  else if (s.badUnit (.phys root) 8).isSome then [root]
  else root :: walkReads s va 4 ((bits (s.read64 root) 16 32 : Word32).toNat * 65536)

/-- The walkers of a core's die read the lines of page tables under mode 0 (R340), from their homes (R390), and correct what errors
they meet. -/
def State.walked (s : State) (core part : Nat) (asid : BitVec 12) (va : Nat) : State :=
  let p := s.part part
  (s.walkEntries p asid va).foldl (fun s pa =>
    let home := homeOf s p 0 0 pa
    (s.readLine (dieOfCore core) (dieOfCore home) pa).cacheLoad part ⟨none, home, .normal, 1, 0, none, (4096, 0, 0), part⟩ (.phys pa) 8) s

/-- The sill reads page tables: what errors it meets are corrected (R355). -/
def State.sillWalked (s : State) (part : Nat) (asid : BitVec 12) (va : Nat) : State :=
  (s.walkEntries (s.part part) asid va).foldl (fun s pa => s.correct part (.phys pa) 8) s

/-- The entry of a TLB that translates an address for an ASID. -/
def tlbFind (t : List (Nat × Nat × Word)) (asid va : Nat) : Option (Nat × Nat × Word) :=
  t.find? fun e => e.1 == asid && va / 65536 / pageGranules (lfSize e.2.2) * pageGranules (lfSize e.2.2) == e.2.1

/-- Which set of a course TLB (of 128) or a die TLB (of 1,024) an entry has (R348; DESIGN CHOICE, log entry 4). -/
def courseSet (e : Nat × Nat × Word) : Nat := (Config.tlbSet e.1 e.2.1).toNat % 128
def dieSet (e : Nat × Nat × Word) : Nat := (Config.tlbSet e.1 e.2.1).toNat

/-- Enters a translation; the oldest of its set leaves a set that is full. -/
def tlbFill (ways : Nat) (set : Nat × Nat × Word → Nat) (t : List (Nat × Nat × Word)) (e : Nat × Nat × Word) :
    List (Nat × Nat × Word) :=
  let mates := t.filter fun x => set x == set e
  if t.contains e then t
  else if mates.length < ways then e :: t
  else e :: (match mates.getLast? with
    | some x => t.erase x
    | none => t)

/-- The translation held in the TLBs above a core, nearest first. -/
def State.tlbHit (s : State) (core asid va : Nat) : Option (Nat × Nat × Word) :=
  (tlbFind (s.core core).tlb asid va).or
    ((tlbFind (s.course (courseOfCore core)).tlb asid va).or (tlbFind (s.die (dieOfCore core)).tlb asid va))

/-- The TLBs above a core: its level, number and entries (R348). -/
def State.tlbsOf (s : State) (core : Nat) : List (Nat × Nat × List (Nat × Nat × Word)) :=
  [(0, core, (s.core core).tlb), (1, courseOfCore core, (s.course (courseOfCore core)).tlb),
    (2, dieOfCore core, (s.die (dieOfCore core)).tlb)]

/-- Enters a translation into the three TLBs: 64 entries, fully associative; 8 ways; 16 ways. A new entry has good parity. -/
def State.tlbEnter (s : State) (core : Nat) (e : Nat × Nat × Word) : State :=
  let fresh := (s.tlbsOf core).filter fun t => !t.2.2.contains e
  let s := if s.badTlb.isEmpty then s
    else { s with badTlb := s.badTlb.filter fun b => !(b.2.2 == e && fresh.any fun t => t.1 == b.1 && t.2.1 == b.2.1) }
  ((s.modCore core fun k => { k with tlb := tlbFill 64 (fun _ => 0) k.tlb e }).modCourse (courseOfCore core) fun k =>
    { k with tlb := tlbFill 8 courseSet k.tlb e }).modDie (dieOfCore core) fun k =>
      { k with tlb := tlbFill 16 dieSet k.tlb e }

/-- The entry that a lookup meets in a TLB has bad parity: it is dropped, and counted (R354). -/
def State.tlbCheck1 (s : State) (part asid va : Nat) (t : Nat × Nat × List (Nat × Nat × Word)) : State :=
  match tlbFind t.2.2 asid va with
  | none => s
  | some e =>
    if !s.badTlb.contains (t.1, t.2.1, e) then s
    else
      let s := { s with badTlb := s.badTlb.erase (t.1, t.2.1, e) }.countErrors part 1
      match t.1 with
      | 0 => s.modCore t.2.1 fun k => { k with tlb := k.tlb.erase e }
      | 1 => s.modCourse t.2.1 fun k => { k with tlb := k.tlb.erase e }
      | _ => s.modDie t.2.1 fun k => { k with tlb := k.tlb.erase e }

/-- A lookup in the TLBs above a core drops the entries with bad parity that it meets, nearest first. -/
def State.tlbCheck (s : State) (core part asid va : Nat) : State :=
  if s.badTlb.isEmpty then s
  else (s.tlbsOf core).foldl (fun s t =>
    if ((s.tlbsOf core).take t.1).any fun u => (tlbFind u.2.2 asid va).isSome then s
    else s.tlbCheck1 part asid va t) s

/-- What an access does (R277, R347). -/
inductive Acc where
  | load | store | atomic | fetch
  deriving DecidableEq, Repr

/-- The access code of xinfo (R277). -/
def Acc.code : Acc → Word
  | .load => 0
  | .store => 1
  | .atomic => 2
  | .fetch => 0

/-- Step 6 of R347. -/
def permitted (e : Word) (acc : Acc) (pl : BitVec 2) : Bool :=
  (pl != 0 || lfU e) && (match acc with
    | .load => lfR e
    | .store => lfW e
    | .atomic => lfR e && lfW e
    | .fetch => lfX e)

/-- A translation: the physical address, the leaf and the state with the TLBs filled and the page tables read; or why it
fails. -/
def State.translate (s : State) (core part : Nat) (asid : BitVec 12) (pl : BitVec 2) (va : BitVec 57) (acc : Acc) :
    Except NoWay (Nat × Word × State) :=
  let v := va.toNat
  let p := s.part part
  let s := s.tlbCheck core part asid.toNat v
  let found : Except NoWay ((Nat × Nat × Word) × State) := match s.tlbHit core asid.toNat v with
    | some e => .ok (e, s)
    | none => match s.walk p asid v with
      | .ok e => .ok ((asid.toNat, pageOf e v, e), s.walked core part asid v)
      | .error r => .error r
  match found with
  | .error r => .error r
  | .ok (e, s') =>
    let leaf := e.2.2
    if !p.ownsRange (lfFrame leaf / 65536) (pageGranules (lfSize leaf)) || !permitted leaf acc pl then
      .error ⟨.perm, 0, none⟩
    else .ok (lfFrame leaf + (v - 65536 * e.2.1), leaf, s'.tlbEnter core e)

/-- A translation fails, or an access whose address translates meets an uncorrectable error: what the lookup and the walk met on
their way is corrected and counted all the same (R354, R355). No entry is kept. -/
def State.lookedUp (s : State) (core part : Nat) (asid : BitVec 12) (va : BitVec 57) : State :=
  let s := s.tlbCheck core part asid.toNat va.toNat
  if (s.tlbHit core asid.toNat va.toNat).isSome then s else s.walked core part asid va.toNat

end Sys2Proof.Machine
end

