-- ==== Sys2Proof/Machine/Operands.lean ====
section
/-! DEFINITION. The operand fields of an instruction, and the order of checks at issue (R77, R80, R81, R136, R137). -/

namespace Sys2Proof.Machine

def srcOk (c : BitVec 5) : Bool := c.toNat < 20 || c.toNat == 24
def dstOk (c : BitVec 5) : Bool := c.toNat < 16 || (20 ≤ c.toNat && c.toNat < 24) || c.toNat == 25

/-- The record of an OPND trap: the field, and the register code that it holds (DEDUCED, log entry 7). -/
def opndInfo (n r : Nat) : Word := BitVec.ofNat 64 (n + r % 256 * 256)

/-- Step 5 of R80: what an OPND trap records where the field is out of range. -/
def Field.bad : Field → Option Word
  | .src n c => if srcOk c then none else some (opndInfo n c.toNat)
  | .dst n c => if dstOk c then none else some (opndInfo n c.toNat)
  | .both n c => if c.toNat < 16 then none else some (opndInfo n c.toNat)
  | .gsrc n c => if c.toNat < 16 then none else some (opndInfo n c.toNat)
  | .state n c => if c.toNat < 24 then none else some (opndInfo n c.toNat)
  | .peek n c => if c.toNat < 26 then none else some (opndInfo n c.toNat)
  | .differ n a b => if a = b ∧ a ≠ 0 then some (opndInfo n b.toNat) else none
  | .port n c => if c.toNat = 24 ∨ c.toNat = 25 then none else some (opndInfo n c.toNat)
  | .file n c max => if c.toNat ≤ max then none else some (opndInfo n c.toNat)
  | .ext e span => if e + span ≤ 8 then none else some (opndInfo 3 e)
  | .vl => none
  | .vs => none
  | .loop _ => none
  | .token => none

/-- The port code of a window or channel register, for a CHAN record (R277): 24 for i0-i3 and cin, 25 for o0-o3 and cout
(DEDUCED, log entry 7). -/
def portCode (c : Nat) : Nat := if c < 20 ∨ c = 24 then 24 else 25

/-- The window or channel register that a field names, for a lent task (R136). -/
def Field.window : Field → Option Nat
  | .src _ c => if 16 ≤ c.toNat then some c.toNat else none
  | .dst _ c => if 16 ≤ c.toNat then some c.toNat else none
  | .state _ c => if 16 ≤ c.toNat then some c.toNat else none
  | .peek _ c => if 16 ≤ c.toNat then some c.toNat else none
  | .port _ c => some c.toNat
  | .both _ _ => none
  | .differ _ _ _ => none
  | .gsrc _ _ => none
  | .file _ _ _ => none
  | .ext _ _ => none
  | .vl => none
  | .vs => none
  | .loop _ => none
  | .token => none

/-- A free entry of the course's token table, lowest first (R44). -/
def State.freeToken (s : State) (course : Nat) : Option Nat :=
  (List.range 256).find? fun k => (Tbl.get Token.zero (s.course course).tokens k).state = .free

/-- A source is full (R22, R26): a queue holds something, or no channel is bound, which traps at step 7. -/
def State.srcReady (s : State) (thr : Nat) (c : BitVec 5) : Bool :=
  if c = 0 then true
  else if c.toNat < 16 then vget true (s.ctx thr).gFull c.toNat
  else if c.toNat < 24 then s.winFull thr c
  else (s.ctx thr).cin.isNone || !(s.chan (s.ctx thr).inKey).q.isEmpty

/-- A destination takes a write: an o register is empty, the queue downstream has room. -/
def State.dstReady (s : State) (thr : Nat) (c : BitVec 5) : Bool :=
  if c.toNat < 16 then true else if c.toNat < 24 then !s.winFull thr c else s.pushReady thr

/-- Step 6 of R80: the field does not make the thread park. -/
def Field.ready (s : State) (thr : Nat) : Field → Bool
  | .src _ c => s.srcReady thr c
  | .dst _ c => s.dstReady thr c
  | .both _ c => s.srcReady thr c
  | .gsrc _ c => s.srcReady thr c
  | .vl => (s.ctx thr).vlFull
  | .vs => (s.ctx thr).vsFull
  | .loop c => vget true (s.ctx thr).lFull c.toNat
  | .token => (s.freeToken (courseOf thr)).isSome
  | .state _ _ => true
  | .peek _ _ => true
  | .port _ _ => true
  | .differ _ _ _ => true
  | .file _ _ _ => true
  | .ext _ _ => true

/-- A push traps at the start of step 7 where no channel is bound, or the reader discarded the queue (R26, R250). -/
def State.pushCheck (s : State) (thr : Nat) (f : Field) : Except Stop Unit :=
  match f with
  | .dst _ c =>
    if c.toNat ≠ 25 then .ok ()
    else match (s.ctx thr).outKey with
      | none => .error (.trap .chan 25 0)
      | some k => if (s.chan k).closed then .error (.trap .closed 25 0) else .ok ()
  | _ => .ok ()

/-- Notes the instruction that the running thread issues: its length, its address, and the cycle. -/
def State.stamp (s : State) (half : Bool) : State :=
  s.modMe fun c => { c with irHalf := half, irPc := c.pc, issuedAt := (s.core (coreOf s.cur)).cycle }

/-- Steps 3 to 5 of R80: encoding, privilege, operand fields. Of two fields that are out of range the record names the first in
the order d, a, b and the rest; an OPND comes before the CHAN of a lent task (DESIGN CHOICE, log entry 7). -/
def preTrap (s : State) (ok : Bool) (level : Nat) (fs : List Field) : Option (TrapClass × Word) :=
  if !ok then some (.ill, 0)
  else if (stPl s.me.status).toNat < level then some (.priv, 0)
  else match fs.findSome? Field.bad with
    | some info => some (.opnd, info)
    | none =>
      if s.me.lent then (fs.findSome? Field.window).map fun c => (.chan, BitVec.ofNat 64 (portCode c)) else none

/-- The watchdog's limit for a thread. -/
def State.wdLimit (s : State) (thr : Nat) : Nat := (s.part (s.ctx thr).part).wdlimit

/-- The running thread looked a global address up in vain, or read there in vain. -/
def State.sought (s : State) (va : Word) : State :=
  s.lookedUp (coreOf s.cur) s.me.part s.me.tasid (bits va 0 57)

/-- How the running thread's instruction ends that a step-7 check stops. -/
def State.stopped (s : State) : Stop → State
  | .trap cls info addr => s.trapAt s.cur cls info addr
  | .lost cls info addr => (s.sought addr).trapAt s.cur cls info addr
  | .bad u pa info addr =>
    ((if u < 2 then s.sought addr else s).logError s.me.part (coreOf s.cur) u pa).trapAt s.cur .memerr info addr
  | .park c => s.modMe fun x => { x with wait := .cond c }

/-- An instruction of the running thread: steps 3 to 7 of R80. `half`: 16 bits long; `ok`: its fields meet the limits of
step 3; `level`: the privilege it needs; `fs`: its operand fields in the order d, a, b; `body`: step 7 and the effect. -/
def issue (half ok : Bool) (level : Nat) (fs : List Field) (body : State → Except Stop State) (s : State) : Out :=
  let s0 := s.stamp half
  match preTrap s ok level fs with
  | some (cls, info) => .next (s0.trapAt s.cur cls info 0)
  | none =>
    if !fs.all (Field.ready s s.cur) then .next (s.modMe fun x => { x with wait := .cond (.operands fs) })
    else if s.wdLimit s.cur < s.me.wd + 1 then
      .next (s0.trapAt s.cur .wdog (BitVec.ofNat 64 (s.wdLimit s.cur)) 0)
    else
      let s1 := s0.modMe fun c => { c with wd := c.wd + 1 }
      match (do fs.forM (s1.pushCheck s1.cur); body s1) with
      | .ok s2 => .next s2
      | .error e => .next (s1.stopped e)

/-- The value of a source of the running thread. -/
def rd (s : State) (c : BitVec 5) : Except Stop Word := s.src s.cur c

/-- The instruction completes: its sources are consumed, its destination takes the value, pc advances. -/
def finish (s : State) (srcs : List (BitVec 5)) (d : BitVec 5) (v : Word) : State :=
  ((s.consume s.cur srcs).dest s.cur d v).advance s.cur

/-- The same for an instruction without a destination. -/
def finishNo (s : State) (srcs : List (BitVec 5)) : State := (s.consume s.cur srcs).advance s.cur

/-- The checks of an indirect target or an entry point (R74). -/
def checkTarget (t : Word) : Except Stop Unit := do
  need (!t.getLsbD 0) .align 3 t
  need (canonical t) .addr 3 t

/-- An instruction that traps ORDER in a deterministic launch. -/
def needFree (s : State) : Except Stop Unit := need (!stDet s.me.status) .order

/-- d ← f a. -/
def unary (half : Bool) (f : Word → Word) (d a : BitVec 5) (s : State) : Out :=
  issue half true 0 [.dst 0 d, .src 1 a] (fun s => do
    let x ← rd s a
    return finish s [a] d (f x)) s

/-- d ← f a b. -/
def binary (half : Bool) (f : Word → Word → Word) (d a b : BitVec 5) (s : State) : Out :=
  issue half true 0 [.dst 0 d, .src 1 a, .src 2 b] (fun s => do
    let x ← rd s a
    let y ← rd s b
    return finish s [a, b] d (f x y)) s

/-- d ← f d a, with d read as a source (R122). -/
def accum (half ok : Bool) (f : Word → Word → Word) (d a : BitVec 5) (s : State) : Out :=
  issue half ok 0 [.both 0 d, .src 1 a] (fun s => do
    let x ← rd s d
    let y ← rd s a
    return finish s [a] d (f x y)) s

end Sys2Proof.Machine
end

