-- ==== Sys2Proof/Machine/Channels.lean ====
section
/-! DEFINITION. Channels (R26, R248-R250): binding, closing, status. -/

namespace Sys2Proof.Machine

/-- A team and thread that the operands of `chopen` and `chaccept` name; otherwise CHAN. A lent task has no channel (R136). -/
def channelEnd (s : State) (port : Word) (team thr : Word) : Except Stop (Nat × Nat) := do
  need (!s.me.lent) .chan port
  need (team.toNat < (s.launch s.me.ident.launch).n) .chan port
  need (thr.toNat ≤ 15) .chan port
  return (team.toNat, thr.toNat)

/-- The queue has no end of that kind but x. -/
def onlyEnd (o : Option (Nat × Nat)) (x : Nat × Nat) : Bool := o.all (· == x)

def execChopen (a b : BitVec 5) (s : State) : Out :=
  issue false true 0 [.src 1 a, .src 2 b] (fun s => do
    let team ← rd s a
    let thr ← rd s b
    let e ← channelEnd s 25 team thr
    let id := s.me.ident
    let me := (id.team, id.thr)
    let key := chanKey ⟨id.launch, e.1, e.2⟩
    need s.me.cout.isNone .chan 25
    need (onlyEnd (s.chan key).writer me && onlyEnd (s.chan key).accepted me) .chan 25
    let s1 := (s.modChan key fun ch => { ch with writer := some me, closed := false }).modMe fun c =>
      { c with cout := some e }
    return finishNo s1 [a, b]) s

def execChaccept (a b : BitVec 5) (s : State) : Out :=
  issue false true 0 [.src 1 a, .src 2 b] (fun s => do
    let team ← rd s a
    let thr ← rd s b
    let e ← channelEnd s 24 team thr
    let key := s.me.inKey
    need s.me.cin.isNone .chan 24
    need (onlyEnd (s.chan key).writer e) .chan 24
    let s1 := (s.consume s.cur [a, b]).modChan key fun ch => { ch with accepted := some e }
    return (s1.modMe fun c => { c with cin := some e }).advance s.cur) s

/-- A queue with what lies in it and is on its way to it is discarded (R250). -/
def State.discardQueue (s : State) (k : Nat) : State :=
  { s with cores := s.cores.map fun (c : Nat × Core) => (c.1, { c.2 with pushDue := c.2.pushDue.filter fun p => p.2 ≠ k }) }.modChan k
    fun ch => { ch with q := [], inFlight := [], closed := ch.writer.isSome }

/-- `chclose` (R250). What precedes the values pushed is performed before cout is unbound (R249). -/
def execChclose (port : BitVec 5) (s : State) : Out :=
  issue false true 0 [.port 1 port] (fun s => do
    if port.toNat = 25 then
      need s.me.cout.isSome .chan 25
      return (((s.settlePushes s.cur).pushItem s.cur (.mark .endMark)).unbindOut s.cur).advance s.cur
    else
      need s.me.cin.isSome .chan 24
      return ((s.discardQueue s.me.inKey).unbindIn s.cur).advance s.cur) s

/-- The status word of a port (R250): the partner if it is bound, entries in use, the items of its queue. -/
def chanStatus (bound : Option (Nat × Nat)) (used : Nat) (items : List Item) : Word :=
  let marks := (if items.contains (.mark .endMark) then 32 else 0) + (if items.contains (.mark .abortMark) then 64 else 0)
  match bound with
  | none => BitVec.ofNat 64 (used + marks)
  | some (team, thr) => BitVec.ofNat 64 (used + 16 + marks + team % 65536 * 256 + thr % 16 * 2 ^ 24)

def execChstat (d port : BitVec 5) (s : State) : Out :=
  issue false true 0 [.dst 0 d, .port 1 port] (fun s => do
    needFree s
    let c := s.me
    let v := if port.toNat = 24 then
        let ch := s.chan c.inKey
        chanStatus c.cin (ch.q.filter Item.isVal).length ch.q
      else match c.outKey with
        | none => 0
        | some k => chanStatus c.cout (s.chan k).used ((s.chan k).q ++ (s.chan k).inFlight)
    return finish s [] d v) s

end Sys2Proof.Machine
end

