-- ==== Sys2Proof/Machine/Fp.lean ====
section
/-! DEFINITION. Number formats and rounding (chapter "Number Formats, Rounding, Rotation and Summation Order").

Exact values are dyadic: m × 2^e with a sign. `roundFmt` is round(x, F, mode) of R95 with the flags of R97; a quotient or
a root comes as its leading bits with a sticky bit that says whether anything nonzero lies below them, which is all that
R95 needs of an exact real. -/

namespace Sys2Proof.Machine

/-- Rounding modes of R95; stochastic rounding is `roundSr` of Machine/Mx.lean. -/
inductive Mode where
  | ne | tz | up | dn
  deriving DecidableEq, Repr

/-- A binary format (R93, R99): precision p, exponent of the smallest normal, width in bits, whether all-ones exponents
are infinities and NaNs, the magnitude pattern of the largest finite value, the one that `overflow` returns when it does
not saturate (R96), and the default NaN (R94, R99). -/
structure Fmt where
  p : Nat
  emin : Int
  width : Nat
  ieee : Bool
  maxMag : Nat
  ovfMag : Nat
  nanMag : Nat
  deriving DecidableEq, Repr

namespace Fmt
def f64 : Fmt := ⟨53, -1022, 64, true, 0x7FEF_FFFF_FFFF_FFFF, 0x7FF0_0000_0000_0000, 0x7FF8_0000_0000_0000⟩
def f32 : Fmt := ⟨24, -126, 32, true, 0x7F7F_FFFF, 0x7F80_0000, 0x7FC0_0000⟩
def f16 : Fmt := ⟨11, -14, 16, true, 0x7BFF, 0x7C00, 0x7E00⟩
def bf16 : Fmt := ⟨8, -126, 16, true, 0x7F7F, 0x7F80, 0x7FC0⟩
def e4m3 : Fmt := ⟨4, -6, 8, false, 0x7E, 0x7F, 0x7F⟩
def e5m2 : Fmt := ⟨3, -14, 8, true, 0x7B, 0x7C, 0x7F⟩
/-- e2m1 saturates always (R96), so its overflow pattern is never used; it has no NaN. -/
def e2m1 : Fmt := ⟨2, 0, 4, false, 0x7, 0x7, 0x7⟩
end Fmt

/-- The type codes of R88: 0 f64, 1 f32, 2 f16, 3 bf16. -/
def fmtOf (ty : BitVec 2) : Fmt :=
  match ty.toNat with
  | 0 => .f64
  | 1 => .f32
  | 2 => .f16
  | _ => .bf16

/-- vs flag bits (R32): NV, OV, UF, NX. -/
def fNV : BitVec 4 := 1
def fOV : BitVec 4 := 2
def fUF : BitVec 4 := 4
def fNX : BitVec 4 := 8

/-- What a pattern means (R93, R99): a NaN with its fraction and the fraction's width, an infinity, or ±m × 2^e. -/
inductive FVal where
  | nan (neg quiet : Bool) (frac fracBits : Nat)
  | inf (neg : Bool)
  | fin (neg : Bool) (m : Nat) (e : Int)
  deriving DecidableEq, Repr

/-- The sign bit of a format's pattern, as a weight. -/
def Fmt.signBit (F : Fmt) : Nat := 2 ^ (F.width - 1)

/-- The decoding of R93 and R99. -/
def decodeF (F : Fmt) (x : Nat) : FVal :=
  let mag := x % F.signBit
  let neg := x / F.signBit % 2 == 1
  let mb := F.p - 1
  let ex := mag / 2 ^ mb
  let fr := mag % 2 ^ mb
  if F.ieee ∧ ex = 2 ^ (F.width - F.p) - 1 then
    if fr = 0 then .inf neg else .nan neg (fr / 2 ^ (mb - 1) == 1) fr mb
  else if F.ieee = false ∧ F.maxMag < mag then .nan neg true fr mb
  else if ex = 0 then .fin neg fr (F.emin - mb)
  else .fin neg (2 ^ mb + fr) (F.emin - mb + (ex - 1 : Nat))

/-- A NaN operand as a result of format F (R94 rule 2; R99 for the element formats): the sign kept, the quiet bit set,
the fraction cut or padded on the right. -/
def nanTo (F : Fmt) (neg : Bool) (frac fracBits : Nat) : Nat :=
  let mb := F.p - 1
  let fr := if fracBits ≤ mb then frac * 2 ^ (mb - fracBits) else frac / 2 ^ (fracBits - mb)
  let mag := if F.width ≤ 8 then F.nanMag
    else (2 ^ (F.width - F.p) - 1) * 2 ^ mb + (fr ||| 2 ^ (mb - 1))
  (if neg then F.signBit else 0) + mag

/-- ⌊x / 2^sh⌋ rounded up or not (R95), and whether anything was lost. -/
def roundShift (mode : Mode) (neg : Bool) (m sh : Nat) (sticky : Bool) : Nat × Bool :=
  let lo := m / 2 ^ sh
  let rem := m % 2 ^ sh
  let inexact := rem != 0 || sticky
  let half := 2 ^ sh
  let upward := match mode with
    | .ne => decide (half < 2 * rem) || (decide (2 * rem = half) && (sticky || lo % 2 == 1))
    | .tz => false
    | .up => inexact && !neg
    | .dn => inexact && neg
  (if upward then lo + 1 else lo, inexact)

/-- The rounding of m × 2^e (m ≠ 0) at precision p, with emin where the format has one: v / q, the exponent of q, and
whether v ≠ x (R95). -/
def roundSig (p : Nat) (emin : Option Int) (mode : Mode) (neg : Bool) (m : Nat) (e : Int) (sticky : Bool) :
    Nat × Int × Bool :=
  let ex : Int := (Nat.log2 m : Int) + e
  let ex := match emin with
    | some lo => max ex lo
    | none => ex
  let qe := ex - (p : Int) + 1
  if qe ≤ e then
    let r := roundShift mode neg (m * 2 ^ (e - qe).toNat) 0 sticky
    (r.1, qe, r.2)
  else
    let r := roundShift mode neg m (qe - e).toNat sticky
    (r.1, qe, r.2)

/-- The magnitude pattern of n × 2^qe for a rounded n at most 2^p. -/
def encodeMag (F : Fmt) (n : Nat) (qe : Int) : Nat :=
  let base := F.emin - (F.p : Int) + 1
  if n < 2 ^ (F.p - 1) then n
  else if n = 2 ^ F.p then ((qe + 1 - base).toNat + 1) * 2 ^ (F.p - 1)
  else (qe - base).toNat * 2 ^ (F.p - 1) + n

/-- overflow(F, s, mode) of R96. -/
def overflowMag (F : Fmt) (sat : Bool) (mode : Mode) (neg : Bool) : Nat :=
  if sat || F.width == 4 then F.maxMag
  else match mode with
    | .ne => F.ovfMag
    | .tz => F.maxMag
    | .up => if neg then F.maxMag else F.ovfMag
    | .dn => if neg then F.ovfMag else F.maxMag

/-- round(x, F, mode) with its flags (R95, R96, R97), of the exact ±(m + δ) × 2^e, δ in (0, 1) when `sticky`. -/
def roundFmt (F : Fmt) (mode : Mode) (sat : Bool) (neg : Bool) (m : Nat) (e : Int) (sticky : Bool) :
    Nat × BitVec 4 :=
  let s := if neg then F.signBit else 0
  if m = 0 ∧ sticky = false then (s, 0)
  else
    let r := roundSig F.p (some F.emin) mode neg m e sticky
    let mag := encodeMag F r.1 r.2.1
    if F.maxMag < mag then (s + overflowMag F sat mode neg, fOV ||| fNX)
    else
      let nx := if r.2.2 then fNX else 0
      let uf := if r.2.2 ∧ mag < 2 ^ (F.p - 1) then fUF else 0
      (s + mag, nx ||| uf)

/-! ## Exact arithmetic on dyadic values -/

/-- A signed dyadic value. -/
structure Dy where
  i : Int
  e : Int
  deriving DecidableEq, Repr

/-- The value ±m × 2^e. -/
def Dy.of (neg : Bool) (m : Nat) (e : Int) : Dy := ⟨if neg then -(m : Int) else m, e⟩

/-- The exact sum. -/
def Dy.add (a b : Dy) : Dy :=
  if a.e ≤ b.e then ⟨a.i + b.i * 2 ^ (b.e - a.e).toNat, a.e⟩
  else ⟨a.i * 2 ^ (a.e - b.e).toNat + b.i, b.e⟩

/-- The exact product. -/
def Dy.mul (a b : Dy) : Dy := ⟨a.i * b.i, a.e + b.e⟩

/-- The exact order: −1, 0, 1 as Ordering. -/
def Dy.cmp (a b : Dy) : Ordering :=
  let d := a.add ⟨-b.i, b.e⟩
  if d.i < 0 then .lt else if d.i = 0 then .eq else .gt

/-- The rounding of an exact dyadic value; `zneg` is the sign that an exact zero takes. -/
def roundDy (F : Fmt) (mode : Mode) (sat zneg : Bool) (a : Dy) : Nat × BitVec 4 :=
  if a.i = 0 then ((if zneg then F.signBit else 0), 0)
  else roundFmt F mode sat (decide (a.i < 0)) a.i.natAbs a.e false

/-- ⌊√n⌋ by bits from 2^k down: structural on k. -/
def isqrtAux (n : Nat) : Nat → Nat → Nat
  | 0, r => r
  | k + 1, r => isqrtAux n k (if (r + 2 ^ k) * (r + 2 ^ k) ≤ n then r + 2 ^ k else r)

def isqrt (n : Nat) : Nat := isqrtAux n (Nat.log2 n / 2 + 1) 0

/-! ## NaN rules (R94) -/

/-- A signalling NaN operand raises NV (R94 rule 1). -/
def FVal.snan : FVal → Bool
  | .nan _ quiet _ _ => !quiet
  | _ => false

def FVal.isNan : FVal → Bool
  | .nan _ _ _ _ => true
  | _ => false

/-- The first NaN among the operands as a result of format F, with NV if any operand signals (R94 rules 1 and 2). -/
def firstNan (F : Fmt) (ops : List FVal) : Option (Nat × BitVec 4) :=
  let nv := if ops.any FVal.snan then fNV else 0
  ops.findSome? fun
    | .nan neg _ fr fb => some (nanTo F neg fr fb, nv)
    | _ => none

/-- The default NaN with NV (R94 rule 3). -/
def invalidNan (F : Fmt) : Nat × BitVec 4 := (F.nanMag, fNV)

/-- An infinity of format F. -/
def infOf (F : Fmt) (neg : Bool) : Nat × BitVec 4 := ((if neg then F.signBit else 0) + F.ovfMag, 0)

/-- A zero of format F. -/
def zeroOf (F : Fmt) (neg : Bool) : Nat × BitVec 4 := (if neg then F.signBit else 0, 0)

/-- The sign of an exact zero sum (R94): − when rounding down or when every term is −0. -/
def zeroSumNeg (mode : Mode) (allNegZero : Bool) : Bool := mode = .dn || allNegZero

def FVal.negZero : FVal → Bool
  | .fin true 0 _ => true
  | _ => false

def FVal.isZero : FVal → Bool
  | .fin _ 0 _ => true
  | _ => false

def FVal.neg : FVal → Bool
  | .nan n _ _ _ => n
  | .inf n => n
  | .fin n _ _ => n

def FVal.flip : FVal → FVal
  | .nan n q f b => .nan n q f b
  | .inf n => .inf !n
  | .fin n m e => .fin (!n) m e

/-! ## Operations (R130, R131) -/

/-- round(a + b) of decoded operands. -/
def addV (F : Fmt) (mode : Mode) (sat : Bool) (a b : FVal) : Nat × BitVec 4 :=
  match firstNan F [a, b] with
  | some r => r
  | none =>
    match a, b with
    | .inf na, .inf nb => if na = nb then infOf F na else invalidNan F
    | .inf na, _ => infOf F na
    | _, .inf nb => infOf F nb
    | .fin na ma ea, .fin nb mb eb =>
      roundDy F mode sat (zeroSumNeg mode (a.negZero && b.negZero)) ((Dy.of na ma ea).add (Dy.of nb mb eb))
    | _, _ => invalidNan F

/-- round(a × b). -/
def mulV (F : Fmt) (mode : Mode) (sat : Bool) (a b : FVal) : Nat × BitVec 4 :=
  match firstNan F [a, b] with
  | some r => r
  | none =>
    let s := a.neg != b.neg
    match a, b with
    | .fin _ ma ea, .fin _ mb eb => roundFmt F mode sat s (ma * mb) (ea + eb) false
    | _, _ => if a.isZero || b.isZero then invalidNan F else infOf F s

/-- round(a / b) (R131: a finite nonzero by zero gives a signed infinity and no flag). -/
def divV (F : Fmt) (mode : Mode) (a b : FVal) : Nat × BitVec 4 :=
  match firstNan F [a, b] with
  | some r => r
  | none =>
    let s := a.neg != b.neg
    match a, b with
    | .inf _, .inf _ => invalidNan F
    | .inf _, _ => infOf F s
    | _, .inf _ => zeroOf F s
    | .fin _ ma ea, .fin _ mb eb =>
      if mb = 0 then (if ma = 0 then invalidNan F else infOf F s)
      else
        let k := F.p + 3 + Nat.log2 mb
        roundFmt F mode false s (ma * 2 ^ k / mb) (ea - eb - k) (ma * 2 ^ k % mb != 0)
    | _, _ => invalidNan F

/-- round(√a) (R131). -/
def sqrtV (F : Fmt) (mode : Mode) (a : FVal) : Nat × BitVec 4 :=
  match firstNan F [a] with
  | some r => r
  | none =>
    match a with
    | .inf n => if n then invalidNan F else infOf F false
    | .fin n m e =>
      if m = 0 then zeroOf F n
      else if n then invalidNan F
      else
        let odd := e % 2 = 1
        let m1 := if odd then m * 2 else m
        let e1 := if odd then e - 1 else e
        let k := F.p + 3
        let big := m1 * 2 ^ (2 * k)
        let r := isqrt big
        roundFmt F mode false false r (e1 / 2 - k) (r * r != big)
    | _ => invalidNan F

/-- round(a × b + c) with one rounding; operand order a, b, c for NaNs; 0 × ∞ with a quiet NaN in c returns that NaN and
raises nothing (R131). -/
def fmaV (F : Fmt) (mode : Mode) (sat : Bool) (a b c : FVal) : Nat × BitVec 4 :=
  match firstNan F [a, b, c] with
  | some r => r
  | none =>
    let s := a.neg != b.neg
    match a, b, c with
    | .fin na ma ea, .fin nb mb eb, .fin nc mc ec =>
      let prod := (Dy.of na ma ea).mul (Dy.of nb mb eb)
      let prodNegZero := s && (ma == 0 || mb == 0)
      roundDy F mode sat (zeroSumNeg mode (prodNegZero && c.negZero)) (prod.add (Dy.of nc mc ec))
    | .fin _ _ _, .fin _ _ _, .inf nc => infOf F nc
    | _, _, _ =>
      if a.isZero || b.isZero then invalidNan F
      else match c with
        | .inf nc => if nc = s then infOf F s else invalidNan F
        | _ => infOf F s

/-- The order of two values that are not NaNs. -/
def cmpV (a b : FVal) : Ordering :=
  match a, b with
  | .inf na, .inf nb => if na = nb then .eq else if na then .lt else .gt
  | .inf na, _ => if na then .lt else .gt
  | _, .inf nb => if nb then .gt else .lt
  | .fin na ma ea, .fin nb mb eb => (Dy.of na ma ea).cmp (Dy.of nb mb eb)
  | _, _ => .eq

/-- Lesser (greater) of two values as patterns x, y (R131): −0 below +0; one NaN gives the other operand; two give the
default NaN; a signalling NaN raises NV. -/
def minmaxV (F : Fmt) (big : Bool) (x y : Nat) : Nat × BitVec 4 :=
  let a := decodeF F x
  let b := decodeF F y
  let nv := if a.snan || b.snan then fNV else 0
  match a.isNan, b.isNan with
  | true, true => (F.nanMag, nv)
  | true, false => (y, nv)
  | false, true => (x, nv)
  | false, false =>
    let less := match cmpV a b with
      | .lt => true
      | .gt => false
      | .eq => a.neg && !b.neg
    (if less != big then x else y, 0)

/-- a = b, a < b, a ≤ b as 1 or 0 with NV (R131). -/
def eqV (a b : FVal) : Bool × BitVec 4 :=
  if a.isNan || b.isNan then (false, if a.snan || b.snan then fNV else 0) else (cmpV a b == .eq, 0)

def ltV (a b : FVal) : Bool × BitVec 4 :=
  if a.isNan || b.isNan then (false, fNV) else (cmpV a b == .lt, 0)

def leV (a b : FVal) : Bool × BitVec 4 :=
  if a.isNan || b.isNan then (false, fNV) else (cmpV a b != .gt, 0)

/-- The class mask of R131. -/
def classV (F : Fmt) (a : FVal) : Word :=
  match a with
  | .inf true => 1
  | .inf false => 0x80
  | .nan _ quiet _ _ => if quiet then 0x200 else 0x100
  | .fin neg m _ =>
    if m = 0 then (if neg then 0x8 else 0x10)
    else if m < 2 ^ (F.p - 1) then (if neg then 0x4 else 0x20)
    else (if neg then 0x2 else 0x40)

/-! ## Conversions (R98) -/

/-- Float to float. -/
def cvtFF (F : Fmt) (mode : Mode) (a : FVal) : Nat × BitVec 4 :=
  match firstNan F [a] with
  | some r => r
  | none =>
    match a with
    | .inf n => infOf F n
    | .fin n m e => roundFmt F mode false n m e false
    | _ => invalidNan F

/-- Float to integer of the range [lo, hi]. -/
def cvtFI (lo hi : Int) (mode : Mode) (a : FVal) : Int × BitVec 4 :=
  match a with
  | .nan _ _ _ _ => (0, fNV)
  | .inf n => (if n then lo else hi, fNV)
  | .fin n m e =>
    let r := if 0 ≤ e then (m * 2 ^ e.toNat, false) else roundShift mode n m (-e).toNat false
    let v : Int := if n then -(r.1 : Int) else r.1
    if v < lo then (lo, fNV) else if hi < v then (hi, fNV) else (v, if r.2 then fNX else 0)

/-- Integer to float. -/
def cvtIF (F : Fmt) (mode : Mode) (i : Int) : Nat × BitVec 4 := roundDy F mode false false ⟨i, 0⟩

/-- The integer types of R130: 0 i64, 1 n64, 2 i32, 3 n32: bounds, value of a register, register of a value (R56). -/
def intBounds (i : BitVec 2) : Int × Int :=
  match i.toNat with
  | 0 => (-(2 ^ 63), 2 ^ 63 - 1)
  | 1 => (0, 2 ^ 64 - 1)
  | 2 => (-(2 ^ 31), 2 ^ 31 - 1)
  | _ => (0, 2 ^ 32 - 1)

def intValue (i : BitVec 2) (x : Word) : Int :=
  match i.toNat with
  | 0 => x.toInt
  | 1 => x.toNat
  | 2 => (x.setWidth 32).toInt
  | _ => (x.setWidth 32).toNat

def intReg (i : BitVec 2) (v : Int) : Word :=
  match i.toNat with
  | 3 => zext (BitVec.ofInt 32 v)
  | 2 => sext (BitVec.ofInt 32 v)
  | _ => BitVec.ofInt 64 v

/-- The pattern in the low bits of a register as a number of the format's width (R56). -/
def fpBits (F : Fmt) (x : Word) : Nat := x.toNat % 2 ^ F.width

/-- The decoded operand in a register. -/
def fpVal (F : Fmt) (x : Word) : FVal := decodeF F (fpBits F x)

/-- A pattern as a register value, zeros above (R56). -/
def fpReg (r : Nat × BitVec 4) : Word × BitVec 4 := (BitVec.ofNat 64 r.1, r.2)

/-- The mode that an rm field selects (R88, R178): 0 takes vs.rm (R32); 5-7 never reach a meaning. -/
def modeOf (rm : BitVec 3) (vs : Word32) : Mode :=
  let code := if rm = 0 then (bits vs 9 2).toNat else rm.toNat - 1
  match code with
  | 0 => .ne
  | 1 => .tz
  | 2 => .up
  | _ => .dn

end Sys2Proof.Machine
end

