-- ==== Sys2Proof/Machine/Mx.lean ====
section
/-! DEFINITION. Microscaling elements, MX blocks, ashlars, the rotation, block sums and the canonical tree (R99-R121). -/

namespace Sys2Proof.Machine

/-! ## Elements (R99, R100) -/

/-- An element format. -/
inductive Elem where
  | e4m3 | e5m2 | e2m1 | i8
  deriving DecidableEq, Repr

/-- The format byte of an ashlar (R103). -/
def Elem.code : Elem → Byte
  | .e4m3 => 0x21
  | .e5m2 => 0x22
  | .e2m1 => 0x24
  | .i8 => 0x28

def Elem.ofCode (b : Byte) : Option Elem :=
  match b.toNat with
  | 0x21 => some .e4m3
  | 0x22 => some .e5m2
  | 0x24 => some .e2m1
  | 0x28 => some .i8
  | _ => none

/-- The fmt field of `cvq` and `cvd` (R207): 0 e2m1, 1 e4m3, 2 e5m2, 3 MXINT8. -/
def Elem.ofField (f : BitVec 2) : Elem :=
  match f.toNat with
  | 0 => .e2m1
  | 1 => .e4m3
  | 2 => .e5m2
  | _ => .i8

/-- The binary format of the element (MXINT8 has a rounding of its own). -/
def Elem.fmt : Elem → Fmt
  | .e4m3 => .e4m3
  | .e5m2 => .e5m2
  | .e2m1 => .e2m1
  | .i8 => .e4m3

/-- emax of R102 step 3. -/
def Elem.emax : Elem → Int
  | .e4m3 => 8
  | .e5m2 => 15
  | .e2m1 => 2
  | .i8 => 0

/-- What an element pattern stands for (R99). -/
def Elem.value (el : Elem) (x : Nat) : FVal :=
  match el with
  | .i8 => if x % 256 < 128 then .fin false (x % 256) (-6) else .fin true (256 - x % 256) (-6)
  | el => decodeF el.fmt x

/-- How an element is rounded (R95): a mode of R95, or stochastic with ρ. -/
inductive RMode where
  | det (m : Mode)
  | sr (rho : Nat)
  deriving DecidableEq, Repr

/-- ±m × 2^e to a multiple n of 2^qe (R95), and whether it is inexact. -/
def roundTo (rm : RMode) (neg : Bool) (m : Nat) (e qe : Int) : Nat × Bool :=
  if qe ≤ e then (m * 2 ^ (e - qe).toNat, false)
  else
    let sh := (qe - e).toNat
    match rm with
    | .det md => roundShift md neg m sh false
    | .sr rho =>
      let lo := m / 2 ^ sh
      let rem := m % 2 ^ sh
      (if rho < rem * 65536 / 2 ^ sh then lo + 1 else lo, rem != 0)

/-- round(±m × 2^e, element format) with its flags and whether `overflow` was called (R95-R97, R99); never UF. -/
def Elem.round (el : Elem) (rm : RMode) (sat neg : Bool) (m : Nat) (e : Int) : Nat × BitVec 4 × Bool :=
  match el with
  | .i8 =>
    let r := roundTo rm neg m e (-6)
    let clipped := decide (127 < r.1)
    let mag := if clipped then 127 else r.1
    (if neg then (256 - mag) % 256 else mag, if clipped then fOV ||| fNX else if r.2 then fNX else 0, clipped)
  | el =>
    let F := el.fmt
    let s := if neg then F.signBit else 0
    if m = 0 then (s, 0, false)
    else
      let ex := max ((Nat.log2 m : Int) + e) F.emin
      let qe := ex - (F.p : Int) + 1
      let r := roundTo rm neg m e qe
      let mag := encodeMag F r.1 qe
      if F.maxMag < mag then
        let md := match rm with
          | .det md => md
          | .sr _ => .ne
        (s + overflowMag F sat md neg, fOV ||| fNX, true)
      else (s + mag, if r.2 then fNX else 0, false)

/-! ## MX blocks (R101, R102) -/

/-- What a quantised block holds: scale byte, 32 element patterns, saturation count, the NaN-present flag, flags. -/
structure QBlock where
  scale : Nat
  elems : List Nat
  sats : Nat
  nan : Bool
  flags : BitVec 4
  deriving DecidableEq, Repr

def FVal.finite : FVal → Bool
  | .fin _ _ _ => true
  | _ => false

def FVal.isInf : FVal → Bool
  | .inf _ => true
  | _ => false

/-- ⌊log2 |v|⌋ of a finite nonzero value. -/
def FVal.exp : FVal → Option Int
  | .fin _ m e => if m = 0 then none else some ((Nat.log2 m : Int) + e)
  | _ => none

/-- The greatest exponent among finite nonzero values. -/
def maxExp (vs : List FVal) : Option Int :=
  vs.foldl (fun acc v => match acc, v.exp with
    | none, x => x
    | some a, some b => some (max a b)
    | some a, none => some a) none

/-- Quantising 32 values (R102); `rm j` is the rounding of element j. -/
def quantise (el : Elem) (rm : Nat → RMode) (sat : Bool) (j0 : Nat) (vs : List FVal) : QBlock :=
  if vs.any (fun v => !v.finite) then
    { scale := 0xFF, elems := vs.map fun _ => 0, sats := 0, nan := true
      flags := if vs.any (fun v => v.isInf || v.snan) then fNV else 0 }
  else match maxExp vs with
    | none =>
      { scale := 0
        elems := vs.map fun v => if v.neg && el != .i8 then el.fmt.signBit else 0
        sats := 0, nan := false, flags := 0 }
    | some ex =>
      let x := max (-127) (min 127 (ex - el.emax))
      let rs := (vs.zipIdx j0).map fun p => match p.1 with
        | .fin neg m e => el.round (rm p.2) sat neg m (e - x)
        | _ => (0, 0, false)
      { scale := (x + 127).toNat
        elems := rs.map (·.1)
        sats := (rs.filter (·.2.2)).length
        nan := false
        flags := rs.foldl (fun f r => f ||| r.2.1) 0 }

/-- The element j of a block with a scale byte, decoded (R101): a scale of 0xFF is a quiet NaN. -/
def mxValue (el : Elem) (scale x : Nat) : FVal :=
  if scale = 0xFF then .nan false true 0 1
  else match el.value x with
    | .fin neg m e => .fin neg m (e + scale - 127)
    | v => v

/-- The magnitude of ±m × 2^e rounded toward zero to bf16, as a pattern (R104). -/
def amaxOf (vs : List FVal) : Nat :=
  if vs.any (fun v => !v.finite) then 0x7FC0
  else vs.foldl (fun acc v => match v with
    | .fin _ m e => max acc (roundFmt .bf16 .tz false false m e false).1
    | _ => acc) 0

/-! ## CRC-32C (R106) -/

def crcBit (c : Word32) : Word32 := if c.getLsbD 0 then (c >>> 1) ^^^ 0x82F6_3B78 else c >>> 1

def crcByte (c : Word32) (b : Byte) : Word32 :=
  crcBit (crcBit (crcBit (crcBit (crcBit (crcBit (crcBit (crcBit (c ^^^ b.setWidth 32))))))))

def crc32c (bs : List Byte) : Word32 := ~~~(bs.foldl crcByte 0xFFFF_FFFF)

/-! ## The ashlar (R103-R107) -/

/-- Byte i of an ashlar. -/
def ashByte (a : List Byte) (i : Nat) : Byte := a.getD i 0

/-- The check of R106 over an ashlar's bytes. -/
def ashCrc (a : List Byte) : Word32 := crc32c (a.take 12 ++ (a.drop 16).take 32)

/-- Puts the fields and 32 payload bytes together, the check last (R103, R106). -/
def mkAshlar (el : Elem) (s0 s1 : Nat) (tag : Byte) (digest amax : BitVec 16) (sats : Nat) (flags : Byte)
    (payload : List Byte) : List Byte :=
  let head := [el.code, BitVec.ofNat 8 s0, BitVec.ofNat 8 s1, tag] ++ toBytes 2 digest ++ toBytes 2 amax
    ++ [BitVec.ofNat 8 sats, flags, 0, 0]
  head ++ toBytes 4 (crc32c (head ++ payload)) ++ payload

/-- Packs element patterns into payload bytes (R103). -/
def packElems (el : Elem) (xs : List Nat) : List Byte :=
  match el with
  | .e2m1 => (List.range (xs.length / 2)).map fun i =>
      BitVec.ofNat 8 (xs.getD (2 * i) 0 % 16 + 16 * (xs.getD (2 * i + 1) 0 % 16))
  | _ => xs.map (BitVec.ofNat 8)

/-- The element patterns of a payload: 64 or 32 (R103). -/
def unpackElems (el : Elem) (ps : List Byte) : List Nat :=
  match el with
  | .e2m1 => ps.flatMap fun b => [b.toNat % 16, b.toNat / 16]
  | _ => ps.map (·.toNat)

/-- A failure of R107. -/
inductive AshErr where
  | check | fmt
  deriving DecidableEq, Repr

/-- Steps 1 to 4 of R107: the first failing check, or the element format. -/
def checkAshlar (a : List Byte) : Except AshErr Elem :=
  if ofBytes 32 ((a.drop 12).take 4) != ashCrc a then .error .check
  else match Elem.ofCode (ashByte a 0) with
    | none => .error .fmt
    | some el =>
      let tag := ashByte a 3
      if (el != .e2m1 && ashByte a 2 != 0) || bits tag 0 4 != 0 || 1 < (bits tag 4 2).toNat
          || bits (ashByte a 9) 2 6 != 0 || ashByte a 10 != 0 || ashByte a 11 != 0 then .error .fmt
      else if tag.getLsbD 7 = false && (tag != 0 || ashByte a 4 != 0 || ashByte a 5 != 0) then .error .fmt
      else .ok el

/-- The element patterns of an ashlar and its decoded elements (R101, R103). -/
def ashElems (el : Elem) (a : List Byte) : List Nat := unpackElems el ((a.drop 16).take 32)

def ashValues (el : Elem) (a : List Byte) : List FVal :=
  (ashElems el a).zipIdx.map fun p => mxValue el (ashByte a (if p.2 < 32 then 1 else 2)).toNat p.1

/-! ## Seeds and the rotation (R109-R113) -/

/-- The digest of a sign seed (R109). -/
def digestOf (sd : Word) : BitVec 16 := bits sd 48 16 ^^^ bits sd 32 16 ^^^ bits sd 16 16 ^^^ bits sd 0 16

/-- ρ of R110 for element j of the ashlar at virtual address a. -/
def rhoOf (rk : Word) (a : BitVec 57) (j : Nat) : Nat :=
  (bits (mix rk (BitVec.ofNat 64 (sectorNo a.toNat * 64 + j))) 0 16).toNat

/-- The sign bit of R111. -/
def signBit (sd : Word) (b j : Nat) : Bool := (mix sd (BitVec.ofNat 64 (b * 32 + j))).getLsbD 63

/-- One butterfly stage of R112. -/
def butterfly (h : Nat) (a : List Int) : List Int :=
  (List.range a.length).map fun i =>
    if i / h % 2 = 0 then a.getD i 0 + a.getD (i + h) 0 else a.getD (i - h) 0 - a.getD i 0

/-- The log2 n stages: h = 1, 2, …, n / 2. -/
def butterflies : Nat → Nat → List Int → List Int
  | 0, _, a => a
  | k + 1, h, a => butterflies k (2 * h) (butterfly h a)

/-- Step 2 of R112: every value over 2^(E − 26), to the nearest integer; whether one was inexact. -/
def align (ex : Int) (vs : List FVal) : List (Int × Bool) :=
  vs.map fun
    | .fin neg m e =>
      let r := roundTo (.det .ne) neg m e (ex - 26)
      (if neg then -(r.1 : Int) else r.1, r.2)
    | _ => (0, false)

/-- rotate_fwd of R112 on n = 2^lg finite values: n values rounded to 24 bits, and whether NX is raised. -/
def rotateFwd (lg : Nat) (sd : Word) (b : Nat) (vs : List FVal) : List FVal × Bool :=
  match maxExp vs with
  | none => (vs.map fun _ => .fin false 0 0, false)
  | some ex =>
    let al := align ex vs
    let y := (butterflies lg 1 (al.map (·.1))).zipIdx.map fun p => if signBit sd b p.2 then -p.1 else p.1
    let rs := y.map fun i =>
      if i = 0 then (FVal.fin false 0 0, false)
      else
        let neg := decide (i < 0)
        let r := roundSig 24 none .ne neg i.natAbs (ex - 26) false
        (FVal.fin neg r.1 r.2.1, r.2.2)
    (rs.map (·.1), al.any (·.2) || rs.any (·.2))

/-- The inverse rotation of R113 on n = 2^lg decoded elements, rounded into F: patterns and flags. -/
def rotateInv (lg : Nat) (sd : Word) (b : Nat) (F : Fmt) (mode : Mode) (vs : List FVal) : List (Nat × BitVec 4) :=
  if vs.any (fun v => !v.finite) then
    let nv := if vs.any (fun v => v.isInf || v.snan) then fNV else 0
    vs.map fun _ => (F.nanMag, nv)
  else match maxExp vs with
    | none => vs.map fun _ => (0, 0)
    | some ex =>
      let al := align ex vs
      let nx := if al.any (·.2) then fNX else 0
      let d := al.zipIdx.map fun p => if signBit sd b p.2 then -p.1.1 else p.1.1
      (butterflies lg 1 d).map fun i =>
        let r := roundDy F mode false false ⟨i, ex - 26 - lg⟩
        (r.1, r.2 ||| nx)

/-! ## Block sums of the matrix engine (R115, R116) -/

/-- One product of a block. -/
inductive Term where
  | nan
  | inf (neg : Bool)
  | fin (neg : Bool) (v : Dy)
  deriving DecidableEq, Repr

def termOf (a b : FVal) : Term :=
  match a, b with
  | .nan _ _ _ _, _ => .nan
  | _, .nan _ _ _ _ => .nan
  | .fin na ma ea, .fin nb mb eb => .fin (na != nb) ((Dy.of na ma ea).mul (Dy.of nb mb eb))
  | a, b => if a.isZero || b.isZero then .nan else .inf (a.neg != b.neg)

def Term.isNan : Term → Bool
  | .nan => true
  | _ => false

def Term.isInf (neg : Bool) : Term → Bool
  | .inf n => n == neg
  | _ => false

/-- The rounded sum of a block of products times 2^scale, and whether finite operands gave an infinity (R116, R216). -/
def blockSum (F : Fmt) (scale : Int) (ts : List Term) : Nat × Bool :=
  if ts.any Term.isNan || (ts.any (Term.isInf true) && ts.any (Term.isInf false)) then (F.nanMag, false)
  else if ts.any (Term.isInf true) then ((infOf F true).1, false)
  else if ts.any (Term.isInf false) then ((infOf F false).1, false)
  else
    let sum : Dy := ts.foldl (fun (acc : Dy) t => match t with
      | .fin _ v => acc.add v
      | _ => acc) ⟨0, 0⟩
    let allNeg := ts.all fun
      | .fin neg v => neg && v.i == 0
      | _ => false
    let r := roundDy F .ne false allNeg ⟨sum.i, sum.e + scale⟩
    (r.1, r.2 &&& fOV != 0)

/-! ## The canonical tree (R120) -/

/-- One level: pairs combined left to right, an odd last node kept. -/
def treeLevel {α : Type} (f : α → α → α) : List α → List α
  | a :: b :: rest => f a b :: treeLevel f rest
  | l => l

/-- Levels until one node is left; `fuel` levels at most. -/
def treeUp {α : Type} (f : α → α → α) : Nat → List α → List α
  | 0, l => l
  | k + 1, l => if l.length ≤ 1 then l else treeUp f k (treeLevel f l)

/-- The leaves: chunks of 256 terms, each summed in order. -/
def leaves {α : Type} (f : α → α → α) : Nat → List α → List α
  | 0, _ => []
  | k + 1, l =>
    match l.take 256 with
    | [] => []
    | x :: xs => xs.foldl f x :: leaves f k (l.drop 256)

/-- The canonical reduction of a sequence of terms; `zero` for an empty one. -/
def canonicalTree {α : Type} (f : α → α → α) (zero : α) (l : List α) : α :=
  (treeUp f l.length (leaves f l.length l)).headD zero

end Sys2Proof.Machine
end

