-- ==== Sys2Proof/Machine/Contexts.lean ====
section
/-! DEFINITION. The lane pool (R41, R169-R172), and starting a thread in a context of a core (R20, R39, R241, R366). -/

namespace Sys2Proof.Machine

/-! ## Lanes -/

/-- Who holds or wants lanes in a course: its contexts, the saved contexts of its lent slots, and the contexts of an image that have
yet to get a slot (R172): (grant, want). -/
def State.laneHolders (s : State) (course : Nat) : List (Nat × Nat) :=
  (threadsOf course).map (fun t => ((s.ctx t).grant, (s.ctx t).want)) ++
  ((List.range 8).map (8 * course + ·)).flatMap fun k =>
    ((s.core k).tm.loans.map Prod.snd ++ (s.core k).arrivals.flatMap fun m => [m.ctx, m.loan]).map fun c => (c.grant, c.want)

/-- Free lanes of the course's 256. -/
def State.freeLanes (s : State) (course : Nat) : Nat :=
  256 - ((s.laneHolders course).map Prod.fst).foldl (· + ·) 0

/-- A context is one of the team that a core holds. -/
def Core.owns (k : Core) (c : Ctx) : Bool := k.team.any fun t => c.ofTeam t.1 t.2

/-- What a swapped-in deterministic team of a core claims together: its threads there, those whose slots are lent, and those that
have yet to get a slot (R172). -/
def State.teamWant (s : State) (core : Nat) : Nat :=
  let k := s.core core
  let cs := (slotsOf core).map s.ctx ++ k.tm.loans.map Prod.snd ++ k.arrivals.flatMap fun m => [m.ctx, m.loan]
  ((cs.filter k.owns).map Ctx.want).foldl (· + ·) 0

/-- The first thread of a core that is its team's. -/
def State.firstOwn (s : State) (core : Nat) : Nat :=
  ((slotsOf core).find? fun t => (s.core core).owns (s.ctx t)).getD (16 * core)

/-- The lowest-numbered parked claim of a course: the thread, and the lanes it wants (R170, R172). -/
def State.firstClaim (s : State) (course : Nat) : Option (Nat × Nat) :=
  (threadsOf course).findSome? fun t =>
    if (s.core (coreOf t)).teamClaim && s.firstOwn (coreOf t) == t then some (t, s.teamWant (coreOf t))
    else if (s.ctx t).claimParked then some (t, (s.ctx t).want)
    else none

/-- F of R170: free lanes that the lowest parked claim does not reserve. -/
def State.openLanes (s : State) (course : Nat) : Nat :=
  s.freeLanes course - (match s.firstClaim course with
    | some c => c.2
    | none => 0)

/-- want of R170: x rounded up to 16, at most 256. -/
def wantOf (x : Word) : Nat := min 256 ((x.toNat + 15) / 16 * 16)

/-- R171: what a `yield` of a free launch does to the thread's grant. -/
def State.yieldLanes (s : State) (thr : Nat) : State :=
  let c := s.ctx thr
  let k := courseOf thr
  if stDet c.status then s
  else if c.grant < c.want then s.setCtx thr { c with grant := min c.want (c.grant + s.openLanes k) }
  else if (s.laneHolders k).any fun h => h.1 < h.2 then
    let m := ((s.laneHolders k).filter fun h => 0 < h.2).length
    (s.setCtx thr { c with grant := min c.grant (16 * (16 / m)) }).post (.claimGrant k)
  else s

/-! ## Starting a thread (R20) -/

/-- The thread-start reset: the context begins at its entry with its argument, and waits for a stack segment. -/
def Ctx.start (id : Ident) (det : Bool) (prio : BitVec 2) (part slot : Nat) (lent : Bool) (entry : BitVec 57)
    (arg : Word) (asid : BitVec 12) (at' : Nat) : Ctx :=
  { (Ctx.blank.setG 1 arg) with
    live := true, ident := id, lent := lent, pc := entry, tasid := asid, resumeAt := at'
    status := mkStatus det slot (slot == 0 && !lent) prio part
    wait := .segment false }

/-- Starts a thread of launch l in context thr, no earlier than `delay` cycles from now; it takes a stack segment, or
waits for one (R241). -/
def State.startThread (s : State) (thr : Nat) (id : Ident) (lent : Bool) (entry : BitVec 57) (arg : Word)
    (asid : BitVec 12) (delay : Nat) : State :=
  let l := s.launch id.launch
  (s.setCtx thr (Ctx.start id l.det l.prio l.part (slotOf thr) lent entry arg asid
    ((s.core (coreOf thr)).cycle + delay))).giveSegment thr

/-- A context of the core that no thread holds, lowest first; removed slots are not claimed (R368). -/
def State.freeContext (s : State) (core : Nat) : Option Nat :=
  (slotsOf core).find? fun t => !(s.ctx t).live && decide (slotOf t < 16 - (s.core core).removal.toNat)

/-- The lowest fired entry of the core's waiting-task table. -/
def State.firedEntry (s : State) (core : Nat) : Option (Nat × WtEntry) :=
  (s.core core).tm.wt.find? fun e => e.2.state == .fired

def State.freeEntry (s : State) (core k : Nat) : State :=
  s.modTm core fun m => { m with wt := Tbl.set WtEntry.zero m.wt k WtEntry.zero }

/-- A waiting task starts in a context (R39): its entry frees. -/
def State.startFired (s : State) (thr : Nat) (k : Nat) (e : WtEntry) (id : Ident) (lent : Bool) : State :=
  (s.freeEntry (coreOf thr) k).startThread thr id lent e.entry e.arg e.tasid 2

/-- R136: the core lends the yielding context, if an entry is fired, no context is free, and a segment is to be had. The
yielding thread, already past its `yield`, is saved whole; what it has written is performed before the task starts (R302). The
task has the identity of the yielder (DESIGN CHOICE, log entry 64). An entry that a thread of another team fires may be the last thing
that the core holds for its team (R363). -/
def State.lend (s : State) (thr : Nat) : State :=
  let c := s.ctx thr
  let p := s.part c.part
  match s.firedEntry (coreOf thr) with
  | some (k, e) =>
    if c.lent || (s.freeContext (coreOf thr)).isSome || (p.poolCount ≠ 0 && p.freeSegment.isNone) then s
    else
      let s := s.performAll thr
      ((s.modTm (coreOf thr) fun m => { m with
        loans := Tbl.set Ctx.blank m.loans (slotOf thr) { s.ctx thr with dbgStep := false } }).startFired thr k e
        c.ident true).giveUp (coreOf thr)
  | none => s

end Sys2Proof.Machine
end

