-- ==== Sys2Proof/Machine/Flags.lean ====
section
/-! DEFINITION. The flags of vs (R32): raising them, and the FPE trap that an enabled flag takes after the instruction
has completed (R97, R176, R279). -/

namespace Sys2Proof.Machine

/-- SATMODE, and the trap enables, of vs. -/
def vsSat (vs : Word32) : Bool := vs.getLsbD 4
def vsEnables (vs : Word32) : BitVec 4 := bits vs 5 4

/-- The flags are ORed into vs. -/
def Ctx.raise (c : Ctx) (f : BitVec 4) : Ctx := { c with vs := c.vs ||| f.setWidth 32 }

/-- The raised flags whose enables are 1. -/
def Ctx.fpe (c : Ctx) (f : BitVec 4) : BitVec 4 := f &&& vsEnables c.vs

/-- After a completed instruction: the FPE trap for the enabled flags that it raised, resuming at the pc that it leaves
(R279). -/
def State.fpeTrap (s : State) (thr : Nat) (f : BitVec 4) : State :=
  if f = 0 then s
  else s.trapEntry thr TrapClass.fpe.code (zext f) (canon (s.ctx thr).irPc) (s.ctx thr).pc false

/-- A floating-point instruction completes with result v and flags f. -/
def finishFp (s : State) (srcs : List (BitVec 5)) (d : BitVec 5) (v : Word) (f : BitVec 4) : State :=
  let s' := finish (s.modMe fun c => c.raise f) srcs d v
  s'.fpeTrap s.cur (s.me.fpe f)

end Sys2Proof.Machine
end

