-- ==== Sys2Proof/Machine/Mem.lean ====
section
/-! DEFINITION. The checks of an access (R142, R143), and where it lands. -/

namespace Sys2Proof.Machine

/-! ## The checks of an access -/

/-- The fields of a policy register (R27). -/
def qOrder (q : Word32) : BitVec 3 := bits q 0 3
def qScope (q : Word32) : BitVec 3 := bits q 3 3
def qSpace (q : Word32) : BitVec 2 := bits q 6 2
def qLvl (q : Word32) : BitVec 2 := bits q 8 2

/-- A policy with a reserved value that a memory instruction meets. -/
def qBad (q : Word32) : Bool := 6 ≤ (qOrder q).toNat || 6 ≤ (qScope q).toNat || qSpace q == 3 || qLvl q == 3

def orderOf (x : BitVec 3) : Order :=
  match x.toNat with
  | 0 => .loose
  | 1 => .causal
  | 2 => .acquire
  | 3 => .release
  | 4 => .acqRel
  | _ => .sc

def scopeOf (x : BitVec 3) : Scope :=
  match x.toNat with
  | 0 => .thread
  | 1 => .core
  | 2 => .course
  | 3 => .die
  | 4 => .device
  | _ => .system

/-- Where an access lands, what it brings to the caches (its home among it), and the state with the TLBs filled. -/
structure Access where
  loc : Loc
  via : Via
  st : State

/-- A global access of a thread with policy word q (R143 steps 2, 3, 6); `info` is xinfo without the reason. -/
def State.global (s : State) (thr : Nat) (q : Word32) (ea : Word) (size : Nat) (acc : Acc) (info : Word) :
    Except Stop Access := do
  let c := s.ctx thr
  need (canonical ea) .addr info ea
  need (ea.toNat % size == 0) .align info ea
  match s.translate (coreOf thr) c.part c.tasid (stPl c.status) (bits ea 0 57) acc with
  | .ok (pa, leaf, s') =>
    return ⟨.phys pa, viaOf s (some (coreOf thr)) c.part c.tasid leaf q (bits ea 0 57) pa, s'⟩
  | .error ⟨_, _, some u⟩ => .error (.bad u.1 u.2 info ea)
  | .error ⟨cls, r, none⟩ => .error (.lost cls (info ||| (BitVec.ofNat 64 r <<< 40)) ea)

/-- A scratchpad access (R143 steps 2-5). -/
def State.scratch (s : State) (thr : Nat) (remote : Bool) (ea : Word) (size : Nat) (info : Word) :
    Except Stop Access := do
  let core := if remote then ea.toNat / 524288 % 2048 else coreOf thr
  need (if remote then ea.toNat < 2 ^ 30 && core < 1280 else ea.toNat < 2 ^ 19) .addr info ea
  need (ea.toNat % size == 0) .align info ea
  need (ea.toNat % 524288 + size ≤ 0x6_0000) .spad info ea
  need (!remote || (s.part (s.ctx thr).part).hasCore core) .perm info ea
  return ⟨.spad core (ea.toNat % 524288), Via.spad core, s⟩

/-- The record of a policy register that an access does not allow. -/
def qInfo (q : BitVec 2) : Word := opndInfo 4 q.toNat

/-- R143 for an access with policy register q; `allow` says which spaces and orders the instruction takes. -/
def State.access (s : State) (thr : Nat) (q : BitVec 2) (ea : Word) (size : Nat) (acc : Acc)
    (allow : Nat → Order → Bool) : Except Stop Access := do
  let w := vget 0 (s.ctx thr).q q.toNat
  need (!qBad w && allow (qSpace w).toNat (orderOf (qOrder w))) .opnd (qInfo q)
  match (qSpace w).toNat with
  | 0 => s.global thr w ea size acc acc.code
  | 1 => s.scratch thr false ea size acc.code
  | _ => s.scratch thr true ea size acc.code

/-- sc is allowed in space 0 only (R147). -/
def anySpace (space : Nat) (o : Order) : Bool := space == 0 || o != .sc
/-- Spaces 1 and 2, without sc (R152, R164). -/
def spadSpace (space : Nat) (o : Order) : Bool := space != 0 && o != .sc

/-- An access of n bytes to global space by a device operation of the running thread, aligned to `al`, at the thread's
translation (R143, R355): where it lands, and the state with corrected errors counted and the caches read or written under the
page's allocation. Its writes are causal, so one to another die is a strong update (R297, R351). With another die it exchanges
messages, one for a line, at the last address of it (`last`). -/
def State.blockAt (s : State) (last : Bool) (ea : Word) (al n : Nat) (acc : Acc) : Except Stop (Loc × State) := do
  let x ← s.global s.cur 0 ea al acc acc.code
  let die := dieOfCore (coreOf s.cur)
  let home := dieOfCore x.via.home
  if acc = .load then
    match x.st.badUnit x.loc n with
    | some u => .error (.bad u.1 u.2 acc.code ea)
    | none => return (x.loc, (if last then x.st.readLine die home x.loc.pa else x.st).cacheLoad s.me.part x.via x.loc n)
  else return (x.loc, ((if last then x.st.cargo die home x.loc.vert 192 else x.st).crossDie die home).cacheWrite x.via x.loc n)

def State.block (s : State) (ea : Word) (al n : Nat) (acc : Acc) : Except Stop (Loc × State) := s.blockAt true ea al n acc

/-- The next address of a list lies on another line, or there is none. -/
def endsLine (ea : Word) (eas : List Word) : Bool := eas.head?.all fun e => lineNo e.toNat != lineNo ea.toNat

/-- The same for a list of addresses, in order. -/
def State.blocks (al n : Nat) (acc : Acc) : List Word → State → Except Stop (List Loc × State)
  | [], s => .ok ([], s)
  | ea :: eas, s => do
    let (l, s1) ← s.blockAt (endsLine ea eas) ea al n acc
    let (ls, s2) ← State.blocks al n acc eas s1
    return (l :: ls, s2)

/-- The checks of R143 on stores of n bytes at addresses, in order: where each lands and what it brings to the caches. -/
def State.targets (n : Nat) : List Word → State → Except Stop (List (Loc × Via) × State)
  | [], s => .ok ([], s)
  | ea :: eas, s => do
    let x ← s.global s.cur 0 ea n .store Acc.store.code
    let (ls, s1) ← State.targets n eas x.st
    return ((x.loc, x.via) :: ls, s1)

end Sys2Proof.Machine
end

