-- ==== Sys2Proof/Machine/MemInstr.lean ====
section
/-! DEFINITION. Loads, stores, atomics, fences, policy registers, full/empty, mailbox, arrival words and waiting tasks
(R148-R167), and the events that carry them out: replies, posted writes, updates, deliveries. -/

namespace Sys2Proof.Machine

/-! ## Loads (R149) -/

/-- The bytes of a load, and how they fill a register (R56). -/
def LdKind.size : LdKind → Nat
  | .i8 => 1 | .n8 => 1 | .i16 => 2 | .n16 => 2 | .i32 => 4 | .n32 => 4 | .b64 => 8
  | .f16 => 2 | .bf16 => 2 | .f32 => 4 | .f64 => 8

def LdKind.extend (k : LdKind) (bs : List Byte) : Word :=
  match k with
  | .i8 => sext (ofBytes 8 bs)
  | .i16 => sext (ofBytes 16 bs)
  | .i32 => sext (ofBytes 32 bs)
  | _ => ofBytes 64 bs

/-- An access of order sc takes the next keystone number (R46, R147). -/
def State.keystoneIf (s : State) (sc : Bool) : State := if sc then { s with keystone := s.keystone + 1 } else s

/-- The keystone number that an sc access issued now receives. -/
def State.ticket (s : State) (sc : Bool) : Option (BitVec 64) := if sc then some (s.keystone + 1) else none

/-- The order and scope of the running thread's policy register. -/
def State.qOrd (s : State) (q : BitVec 2) : Order := orderOf (qOrder (vget 0 s.me.q q.toNat))
def State.qScp (s : State) (q : BitVec 2) : Scope := scopeOf (qScope (vget 0 s.me.q q.toNat))

/-- A load goes to its home on another die: its block is not in the thread's L1, or it is an sc load, which is performed at its
home (R144, R147, R390). -/
def State.loadFar (s : State) (thr : Nat) (l : Loc) (via : Via) (sc : Bool) : Bool :=
  crossesDie thr via.home && (match l with
    | .phys pa => sc || via.lvl != 0 || !(Tbl.get [] s.caches.l1 (coreOf thr)).contains (blockNo pa)
    | .spad _ _ => true)

/-- A load: after its checks its destination is empty and its thread waits for the reply. -/
def load (half : Bool) (k : LdKind) (d base : BitVec 5) (q : BitVec 2) (off : Word) (s : State) : Out :=
  issue half true 0 [.dst 0 d, .src 1 base] (fun s => do
    let x ← rd s base
    let ea := x + off
    let a ← s.access s.cur q ea k.size .load anySpace
    let o := s.qOrd q
    let s1 := (a.st.keystoneIf (o == .sc)).emptyDest s.cur d
    let far := s.loadFar s.cur a.loc a.via (o == .sc)
    let wt : Wait := .load a.loc a.via ea k d (s.wasFull s.cur d) (o != .loose)
      (o.acquires && (o == .sc || s.qScp q != .thread)) far (s.ticket (o == .sc)) [base]
    return (s1.modMe fun c => { c with wait := wt }).callHome far (o == .sc) s.cur a.via.home a.loc) s

/-- offset9 × access size (R142). -/
def offset (off : BitVec 9) (size : Nat) : Word := sext off * BitVec.ofNat 64 size

def execLdI8 (d base : BitVec 5) (q : BitVec 2) (off : BitVec 9) (s : State) : Out :=
  load false .i8 d base q (offset off 1) s
def execLdN8 (d base : BitVec 5) (q : BitVec 2) (off : BitVec 9) (s : State) : Out :=
  load false .n8 d base q (offset off 1) s
def execLdI16 (d base : BitVec 5) (q : BitVec 2) (off : BitVec 9) (s : State) : Out :=
  load false .i16 d base q (offset off 2) s
def execLdN16 (d base : BitVec 5) (q : BitVec 2) (off : BitVec 9) (s : State) : Out :=
  load false .n16 d base q (offset off 2) s
def execLdI32 (d base : BitVec 5) (q : BitVec 2) (off : BitVec 9) (s : State) : Out :=
  load false .i32 d base q (offset off 4) s
def execLdN32 (d base : BitVec 5) (q : BitVec 2) (off : BitVec 9) (s : State) : Out :=
  load false .n32 d base q (offset off 4) s
def execLdB64 (d base : BitVec 5) (q : BitVec 2) (off : BitVec 9) (s : State) : Out :=
  load false .b64 d base q (offset off 8) s
def execLdF16 (d base : BitVec 5) (q : BitVec 2) (off : BitVec 9) (s : State) : Out :=
  load false .f16 d base q (offset off 2) s
def execLdBf16 (d base : BitVec 5) (q : BitVec 2) (off : BitVec 9) (s : State) : Out :=
  load false .bf16 d base q (offset off 2) s
def execLdF32 (d base : BitVec 5) (q : BitVec 2) (off : BitVec 9) (s : State) : Out :=
  load false .f32 d base q (offset off 4) s
def execLdF64 (d base : BitVec 5) (q : BitVec 2) (off : BitVec 9) (s : State) : Out :=
  load false .f64 d base q (offset off 8) s

/-! ## Stores (R150, R152) -/

/-- The running thread posts a write. -/
def State.postWrite (s : State) (p : Posted) : State :=
  (s.modMe fun c => { c with posted := c.posted ++ [p] }).post (.postedWrite s.cur)

/-- A thread with eight posted writes parks (R150). -/
def roomToPost (s : State) : Except Stop Unit := hold (s.me.posted.length < 8) .postedFull

/-- A store of n bytes. -/
def store (half : Bool) (n : Nat) (src base : BitVec 5) (q : BitVec 2) (off : Word) (s : State) : Out :=
  issue half true 0 [.src 0 src, .src 1 base] (fun s => do
    let v ← rd s src
    let x ← rd s base
    let a ← s.access s.cur q (x + off) n .store anySpace
    let p : Posted := { loc := a.loc, bytes := toBytes n v, arrival := none, order := s.qOrd q, scope := s.qScp q
                        via := a.via, sent := false, joined := false, led := false, kept := false }
    let s1 := a.st.consume s.cur [src, base]
    if s.qOrd q = .sc then
      return ((s1.keystoneIf true).modMe fun c => { c with wait := .storeSc p (s.keystone + 1) }).callHome
        (crossesDie s.cur a.via.home) true s.cur a.via.home a.loc
    else
      roomToPost s
      return (s1.postWrite p).advance s.cur) s

def execStB8 (src base : BitVec 5) (q : BitVec 2) (off : BitVec 9) (s : State) : Out :=
  store false 1 src base q (offset off 1) s
def execStB16 (src base : BitVec 5) (q : BitVec 2) (off : BitVec 9) (s : State) : Out :=
  store false 2 src base q (offset off 2) s
def execStB32 (src base : BitVec 5) (q : BitVec 2) (off : BitVec 9) (s : State) : Out :=
  store false 4 src base q (offset off 4) s
def execStB64 (src base : BitVec 5) (q : BitVec 2) (off : BitVec 9) (s : State) : Out :=
  store false 8 src base q (offset off 8) s
def execStF16 (src base : BitVec 5) (q : BitVec 2) (off : BitVec 9) (s : State) : Out :=
  store false 2 src base q (offset off 2) s
def execStBf16 (src base : BitVec 5) (q : BitVec 2) (off : BitVec 9) (s : State) : Out :=
  store false 2 src base q (offset off 2) s
def execStF32 (src base : BitVec 5) (q : BitVec 2) (off : BitVec 9) (s : State) : Out :=
  store false 4 src base q (offset off 4) s
def execStF64 (src base : BitVec 5) (q : BitVec 2) (off : BitVec 9) (s : State) : Out :=
  store false 8 src base q (offset off 8) s

/-- A remote store with arrival (R152, R153). The access code of the arrival word's records is that of a store (DESIGN CHOICE, log
entry 79). -/
def storeArrive (n : Nat) (src base : BitVec 5) (q : BitVec 2) (aw : BitVec 5) (n1 : BitVec 4) (s : State) : Out :=
  issue false true 0 [.src 0 src, .src 1 base, .src 5 aw] (fun s => do
    let v ← rd s src
    let ea ← rd s base
    let wa ← rd s aw
    let a ← s.access s.cur q ea n .store spadSpace
    let b ← a.st.access s.cur q wa 16 .store spadSpace
    need (a.via.home == b.via.home) .addr 1 wa
    roomToPost s
    let p : Posted := { loc := a.loc, bytes := toBytes n v, arrival := some (b.loc, n1.setWidth 32 + 1)
                        order := s.qOrd q, scope := s.qScp q, via := a.via, sent := false, joined := false, led := false, kept := false }
    return ((b.st.consume s.cur [src, base, aw]).postWrite p).advance s.cur) s

def execStaB8 (src base : BitVec 5) (q : BitVec 2) (aw : BitVec 5) (n1 : BitVec 4) (s : State) : Out :=
  storeArrive 1 src base q aw n1 s
def execStaB16 (src base : BitVec 5) (q : BitVec 2) (aw : BitVec 5) (n1 : BitVec 4) (s : State) : Out :=
  storeArrive 2 src base q aw n1 s
def execStaB32 (src base : BitVec 5) (q : BitVec 2) (aw : BitVec 5) (n1 : BitVec 4) (s : State) : Out :=
  storeArrive 4 src base q aw n1 s
def execStaB64 (src base : BitVec 5) (q : BitVec 2) (aw : BitVec 5) (n1 : BitVec 4) (s : State) : Out :=
  storeArrive 8 src base q aw n1 s

/-! ## Atomics (R154, R155) -/

/-- The new value and flags, on 64-bit views of w-bit operands. -/
def amoNew (op : AmoOp) (wide : Bool) (m v c : Word) : Word × BitVec 4 :=
  let sx := fun (x : Word) => if wide then x.toInt else (x.setWidth 32).toInt
  match op with
  | .swap => (v, 0)
  | .add => (m + v, 0)
  | .and => (m &&& v, 0)
  | .or => (m ||| v, 0)
  | .xor => (m ^^^ v, 0)
  | .minI => (if sx v < sx m then v else m, 0)
  | .maxI => (if sx m < sx v then v else m, 0)
  | .minN => (if v.ult m then v else m, 0)
  | .maxN => (if m.ult v then v else m, 0)
  | .cas => (if m = c then v else m, 0)
  | .fadd =>
    let F : Fmt := if wide then .f64 else .f32
    fpReg (addV F .ne false (fpVal F m) (fpVal F v))

/-- The register view of the old value (R56). -/
def amoOld (op : AmoOp) (wide : Bool) (m : Word) : Word :=
  if wide then m
  else match op with
    | .minI => sext (m.setWidth 32)
    | .maxI => sext (m.setWidth 32)
    | _ => m

/-- The low bytes of a value at the width of an atomic. -/
def narrow (wide : Bool) (x : Word) : Word := if wide then x else zext (x.setWidth 32)

/-- An atomic: after its checks its destination is empty and its thread waits for the reply. -/
def atomic (op : AmoOp) (d a b : BitVec 5) (q : BitVec 2) (w : BitVec 1) (s : State) : Out :=
  let wide := w == 1
  let size := if wide then 8 else 4
  issue false true 0 [if op = .cas then .both 0 d else .dst 0 d, .src 1 a, .src 2 b] (fun s => do
    let c ← if op = .cas then rd s d else .ok 0
    let ea ← rd s a
    let v ← rd s b
    let x ← s.access s.cur q ea size .atomic anySpace
    if op = .fadd then needFree s
    let o := s.qOrd q
    let s1 := (x.st.keystoneIf (o == .sc)).emptyDest s.cur d
    let wt : Wait := .atomic x.loc x.via ea op wide d (narrow wide v) (narrow wide c) (s.wasFull s.cur d) (o != .loose)
      (s.ticket (o == .sc)) [a, b]
    return (s1.modMe fun c => { c with wait := wt }).callHome (crossesDie s.cur x.via.home) (o == .sc) s.cur x.via.home
      x.loc) s

def execAmoswap (d a b : BitVec 5) (q : BitVec 2) (w : BitVec 1) (s : State) : Out := atomic .swap d a b q w s
def execAmoadd (d a b : BitVec 5) (q : BitVec 2) (w : BitVec 1) (s : State) : Out := atomic .add d a b q w s
def execAmoand (d a b : BitVec 5) (q : BitVec 2) (w : BitVec 1) (s : State) : Out := atomic .and d a b q w s
def execAmoor (d a b : BitVec 5) (q : BitVec 2) (w : BitVec 1) (s : State) : Out := atomic .or d a b q w s
def execAmoxor (d a b : BitVec 5) (q : BitVec 2) (w : BitVec 1) (s : State) : Out := atomic .xor d a b q w s
def execAmominI (d a b : BitVec 5) (q : BitVec 2) (w : BitVec 1) (s : State) : Out := atomic .minI d a b q w s
def execAmomaxI (d a b : BitVec 5) (q : BitVec 2) (w : BitVec 1) (s : State) : Out := atomic .maxI d a b q w s
def execAmominN (d a b : BitVec 5) (q : BitVec 2) (w : BitVec 1) (s : State) : Out := atomic .minN d a b q w s
def execAmomaxN (d a b : BitVec 5) (q : BitVec 2) (w : BitVec 1) (s : State) : Out := atomic .maxN d a b q w s
def execCas (d a b : BitVec 5) (q : BitVec 2) (w : BitVec 1) (s : State) : Out := atomic .cas d a b q w s
def execAmofadd (d a b : BitVec 5) (q : BitVec 2) (w : BitVec 1) (s : State) : Out := atomic .fadd d a b q w s

/-! ## Fences and policy registers (R148, R156, R157) -/

/-- The keystone number of an sc access whose reply a thread waits for. -/
def Wait.number : Wait → Option (BitVec 64)
  | .load _ _ _ _ _ _ _ _ _ n _ => n
  | .storeSc _ n => some n
  | .atomic _ _ _ _ _ _ _ _ _ _ n _ => n
  | _ => none

/-- No sc access with a lower keystone number is still to be performed (R147). -/
def State.inSequence (s : State) (n : BitVec 64) : Bool :=
  !s.threads.any fun x => x.2.live && (match x.2.wait.number with
    | some m => m.ult n
    | none => false)

/-- Some sc access is still to be performed. -/
def State.scPending (s : State) : Bool := s.threads.any fun x => x.2.live && x.2.wait.number.isSome

/-- A fence. An sc fence takes its keystone number when its turn has come, so after every sc access that took one before (R147, R315);
its messages go to the keystone and back. -/
def execFence (q : BitVec 5) (s : State) : Out :=
  issue false true 0 [.file 4 q 3] (fun s => do
    let w := vget 0 s.me.q q.toNat
    need ((qOrder w).toNat < 6 && (qScope w).toNat < 6) .opnd (opndInfo 4 q.toNat)
    let o := orderOf (qOrder w)
    hold (!o.releases || s.me.posted.isEmpty || (o != .sc && scopeOf (qScope w) == .thread)) .postedAny
    hold (o != .sc || !s.scPending) .scPending
    let s1 := if o.acquires && (o == .sc || scopeOf (qScope w) != .thread) then
        s.modMe fun c => { c with posted := c.posted.map Posted.fenced } else s
    let s2 := if o == .sc then (s1.keystoneIf true).toKeystone s.cur else s1
    return finishNo s2 []) s

def execFenceI (s : State) : Out :=
  issue false true 0 [] (fun s => do
    hold s.me.posted.isEmpty .postedAny
    let s1 := { s with
      badL1i := s.badL1i.filter fun x => x.1 != coreOf s.cur
      caches := { s.caches with l1i := Tbl.set [] s.caches.l1i (coreOf s.cur) [] } }
    return finishNo (s1.modMe fun c => { c with fencedAt := s.writes }) []) s

def execQset (q a : BitVec 5) (s : State) : Out :=
  issue false true 0 [.file 4 q 3, .src 1 a] (fun s => do
    let x ← rd s a
    return finishNo (s.modMe fun c => { c with q := vset c.q q.toNat (bits x 0 32) }) [a]) s

def execQget (d q : BitVec 5) (s : State) : Out :=
  issue false true 0 [.dst 0 d, .file 4 q 3] (fun s => .ok (finish s [] d (zext (vget 0 s.me.q q.toNat)))) s

/-! ## Full/empty states (R158, R159) -/

/-- Sets a register full or empty, its value kept: a window register at its writeback, whatever its state is then or was at
issue (DEDUCED, log entry 65). -/
def State.setFull (s : State) (thr : Nat) (r : BitVec 5) (full : Bool) : State :=
  if r = 0 then s
  else if r.toNat < 16 then s.modCtx thr fun c => { c with gFull := vset c.gFull r.toNat full }
  else s.winWrite thr r none full

def fillDrain (full : Bool) (r : BitVec 5) (s : State) : Out :=
  issue false true 0 [.state 0 r] (fun s => .ok (finishNo (s.setFull s.cur r full) [])) s

def execFill (r : BitVec 5) (s : State) : Out := fillDrain true r s
def execDrain (r : BitVec 5) (s : State) : Out := fillDrain false r s

/-- What `peek` reads. -/
def State.peekVal (s : State) (thr : Nat) (a : BitVec 5) : Word :=
  let ones : Word := BitVec.allOnes 64
  if a.toNat < 24 then
    (if (if a = 0 then true else if a.toNat < 16 then vget true (s.ctx thr).gFull a.toNat else s.winFull thr a)
      then 1 else 0)
  else if a.toNat = 24 then
    (if (s.ctx thr).cin.isNone then ones
     else BitVec.ofNat 64 ((s.chan (s.ctx thr).inKey).q.filter Item.isVal).length)
  else match (s.ctx thr).outKey with
    | none => ones
    | some k => BitVec.ofNat 64 (8 - (s.chan k).used)

def execPeek (d a : BitVec 5) (s : State) : Out :=
  issue false true 0 [.dst 0 d, .peek 1 a] (fun s => do
    needFree s
    return finish s [] d (s.peekVal s.cur a)) s

/-! ## Mailbox (R36, R160-R162) -/

/-- A message. -/
def mkMessage (kind flags : Nat) (tag : BitVec 16) (sender : Nat) (payload : Word) : Message :=
  BitVec.ofNat 8 kind ++ BitVec.ofNat 8 flags ++ tag ++ BitVec.ofNat 32 sender ++ payload

/-- Messages held by a core's mailbox or on their way to it. -/
def State.mailUsed (s : State) (core : Nat) : Nat :=
  (s.core core).tm.mailbox.length + (s.flights.filter fun f => f.core == core).length

/-- `msend`. The access code of its ADDR and PERM records is 0 (DESIGN CHOICE, log entry 79). -/
def execMsend (tag a b : BitVec 5) (s : State) : Out :=
  issue false true 0 [.gsrc 0 tag, .src 1 a, .src 2 b] (fun s => do
    needFree s
    let t ← rd s tag
    let x ← rd s a
    let y ← rd s b
    need (x.toNat < 1280) .addr 0 x
    need (s.myPart.hasCore x.toNat) .perm 0 x
    hold (s.mailUsed x.toNat < 32) (.mailboxFull x.toNat)
    let f : Flight := ⟨x.toNat, mkMessage 1 0 (bits t 0 16) s.cur y⟩
    let s1 := s.cargo (dieOfCore (coreOf s.cur)) (dieOfCore x.toNat) 2 0
    return finishNo ({ s1 with flights := s1.flights ++ [f] }.post (.mailDelivery x.toNat)) [tag, a, b]) s

def execMwait (d : BitVec 5) (s : State) : Out :=
  issue false true 0 [.dst 0 d] (fun s => do
    needFree s
    let m := (s.core (coreOf s.cur)).tm.mailbox
    hold (!m.isEmpty) .mailboxEmpty
    return finish s [] d (BitVec.ofNat 64 m.length)) s

/-- `mget`. With d and h alike its OPND record names field 1, with their code (DESIGN CHOICE, log entry 79). -/
def execMget (d h : BitVec 5) (s : State) : Out :=
  issue false true 0 [.dst 0 d, .dst 1 h, .differ 1 d h] (fun s => do
    needFree s
    match (s.core (coreOf s.cur)).tm.mailbox with
    | [] => .error (.park .mailboxEmpty)
    | m :: rest =>
      let s1 := ((s.modTm (coreOf s.cur) fun t => { t with mailbox := rest }).post (.mailDelivery (coreOf s.cur))).post
        (.pendingDelivery (coreOf s.cur))
      return (((s1.dest s.cur d (bits m 0 64)).dest s.cur h (bits m 64 64)).advance s.cur)) s

/-! ## Arrival words and waiting tasks (R163-R167) -/

def execArm (a b : BitVec 5) (s : State) : Out :=
  issue false true 0 [.src 1 a, .src 2 b] (fun s => do
    let ea ← rd s a
    let v ← rd s b
    let x ← s.scratch s.cur false ea 16 Acc.store.code
    let core := coreOf s.cur
    let s1 := (x.st.performAll s.cur).spadWrite core ea.toNat (toBytes 4 v ++ toBytes 4 (0 : Word32))
    return finishNo (s1.spadWrite core (ea.toNat + 14) [0, 0]) [a, b]) s

/-- `arrive`. The access code of its records is that of a store (DESIGN CHOICE, log entry 79). -/
def execArrive (q a b : BitVec 5) (s : State) : Out :=
  issue false true 0 [.file 4 q 3, .src 1 a, .src 2 b] (fun s => do
    let wa ← rd s a
    let n ← rd s b
    let qs : BitVec 2 := bits q 0 2
    let x ← s.access s.cur qs wa 16 .store spadSpace
    roomToPost s
    let p : Posted := { loc := x.loc, bytes := [], arrival := some (x.loc, bits n 0 32), order := s.qOrd qs
                        scope := s.qScp qs, via := x.via, sent := false, joined := false, led := false, kept := false }
    return ((x.st.consume s.cur [a, b]).postWrite p).advance s.cur) s

/-- Sets a thread's watcher bit of a word (R37). -/
def State.setWatcher (s : State) (core a slot : Nat) : State :=
  let w : BitVec 16 := ofBytes 16 (s.spadRead core (a + 12) 2)
  s.spadPut core (a + 12) (toBytes 2 (w ||| ((1 : BitVec 16) <<< slot)))

def execAwait (d a b : BitVec 5) (s : State) : Out :=
  issue false true 0 [.dst 0 d, .src 1 a, .src 2 b] (fun s => do
    let ea ← rd s a
    let v ← rd s b
    let x ← s.scratch s.cur false ea 16 Acc.load.code
    let core := coreOf s.cur
    let s0 := x.st.performAll s.cur
    match s0.badUnit x.loc 16 with
    | some u => .error (.bad u.1 u.2 0 ea)
    | none => pure ()
    let s1 := s0.correct s.me.part x.loc 16
    let gen := s1.awField core ea.toNat 8
    if gen ≠ bits v 0 32 then return finish s1 [a, b] d (zext gen)
    else return (s1.setWatcher core ea.toNat (slotOf s.cur)).modMe fun c =>
      { c with wait := .await ea.toNat gen d [a, b] }) s

/-- A state code of R39. -/
def WtState.code : WtState → Word
  | .free => 0
  | .armed => 1
  | .fired => 2

/-- Fills an entry, and fires it at once if it meets its condition (R166). -/
def State.addEntry (s : State) (core k : Nat) (e : WtEntry) : State :=
  let count := s.awField core (16 * e.word.toNat) 4
  let fires := e.threshold ≠ 0 ∧ e.threshold.toNat ≤ count.toNat
  let s1 := s.modTm core fun m =>
    { m with wt := Tbl.set WtEntry.zero m.wt k (if fires then { e with state := .fired } else e) }
  if fires then s1.post (.contextClaim core) else s1

def execWtadd (d a : BitVec 5) (s : State) : Out :=
  issue false true 0 [.dst 0 d, .src 1 a] (fun s => do
    let ea ← rd s a
    let core := coreOf s.cur
    let x ← s.scratch s.cur false ea 32 Acc.load.code
    let s0 := x.st.performAll s.cur
    match s0.badUnit (.spad core ea.toNat) 32 with
    | some u => .error (.bad u.1 u.2 0 ea)
    | none => pure ()
    let s1 := s0.correct s.me.part x.loc 32
    let f := fun o n => ofBytesNat (s1.spadRead core (ea.toNat + o) n)
    let aw := f 0 4
    let entry : Word := BitVec.ofNat 64 (f 8 8)
    need (aw % 16 == 0) .align 0 (BitVec.ofNat 64 aw)
    need (aw + 16 ≤ 0x6_0000) .spad 0 (BitVec.ofNat 64 aw)
    checkTarget entry
    need (f 24 8 == 0) .opnd (opndInfo 1 0)
    match (List.range 64).find? fun k => (Tbl.get WtEntry.zero (s1.core core).tm.wt k).state == .free with
    | none => return finish s1 [a] d (BitVec.allOnes 64)
    | some k =>
      let e : WtEntry := { state := .armed, word := BitVec.ofNat 15 (aw / 16), threshold := BitVec.ofNat 32 (f 4 4)
                           gen := s1.awField core aw 8, entry := bits entry 0 57, arg := BitVec.ofNat 64 (f 16 8)
                           tasid := s.me.tasid }
      return finish (s1.addEntry core k e) [a] d (BitVec.ofNat 64 k)) s

/-- `wtdel`. The entry may be the last thing that the core holds for its team, where a thread of another team deletes it (R363). -/
def execWtdel (d a : BitVec 5) (s : State) : Out :=
  issue false true 0 [.dst 0 d, .src 1 a] (fun s => do
    let x ← rd s a
    need (x.toNat < 64) .opnd (opndInfo 1 0)
    let core := coreOf s.cur
    let e := Tbl.get WtEntry.zero (s.core core).tm.wt x.toNat
    let s1 := s.modTm core fun m => { m with wt := Tbl.set WtEntry.zero m.wt x.toNat WtEntry.zero }
    return (finish s1 [a] d e.state.code).giveUp core) s

/-! ## Replies (R24, R147, R149, R155) -/

/-- A reply that meets an uncorrectable error: MEMERR, precisely, with the destination as it was (R143, R355). -/
def State.memErr (s : State) (thr : Nat) (unit : Nat × Nat) (d : BitVec 5) (was : Bool) (info ea : Word) : State :=
  (((s.logError (s.ctx thr).part (coreOf thr) unit.1 unit.2).undoDest thr d was).modCtx thr fun c =>
    { c with wait := .ready }).trapAt thr .memerr info ea

/-- The thread's own posted writes that a load reads, or follows (R304, R305). -/
def State.joinOwn (s : State) (thr : Nat) (l : Loc) (n : Nat) (strong acq : Bool) : State :=
  s.modCtx thr fun c => { c with posted := c.posted.map fun p => p.readBy l n strong acq }

/-- A posted write's bytes are all that a load of n bytes at a place reads. -/
def Posted.covers (p : Posted) (l : Loc) (n : Nat) : Bool :=
  match l, p.loc with
  | .phys a, .phys b => b ≤ a && a + n ≤ b + p.bytes.length
  | .spad c a, .spad k b => c == k && b ≤ a && a + n ≤ b + p.bytes.length
  | _, _ => false

/-- A load may read now: none of the thread's posted writes touches its words, or the last that does covers it with its bytes (R149).
Otherwise that write, or its arrival, goes first (K1 of R304, R311). -/
def State.forwards (s : State) (thr : Nat) (l : Loc) (n : Nat) : Bool :=
  match (s.ctx thr).posted.reverse.find? fun p => p.meets l n with
  | none => true
  | some p => p.covers l n && !(match p.arrival with
    | some (w, _) => (wordsOf w 16).any (wordsOf l n).contains
    | none => false)

/-- A load is performed: what it reads, and the state. -/
def State.loadAt (s : State) (thr : Nat) (l : Loc) (via : Via) (k : LdKind) (strong acq sc : Bool) : Answer × State :=
  let s := if sc then s.performAll thr else s
  match s.badUnit l k.size with
  | some u => (⟨0, some u, 0, 0⟩, s)
  | none =>
    let s := s.cacheLoad (s.ctx thr).part via l k.size
    (⟨0, none, k.extend (s.readOwn thr l k.size), 0⟩, s.joinOwn thr l k.size strong acq)

/-- An atomic is performed: one event at the home. The thread's posted writes are performed first, of whatever order (DESIGN
CHOICE, log entry 11). -/
def State.atomicAt (s : State) (thr : Nat) (l : Loc) (via : Via) (op : AmoOp) (wide : Bool) (v c : Word) (strong : Bool) :
    Answer × State :=
  let s := s.performAll thr
  let s := if strong then s.crossDie (dieOfCore (coreOf thr)) (dieOfCore via.home) else s
  let n := if wide then 8 else 4
  match s.badUnit l n with
  | some u => (⟨2, some u, 0, 0⟩, s)
  | none =>
    let s := s.correct (s.ctx thr).part l n
    let m : Word := ofBytes 64 (s.read l n)
    let r := amoNew op wide m v c
    (⟨2, none, amoOld op wide m, r.2⟩, (s.cacheAtomic via l n).write l (toBytes n r.1))

/-- The answer of a load, an sc store or an atomic reaches its thread. -/
def State.takeAnswer (s : State) (thr : Nat) (a : Answer) (ea : Word) (d : BitVec 5) (was : Bool) (srcs : List (BitVec 5)) :
    State :=
  match a.bad with
  | some u => s.memErr thr u d was a.code ea
  | none =>
    if a.code = 0 then ((s.consumeLate thr srcs).reply thr d a.old).resume thr
    else if a.code = 1 then s.resume thr
    else
    let fpe := (s.ctx thr).fpe a.flags
    ((((s.modCtx thr fun c => c.raise a.flags).consumeLate thr srcs).reply thr d a.old).resume thr).fpeTrap thr fpe

/-- What was performed at a home is answered: at once, or when the flit with the reply has crossed (R434); a load's reply brings a
line with it (R391). -/
def State.answerFrom (s : State) (far : Bool) (thr home : Nat) (l : Loc) (a : Answer) (ea : Word) (d : BitVec 5) (was : Bool)
    (srcs : List (BitVec 5)) : State :=
  if far then
    (s.modCtx thr fun c => { c with wait := .answered a ea d was srcs }).callBack thr home l (if a.code = 0 then 192 else 0)
  else s.takeAnswer thr a ea d was srcs

/-- The event of a load at its home. -/
def State.loadReply (s : State) (thr : Nat) (l : Loc) (via : Via) (ea : Word) (k : LdKind) (d : BitVec 5)
    (was strong acq far sc : Bool) (srcs : List (BitVec 5)) : State :=
  let r := s.loadAt thr l via k strong acq sc
  r.2.answerFrom far thr via.home l r.1 ea d was srcs

/-- The event of an atomic at its home. -/
def State.atomicReply (s : State) (thr : Nat) (l : Loc) (via : Via) (ea : Word) (op : AmoOp) (wide : Bool) (d : BitVec 5)
    (v c : Word) (was strong : Bool) (srcs : List (BitVec 5)) : State :=
  let r := s.atomicAt thr l via op wide v c strong
  r.2.answerFrom (crossesDie thr via.home) thr via.home l r.1 ea d was srcs

/-- The event of an sc store at its home. -/
def State.storeReply (s : State) (thr : Nat) (p : Posted) : State :=
  (((s.performAll thr).crossDie (dieOfCore (coreOf thr)) (dieOfCore p.via.home)).perform p).answerFrom
    (crossesDie thr p.via.home) thr p.via.home p.loc ⟨1, none, 0, 0⟩ 0 0 false []

/-- The reply that a thread waits for. An sc access is performed in keystone order: one whose turn has not come waits on, and so does
a load that one of the thread's posted writes goes before. -/
def execReplyWriteback (thr : Nat) (s : State) : Out :=
  if !(s.ctx thr).wait.number.all s.inSequence then .next (s.post (.reply thr))
  else match (s.ctx thr).wait with
    | .load l via ea k d was strong acq far sc srcs =>
      if sc.isNone && !s.forwards thr l k.size then .next (s.post (.reply thr))
      else .next (s.loadReply thr l via ea k d was strong acq far sc.isSome srcs)
    | .storeSc p _ => .next (s.storeReply thr p)
    | .atomic l via ea op wide d v c was strong _ srcs => .next (s.atomicReply thr l via ea op wide d v c was strong srcs)
    | .answered a ea d was srcs => .next (s.takeAnswer thr a ea d was srcs)
    | .finish f => .next ((s.modCtx thr fun c => { c with wait := .ready }).fpeTrap thr f)
    | _ => .next s

/-! ## Posted writes and updates (R150, R304, R351) -/

/-- A posted write leaves its die as a strong update, with a message (R351, R390). -/
def State.sendUpdate (s : State) (thr idx : Nat) (p : Posted) : State :=
  let o := dieOfCore (coreOf thr)
  let r := dieOfCore p.via.home
  let clk := vset (s.die o).clock o (vget 0 (s.die o).clock o + 1)
  let s := s.cargo o r p.loc.vert p.bytes.length
  (((s.modDie o fun d => { d with clock := clk }).modDie r fun d =>
      { d with updates := d.updates ++ [⟨o, clk, thr, p⟩] }).modCtx thr fun c =>
    { c with posted := c.posted.set idx { p with sent := true } }).post (.updateApply r)

/-- A die holds 2^16 unapplied updates from another: the sender stalls (R351). -/
def State.stalls (s : State) (from' die : Nat) : Bool :=
  65536 ≤ ((s.die die).updates.filter fun u => u.origin == from').length

/-- A posted write is performed. One to another die waits while its flit would wait (R393), or the sender stalls. -/
def execPostedWritePerform (thr idx : Nat) (s : State) : Out :=
  let ps := (s.ctx thr).posted
  match ps[idx]? with
  | none => .next s
  | some p =>
    let from' := dieOfCore (coreOf thr)
    let home := dieOfCore p.via.home
    if p.sent || (ps.take idx).any fun a => a.before p then .next s
    else if s.linksWait from' home p.loc.vert || (p.strong && from' != home && s.stalls from' home) then
      .next (s.post (.postedWrite thr))
    else if p.strong && from' != home then .next (s.sendUpdate thr idx p)
    else .next (((s.modCtx thr fun c => { c with posted := c.posted.eraseIdx idx }).performFrom thr p).afterPosted thr)

def execUpdateApply (die : Nat) (s : State) : Out :=
  let s := s.applyUpdate die
  .next (if (s.die die).updates.isEmpty then s else s.post (.updateApply die))

/-! ## Deliveries (R36, R249) -/

def execMailboxMessageDelivery (core : Nat) (s : State) : Out :=
  match s.flights.find? fun f => f.core == core with
  | none => .next s
  | some f =>
    if 32 ≤ (s.core core).tm.mailbox.length then .next s
    else
      let s := s.performCausal (bits f.msg 64 32 : Word32).toNat
      .next ({ s with flights := s.flights.eraseP fun g => g.core == core }.modTm core fun m =>
        { m with mailbox := m.mailbox ++ [f.msg] })

/-- A value or a mark arrives at a queue, after the accesses that precede its push (R249, R351). A queue that `chclose cin`
discarded discards it (R250). -/
def execChannelPushDelivery (chan : Nat) (s : State) : Out :=
  match (s.chan chan).inFlight with
  | [] => .next s
  | x :: rest =>
    .next ((s.beforePush chan).modChan chan fun ch =>
      { ch with inFlight := rest, q := if ch.closed then ch.q else ch.q ++ [x] })

end Sys2Proof.Machine
end

