-- ==== Sys2Proof/Machine/Special.lean ====
section
/-! DEFINITION. The special functions of R190-R192: exact dyadic steps rounded to 24 bits with an unbounded exponent, and
one final rounding into binary32. The tables are round_ne into binary32 of the exact numbers of R191, computed outside
the model from R191 alone. -/

namespace Sys2Proof.Machine

/-- T[j] = 2^(j/64) (R191), as binary32 patterns. -/
def tabT : List Nat :=
  [0x3F80_0000, 0x3F81_64D2, 0x3F82_CD87, 0x3F84_3A29, 0x3F85_AAC3, 0x3F87_1F62, 0x3F88_980F, 0x3F8A_14D5,
   0x3F8B_95C2, 0x3F8D_1ADF, 0x3F8E_A43A, 0x3F90_31DC, 0x3F91_C3D3, 0x3F93_5A2B, 0x3F94_F4F0, 0x3F96_942D,
   0x3F98_37F0, 0x3F99_E046, 0x3F9B_8D3A, 0x3F9D_3EDA, 0x3F9E_F532, 0x3FA0_B051, 0x3FA2_7043, 0x3FA4_3516,
   0x3FA5_FED7, 0x3FA7_CD94, 0x3FA9_A15B, 0x3FAB_7A3A, 0x3FAD_583F, 0x3FAF_3B79, 0x3FB1_23F6, 0x3FB3_11C4] ++
  [0x3FB5_04F3, 0x3FB6_FD92, 0x3FB8_FBAF, 0x3FBA_FF5B, 0x3FBD_08A4, 0x3FBF_179A, 0x3FC1_2C4D, 0x3FC3_46CD,
   0x3FC5_672A, 0x3FC7_8D75, 0x3FC9_B9BE, 0x3FCB_EC15, 0x3FCE_248C, 0x3FD0_6334, 0x3FD2_A81E, 0x3FD4_F35B,
   0x3FD7_44FD, 0x3FD9_9D16, 0x3FDB_FBB8, 0x3FDE_60F5, 0x3FE0_CCDF, 0x3FE3_3F89, 0x3FE5_B907, 0x3FE8_396A,
   0x3FEA_C0C7, 0x3FED_4F30, 0x3FEF_E4BA, 0x3FF2_8177, 0x3FF5_257D, 0x3FF7_D0DF, 0x3FFA_83B3, 0x3FFD_3E0C]

/-- G[j] = 1 / (1 + j/64) (R191), as binary32 patterns. -/
def tabG : List Nat :=
  [0x3F80_0000, 0x3F7C_0FC1, 0x3F78_3E10, 0x3F74_898D, 0x3F70_F0F1, 0x3F6D_7304, 0x3F6A_0EA1, 0x3F66_C2B4,
   0x3F63_8E39, 0x3F60_7038, 0x3F5D_67C9, 0x3F5A_740E, 0x3F57_9436, 0x3F54_C77B, 0x3F52_0D21, 0x3F4F_6475,
   0x3F4C_CCCD, 0x3F4A_4588, 0x3F47_CE0C, 0x3F45_65C8, 0x3F43_0C31, 0x3F40_C0C1, 0x3F3E_82FA, 0x3F3C_5264,
   0x3F3A_2E8C, 0x3F38_1703, 0x3F36_0B61, 0x3F34_0B41, 0x3F32_1643, 0x3F30_2C0B, 0x3F2E_4C41, 0x3F2C_7692] ++
  [0x3F2A_AAAB, 0x3F28_E83F, 0x3F27_2F05, 0x3F25_7EB5, 0x3F23_D70A, 0x3F22_37C3, 0x3F20_A0A1, 0x3F1F_1166,
   0x3F1D_89D9, 0x3F1C_09C1, 0x3F1A_90E8, 0x3F19_1F1A, 0x3F17_B426, 0x3F16_4FDA, 0x3F14_F209, 0x3F13_9A86,
   0x3F12_4925, 0x3F10_FDBC, 0x3F0F_B824, 0x3F0E_7835, 0x3F0D_3DCB, 0x3F0C_08C1, 0x3F0A_D8F3, 0x3F09_AE41,
   0x3F08_8889, 0x3F07_67AB, 0x3F06_4B8A, 0x3F05_3408, 0x3F04_2108, 0x3F03_126F, 0x3F02_0821, 0x3F01_0204]

/-- L[j] = −log2(G[j]) (R191), as binary32 patterns. -/
def tabL : List Nat :=
  [0x0000_0000, 0x3CB7_3CB3, 0x3D35_D690, 0x3D87_59C9, 0x3DB3_1FB7, 0x3DDE_420E, 0x3E04_62C4, 0x3E19_5751,
   0x3E2E_00D1, 0x3E42_615F, 0x3E56_7AEF, 0x3E6A_4F70, 0x3E7D_E0B5, 0x3E88_983F, 0x3E92_203D, 0x3E9B_8925,
   0x3EA4_D3C2, 0x3EAE_00D1, 0x3EB7_1110, 0x3EC0_052D, 0x3EC8_DDD3, 0x3ED1_9BAF, 0x3EDA_3F60, 0x3EE2_C97E,
   0x3EEB_3A9E, 0x3EF3_9355, 0x3EFB_D42A, 0x3F01_FED4, 0x3F06_0828, 0x3F0A_0650, 0x3F0D_F98A, 0x3F11_E20E] ++
  [0x3F15_C01A, 0x3F19_93E4, 0x3F1D_5DA0, 0x3F21_1D84, 0x3F24_D3C3, 0x3F28_808D, 0x3F2C_2410, 0x3F2F_BE7F,
   0x3F33_5004, 0x3F36_D8CA, 0x3F3A_58FE, 0x3F3D_D0C9, 0x3F41_404E, 0x3F44_A7BB, 0x3F48_0731, 0x3F4B_5ED6,
   0x3F4E_AECF, 0x3F51_F740, 0x3F55_3847, 0x3F58_720A, 0x3F5B_A4A5, 0x3F5E_D038, 0x3F61_F4E5, 0x3F65_12C6,
   0x3F68_29FA, 0x3F6B_3AA0, 0x3F6E_44CF, 0x3F71_48A2, 0x3F74_4636, 0x3F77_3DA2, 0x3F7A_2F03, 0x3F7D_1A71]

/-- P[j] = 1 / (1 + (2j + 1)/256) (R191), as binary32 patterns. -/
def tabP : List Nat :=
  [0x3F7F_00FF, 0x3F7D_08E5, 0x3F7B_1885, 0x3F79_2FB2, 0x3F77_4E40, 0x3F75_7404, 0x3F73_A0D5, 0x3F71_D48C,
   0x3F70_0F01, 0x3F6E_500F, 0x3F6C_9791, 0x3F6A_E564, 0x3F69_3965, 0x3F67_9373, 0x3F65_F36D, 0x3F64_5933,
   0x3F62_C4A7, 0x3F61_35AA, 0x3F5F_AC1F, 0x3F5E_27EB, 0x3F5C_A8F1, 0x3F5B_2F17, 0x3F59_BA42, 0x3F58_4A5A,
   0x3F56_DF44, 0x3F55_78E9, 0x3F54_1733, 0x3F52_BA08, 0x3F51_6154, 0x3F50_0D01, 0x3F4E_BCF9, 0x3F4D_7127] ++
  [0x3F4C_2978, 0x3F4A_E5D8, 0x3F49_A634, 0x3F48_6A79, 0x3F47_3294, 0x3F45_FE74, 0x3F44_CE08, 0x3F43_A13E,
   0x3F42_7806, 0x3F41_5250, 0x3F40_300C, 0x3F3F_112B, 0x3F3D_F59D, 0x3F3C_DD53, 0x3F3B_C841, 0x3F3A_B656,
   0x3F39_A786, 0x3F38_9BC3, 0x3F37_9301, 0x3F36_8D31, 0x3F35_8A48, 0x3F34_8A3A, 0x3F33_8CFA, 0x3F32_927C,
   0x3F31_9AB6, 0x3F30_A59B, 0x3F2F_B322, 0x3F2E_C33E, 0x3F2D_D5E6, 0x3F2C_EB10, 0x3F2C_02B0, 0x3F2B_1CBE] ++
  [0x3F2A_392F, 0x3F29_57FB, 0x3F28_7917, 0x3F27_9C7B, 0x3F26_C21E, 0x3F25_E9F7, 0x3F25_13FD, 0x3F24_4029,
   0x3F23_6E72, 0x3F22_9ECF, 0x3F21_D13A, 0x3F21_05A9, 0x3F20_3C17, 0x3F1F_747A, 0x3F1E_AECD, 0x3F1D_EB07,
   0x3F1D_2922, 0x3F1C_6917, 0x3F1B_AADF, 0x3F1A_EE73, 0x3F1A_33CD, 0x3F19_7AE7, 0x3F18_C3BB, 0x3F18_0E41,
   0x3F17_5A75, 0x3F16_A850, 0x3F15_F7CC, 0x3F15_48E5, 0x3F14_9B93, 0x3F13_EFD2, 0x3F13_459C, 0x3F12_9CEC] ++
  [0x3F11_F5BD, 0x3F11_5009, 0x3F10_ABCC, 0x3F10_0901, 0x3F0F_67A2, 0x3F0E_C7AB, 0x3F0E_2918, 0x3F0D_8BE3,
   0x3F0C_F009, 0x3F0C_5584, 0x3F0B_BC51, 0x3F0B_246B, 0x3F0A_8DCD, 0x3F09_F874, 0x3F09_645C, 0x3F08_D181,
   0x3F08_3FDE, 0x3F07_AF70, 0x3F07_2033, 0x3F06_9223, 0x3F06_053C, 0x3F05_797C, 0x3F04_EEDD, 0x3F04_655E,
   0x3F03_DCF9, 0x3F03_55AD, 0x3F02_CF75, 0x3F02_4A4E, 0x3F01_C636, 0x3F01_4328, 0x3F00_C122, 0x3F00_4020]

/-- S[j] = 1 / √(1 + (2j + 1)/64) (R191), as binary32 patterns. -/
def tabS : List Nat :=
  [0x3F7E_05EC, 0x3F7A_33F9, 0x3F76_8CDC, 0x3F73_0D8A, 0x3F6F_B345, 0x3F6C_7B90, 0x3F69_642A, 0x3F66_6B02,
   0x3F63_8E39, 0x3F60_CC16, 0x3F5E_2305, 0x3F5B_9193, 0x3F59_166B, 0x3F56_B051, 0x3F54_5E22, 0x3F52_1ED0,
   0x3F4F_F162, 0x3F4D_D4ED, 0x3F4B_C89B, 0x3F49_CBA2, 0x3F47_DD45, 0x3F45_FCD6, 0x3F44_29AF, 0x3F42_6337,
   0x3F40_A8DE, 0x3F3E_FA1C, 0x3F3D_5671, 0x3F3B_BD67, 0x3F3A_2E8C, 0x3F38_A975, 0x3F37_2DBF, 0x3F35_BB09] ++
  [0x3F34_50FC, 0x3F32_EF41, 0x3F31_9589, 0x3F30_4387, 0x3F2E_F8F2, 0x3F2D_B587, 0x3F2C_7904, 0x3F2B_432A,
   0x3F2A_13C0, 0x3F28_EA8C, 0x3F27_C759, 0x3F26_A9F4, 0x3F25_922C, 0x3F24_7FD3, 0x3F23_72BD, 0x3F22_6ABE,
   0x3F21_67AF, 0x3F20_6968, 0x3F1F_6FC4, 0x3F1E_7AA0, 0x3F1D_89D9, 0x3F1C_9D4E, 0x3F1B_B4E1, 0x3F1A_D073,
   0x3F19_EFE6, 0x3F19_1320, 0x3F18_3A05, 0x3F17_647C, 0x3F16_926C, 0x3F15_C3BC, 0x3F14_F857, 0x3F14_3026] ++
  [0x3F13_6B13, 0x3F12_A90B, 0x3F11_E9F9, 0x3F11_2DCA, 0x3F10_746D, 0x3F0F_BDCE, 0x3F0F_09DD, 0x3F0E_5889,
   0x3F0D_A9C2, 0x3F0C_FD79, 0x3F0C_539F, 0x3F0B_AC25, 0x3F0B_06FD, 0x3F0A_641A, 0x3F09_C36D, 0x3F09_24EC,
   0x3F08_8889, 0x3F07_EE37, 0x3F07_55ED, 0x3F06_BF9E, 0x3F06_2B40, 0x3F05_98C7, 0x3F05_082A, 0x3F04_795F,
   0x3F03_EC5C, 0x3F03_6117, 0x3F02_D788, 0x3F02_4FA6, 0x3F01_C967, 0x3F01_44C4, 0x3F00_C1B4, 0x3F00_4030]

/-- C1, C2, C3; D1 to D4; K3, K5, K7, KL (R191), as binary32 patterns. -/
def patC1 : Nat := 0x3F31_7218
def patC2 : Nat := 0x3E75_FDF0
def patC3 : Nat := 0x3D63_5847
def patD1 : Nat := 0x3FB8_AA3B
def patD2 : Nat := 0xBF38_AA3B
def patD3 : Nat := 0x3EF6_384F
def patD4 : Nat := 0xBEB8_AA3B
def patK3 : Nat := 0xBEAA_AAAB
def patK5 : Nat := 0x3E08_8889
def patK7 : Nat := 0xBD5D_0DD1
def patKL : Nat := 0xC038_AA3B

/-- A finite binary32 pattern as an exact value. -/
def dyOf32 (x : Nat) : Dy :=
  match decodeF .f32 x with
  | .fin neg m e => Dy.of neg m e
  | _ => ⟨0, 0⟩

/-- An entry of a table of R191. -/
def tabAt (t : List Nat) (j : Nat) : Dy := dyOf32 (t.getD j 0)

/-- Round to nearest even into binary32 with an unbounded exponent range (R190). -/
def rnd24 (a : Dy) : Dy :=
  if a.i = 0 then ⟨0, 0⟩
  else
    let neg := decide (a.i < 0)
    let r := roundSig 24 none .ne neg a.i.natAbs a.e false
    Dy.of neg r.1 r.2.1

def Dy.opp (a : Dy) : Dy := ⟨-a.i, a.e⟩
def dyOne : Dy := ⟨1, 0⟩
def dyFma (a b c : Dy) : Dy := rnd24 ((a.mul b).add c)
def dyMul (a b : Dy) : Dy := rnd24 (a.mul b)
def dyAdd (a b : Dy) : Dy := rnd24 (a.add b)
def Dy.scale (a : Dy) (n : Int) : Dy := ⟨a.i, a.e + n⟩

/-- The quotient a / b rounded as `rnd24`, b ≠ 0. -/
def dyDiv (a b : Dy) : Dy :=
  if a.i = 0 then ⟨0, 0⟩
  else
    let neg := decide (a.i < 0) != decide (b.i < 0)
    let k := 28 + Nat.log2 b.i.natAbs
    let num := a.i.natAbs * 2 ^ k
    let r := roundSig 24 none .ne neg (num / b.i.natAbs) (a.e - b.e - k) (num % b.i.natAbs != 0)
    Dy.of neg r.1 r.2.1

/-- ⌊a⌋ and the integer nearest a, ties to even, of a dyadic value. -/
def Dy.floor (a : Dy) : Int := if 0 ≤ a.e then a.i * 2 ^ a.e.toNat else a.i / 2 ^ (-a.e).toNat

def Dy.nearest (a : Dy) : Int :=
  if 0 ≤ a.e then a.i * 2 ^ a.e.toNat
  else
    let neg := decide (a.i < 0)
    let r := roundShift .ne neg a.i.natAbs (-a.e).toNat false
    if neg then -(r.1 : Int) else r.1

/-- The exact value of a binary32 result pattern equals the dyadic value. -/
def sameValue (bits : Nat) (a : Dy) : Bool :=
  match decodeF .f32 bits with
  | .fin neg m e => (Dy.of neg m e).cmp a == .eq
  | _ => false

/-- The last step of R190: one rounding into binary32; NX exactly when the returned value differs from the true value
(`exact` tells it of the returned pattern); UF with NX on a result below the smallest normal (R97, DEDUCED, log entry 50). -/
def finish32 (neg : Bool) (a : Dy) (exact : Nat → Bool) : Nat × BitVec 4 :=
  let r := roundDy .f32 .ne false neg a
  if r.2 &&& fOV != 0 then r
  else if exact r.1 then (r.1, 0)
  else (r.1, fNX ||| (if r.1 % Fmt.f32.signBit < 2 ^ 23 then fUF else 0))

/-- The body of `vexp2` (R192): 2^x before the last rounding, for −151 ≤ x < 128. -/
def exp2Core (x : Dy) : Dy :=
  let k := (x.scale 6).nearest
  let n := k / 64
  let j := (k % 64).toNat
  let v := x.add ⟨-k, -6⟩
  let q := dyFma (dyOf32 patC3) v (dyOf32 patC2)
  let q := dyFma q v (dyOf32 patC1)
  let q := dyMul q v
  let t := tabAt tabT j
  (dyFma t q t).scale n

/-- 2^x of an integer x is exact; of any other dyadic x it is irrational. -/
def Dy.isInt (x : Dy) : Bool := 0 ≤ x.e || x.i % 2 ^ (-x.e).toNat == 0

/-- floor(log2 |x|) and m = |x| / 2^e of a finite nonzero m0 × 2^e0 (R190). -/
def normExp (m0 : Nat) (e0 : Int) : Int × Dy := (Nat.log2 m0 + e0, ⟨m0, -(Nat.log2 m0 : Int)⟩)

def exp2V (x : Nat) : Nat × BitVec 4 :=
  let a := decodeF .f32 x
  match firstNan .f32 [a] with
  | some r => r
  | none =>
    match a with
    | .inf true => zeroOf .f32 false
    | .fin neg m e =>
      let d := Dy.of neg m e
      if d.cmp ⟨128, 0⟩ != .lt then (overflowMag .f32 false .ne false, fOV ||| fNX)
      else if d.cmp ⟨-151, 0⟩ == .lt then (0, fUF ||| fNX)
      else finish32 false (exp2Core d) fun r => d.isInt && sameValue r ⟨1, d.floor⟩
    | _ => infOf .f32 false

def log2V (x : Nat) : Nat × BitVec 4 :=
  let a := decodeF .f32 x
  match firstNan .f32 [a] with
  | some r => r
  | none =>
    match a with
    | .fin neg m0 e0 =>
      if m0 = 0 then infOf .f32 true
      else if neg then invalidNan .f32
      else
        let e := (normExp m0 e0).1
        let m := (normExp m0 e0).2
        let j := ((m.add ⟨-1, 0⟩).scale 6).floor.toNat
        let u := dyFma m (tabAt tabG j) ⟨-1, 0⟩
        let q := dyFma (dyOf32 patD4) u (dyOf32 patD3)
        let q := dyFma q u (dyOf32 patD2)
        let q := dyFma q u (dyOf32 patD1)
        let q := dyMul q u
        let res := dyAdd (dyAdd ⟨e, 0⟩ (tabAt tabL j)) q
        finish32 false res fun r => m.cmp dyOne == .eq && sameValue r ⟨e, 0⟩
    | .inf neg => if neg then invalidNan .f32 else infOf .f32 false
    | _ => invalidNan .f32

/-- The two Newton steps of `vrcp`. -/
def rcpCore (m : Dy) : Dy :=
  let j := ((m.add ⟨-1, 0⟩).scale 7).floor.toNat
  let y := tabAt tabP j
  let y := dyFma y (dyFma m.opp y dyOne) y
  dyFma y (dyFma m.opp y dyOne) y

def rcpV (x : Nat) : Nat × BitVec 4 :=
  let a := decodeF .f32 x
  match firstNan .f32 [a] with
  | some r => r
  | none =>
    match a with
    | .inf neg => zeroOf .f32 neg
    | .fin neg m0 e0 =>
      if m0 = 0 then infOf .f32 neg
      else
        let e := (normExp m0 e0).1
        let y := (rcpCore (normExp m0 e0).2).scale (-e)
        let x := Dy.of neg m0 e0
        finish32 neg (if neg then y.opp else y) fun r => (((dyOf32 r).mul x).cmp dyOne) == .eq
    | _ => invalidNan .f32

/-- One Newton step of `vrsqrt`. -/
def rsqrtStep (m y : Dy) : Dy :=
  let h := dyMul y y
  let h := dyFma m.opp h dyOne
  dyFma (dyMul y h) ⟨1, -1⟩ y

def rsqrtV (x : Nat) : Nat × BitVec 4 :=
  let a := decodeF .f32 x
  match firstNan .f32 [a] with
  | some r => r
  | none =>
    match a with
    | .inf neg => if neg then invalidNan .f32 else zeroOf .f32 false
    | .fin neg m0 e0 =>
      if m0 = 0 then infOf .f32 neg
      else if neg then invalidNan .f32
      else
        let ex := (normExp m0 e0).1
        let m1 := (normExp m0 e0).2
        let odd := ex % 2 = 1
        let m := if odd then m1.scale 1 else m1
        let e := if odd then ex - 1 else ex
        let j := ((m.add ⟨-1, 0⟩).scale 5).floor.toNat
        let y := rsqrtStep m (rsqrtStep m (tabAt tabS j))
        let x := Dy.of false m0 e0
        finish32 false (y.scale (-(e / 2))) fun r =>
          let v := dyOf32 r
          ((v.mul v).mul x).cmp dyOne == .eq
    | _ => invalidNan .f32

/-- `vtanh` by the steps of R192. For some arguments just above 2^(−4) what these steps give lies further than 4 ulp from tanh x, the
bound of R193: the steps are followed (DESIGN CHOICE, log entry 80). -/
def tanhV (x : Nat) : Nat × BitVec 4 :=
  let a := decodeF .f32 x
  match firstNan .f32 [a] with
  | some r => r
  | none =>
    match a with
    | .inf neg => ((if neg then Fmt.f32.signBit else 0) + 0x3F80_0000, 0)
    | .fin neg m0 e0 =>
      if m0 = 0 then zeroOf .f32 neg
      else
        let v := Dy.of false m0 e0
        let y :=
          if v.cmp ⟨10, 0⟩ != .lt then dyOne
          else if v.cmp ⟨1, -4⟩ == .lt then
            let s := dyMul v v
            let q := dyFma (dyOf32 patK7) s (dyOf32 patK5)
            let q := dyFma q s (dyOf32 patK3)
            let q := dyMul q s
            dyFma v q v
          else
            let t := dyMul v (dyOf32 patKL)
            let ee := rnd24 (exp2Core t)
            dyDiv (dyAdd dyOne ee.opp) (dyAdd dyOne ee)
        finish32 neg (if neg then y.opp else y) fun _ => false
    | _ => invalidNan .f32

end Sys2Proof.Machine
end

