-- ==== Sys2Proof/Machine/Vector.lean ====
section
/-! DEFINITION. Vector instructions (R169-R193): claims, streams, element arithmetic, reductions, shuffle and gather,
packed forms, special functions. An instruction reads and writes all its elements at issue, which R175 allows; its
thread then waits until T (R177). -/

namespace Sys2Proof.Machine

/-! ## Claims (R170, R183) -/

/-- The lowest parked claim of a course is met if its whole want is free (R170, R172): a thread's `vclaim` completes, a
swapped-in team receives its wants. -/
def State.serveClaim (s : State) (course : Nat) : State :=
  match s.firstClaim course with
  | none => s
  | some (t, w) =>
    if s.freeLanes course < w then s
    else if (s.core (coreOf t)).teamClaim && s.firstOwn (coreOf t) == t then
      let own := (s.core (coreOf t)).owns
      let all := fun (c : Ctx) => if own c then { c with grant := c.want } else c
      ((slotsOf (coreOf t)).foldl (fun s k => s.modCtx k all) s).modCore (coreOf t) fun k => { k with
        teamClaim := false
        tm := { k.tm with loans := k.tm.loans.map fun c => (c.1, all c.2) }
        arrivals := k.arrivals.map fun m => ⟨all m.ctx, all m.loan⟩ }
    else
      let s1 := s.modCtx t fun c => { c with grant := w, claimParked := false }
      match (s.ctx t).wait with
      | .claim d a => ((s1.consumeLate t [a]).destLate t d (BitVec.ofNat 64 w)).resume t
      | _ => s1

/-- Parked claims are served in ascending thread number: a course has at most 128. -/
def State.serveClaims (s : State) (course : Nat) : State :=
  (List.range 128).foldl (fun s _ => s.serveClaim course) s

def execParkedClaimGrant (course : Nat) (s : State) : Out := .next (s.serveClaims course)

/-- R170: the grant goes back, and then lanes are granted, or the thread of a deterministic launch parks. -/
def execVclaim (d a : BitVec 5) (s : State) : Out :=
  issue false true 0 [.dst 0 d, .src 1 a] (fun s => do
    let x ← rd s a
    let w := wantOf x
    let k := courseOf s.cur
    let s1 := (s.modMe fun c => { c with grant := 0, want := w }).serveClaims k
    let first := match s1.firstClaim k with
      | some c => decide (s1.cur < c.1)
      | none => true
    if !stDet s1.me.status then
      let g := min w (s1.openLanes k)
      return finish (s1.modMe fun c => { c with grant := g }) [a] d (BitVec.ofNat 64 g)
    else if w == 0 || (decide (w ≤ s1.freeLanes k) && first) then
      return finish (s1.modMe fun c => { c with grant := w }) [a] d (BitVec.ofNat 64 w)
    else return s1.modMe fun c => { c with claimParked := true, wait := .claim d a }) s

def execVgrant (d : BitVec 5) (s : State) : Out :=
  issue false true 0 [.dst 0 d] (fun s => .ok (finish s [] d (BitVec.ofNat 64 s.me.grant))) s

/-! ## State moves (R184) -/

def execVlset (d a : BitVec 5) (s : State) : Out :=
  issue false true 0 [.dst 0 d, .src 1 a] (fun s => do
    let x ← rd s a
    let n := min x.toNat 256
    return finish (s.modMe fun c => { c with vl := BitVec.ofNat 32 n, vlFull := true }) [a] d (BitVec.ofNat 64 n)) s

def execVlget (d : BitVec 5) (s : State) : Out :=
  issue false true 0 [.dst 0 d, .vl] (fun s => .ok (finish s [] d (zext s.me.vl))) s

def execVsget (d : BitVec 5) (s : State) : Out :=
  issue false true 0 [.dst 0 d, .vs] (fun s => .ok (finish s [] d (zext s.me.vs))) s

def execVsset (a : BitVec 5) (s : State) : Out :=
  issue false true 0 [.src 1 a] (fun s => do
    let x ← rd s a
    return finishNo (s.modMe fun c => { c with vs := (bits x 0 11 : BitVec 11).setWidth 32, vsFull := true }) [a]) s

def execPset (d a : BitVec 5) (s : State) : Out :=
  issue false true 0 [.file 0 d 7, .src 1 a] (fun s => do
    let x ← rd s a
    return finishNo (s.modMe fun c => { c with p := vset c.p d.toNat (bits x 0 32) }) [a]) s

def execPget (d a : BitVec 5) (s : State) : Out :=
  issue false true 0 [.dst 0 d, .file 1 a 7] (fun s =>
    .ok (finish s [] d (zext (vget 0 s.me.p a.toNat)))) s

/-! ## Streams (R173, R174) -/

/-- A stream of an instruction: its pointer, the element size, whether its elements are read and written; `via` names
the pointer whose elements index it (R187). -/
structure Strm where
  ptr : Nat
  size : Nat
  reads : Bool
  writes : Bool
  via : Option Nat

/-- addr and stride of a pointer (R30). -/
def ptrAddr (p : Word32) : Nat := (bits p 0 19 : BitVec 19).toNat
def ptrStride (p : Word32) : Int := (bits p 19 13 : BitVec 13).toInt

/-- (addr + n × stride × size) mod 2^19. -/
def ptrStep (p : Word32) (n size : Nat) : Nat :=
  ((ptrAddr p : Int) + n * ptrStride p * size).emod 524288 |>.toNat

/-- The address of element i. -/
def State.elemAddr (s : State) (st : Strm) (i : Nat) : Nat :=
  let p := vget 0 s.me.p st.ptr
  match st.via with
  | none => ptrStep p i st.size
  | some b =>
    let x := ofBytesNat (s.spadRead (coreOf s.cur) (ptrStep (vget 0 s.me.p b) i 4) 4)
    (ptrAddr p + x * st.size) % 524288

/-- xinfo of a stream element (R277): load or store, pointer, element index. An element that is read and written, as d of `vmac`,
`vsel` and `vpmac`, is recorded as a store (DESIGN CHOICE, log entry 82). -/
def strmInfo (st : Strm) (i : Nat) : Word :=
  BitVec.ofNat 64 ((if st.writes then 1 else 0) + 16 * st.ptr + 256 * i)

/-- The check of one element (R174): the trap's class, record and address. -/
def State.badElem (s : State) (i : Nat) (st : Strm) : Option (TrapClass × Word × Word) :=
  let a := s.elemAddr st i
  if ptrAddr (vget 0 s.me.p st.ptr) % st.size ≠ 0 then some (.align, strmInfo st i, BitVec.ofNat 64 a)
  else if 0x6_0000 < a + st.size then some (.spad, strmInfo st i, BitVec.ofNat 64 a)
  else none

/-- An element read that meets an uncorrectable error (R354): its unit, record and address. -/
def State.badRead (s : State) (i : Nat) (st : Strm) : Option ((Nat × Nat) × Word × Word) :=
  let a := s.elemAddr st i
  if st.reads then
    (s.badUnit (.spad (coreOf s.cur) a) st.size).map fun u =>
      (u, BitVec.ofNat 64 (16 * st.ptr + 256 * i), BitVec.ofNat 64 a)
  else none

/-- The errors of one bit that the elements read meet are corrected and counted (R355). -/
def State.correctStream (s : State) (n : Nat) (sts : List Strm) : State :=
  if s.corrSpad.isEmpty then s
  else (List.range n).foldl (fun s i => sts.foldl (fun s st =>
    if st.reads then s.correct s.me.part (.spad (coreOf s.cur) (s.elemAddr st i)) st.size else s) s) s

/-- The first thing in ascending element, and within it in the order of the streams. -/
def firstOf {α : Type} (n : Nat) (sts : List Strm) (f : Nat → Strm → Option α) : Option α :=
  (List.range n).findSome? fun i => sts.findSome? (f i)

/-- The elements of a stream. -/
def State.column (s : State) (n : Nat) (st : Strm) : List Word :=
  if st.reads then (List.range n).map fun i => ofBytes 64 (s.spadRead (coreOf s.cur) (s.elemAddr st i) st.size)
  else List.replicate n 0

/-! ## Timing (R177) -/

def distinct (l : List Nat) : List Nat := l.eraseDups

/-- The chunks that the streams touch in beat k of `per` elements, each once. -/
def State.beatChunks (s : State) (sts : List Strm) (k per n : Nat) : List Nat :=
  distinct (sts.flatMap fun st =>
    let range := if ptrStride (vget 0 s.me.p st.ptr) = 0 then (if k = 0 then 1 else 0) else min per (n - k * per)
    (List.range range).map fun j => s.elemAddr st (k * per + j) / 64)

/-- T. `size` gives the beat, `w` the lanes of an element, c the cost, 0 for a reduction. The window reads of `vshuf` count in the beat in
which the element that they give is written (DESIGN CHOICE, log entry 78). -/
def State.vecTime (s : State) (sts : List Strm) (n size w c : Nat) : Nat :=
  let per := 64 / size
  let direct := sts.filter fun st => st.via.isNone
  (List.range ((n + per - 1) / per)).foldl (fun t k =>
    let e := min per (n - k * per)
    let own := (sts.filter fun st => st.via.isSome).flatMap fun st =>
      (List.range e).map fun j => s.elemAddr st (k * per + j) / 64
    let all := s.beatChunks (direct.filter (·.reads)) k per n ++ s.beatChunks (direct.filter (·.writes)) k per n ++ own
    let bank := (List.range 3).foldl (fun m b => max m (all.filter fun x => x % 3 == b).length) 0
    let lane := if c = 0 then e else (e * w * c + s.me.grant - 1) / s.me.grant
    t + max bank lane) 8

/-! ## A vector instruction -/

/-- The pointers after n elements: each named once, with the size of its first field (R173; DEDUCED, log entry 51). The base pointer of
a `vgather` advances where its d or b field names it too (R187; DESIGN CHOICE, log entry 51). -/
def advancePtrs (n : Nat) : List Strm → Vector Word32 8 → Vector Word32 8
  | [], v => v
  | st :: sts, v =>
    let v' := advancePtrs n sts v
    let p := vget 0 v st.ptr
    if st.via.isSome then v' else vset v' st.ptr (setBits p 0 (BitVec.ofNat 19 (ptrStep p n st.size)))

/-- What an instruction computes from its columns: elements to write, a scalar result, flags. -/
structure VecOut where
  elems : List Word
  result : Word
  flags : BitVec 4

/-- The elements of a column written to its stream, in order, at the addresses of u. -/
def State.putColumn (u : State) (elems : List Word) (s : State) (st : Strm) : State :=
  (elems.zipIdx).foldl (fun s x => s.spadWrite (coreOf s.cur) (u.elemAddr st x.2) (toBytes st.size x.1)) s

/-- The effect on n > 0 elements after every check: all elements are written, the flags raised, the pointers advanced; the
thread waits until T. -/
def vecEffect (sts : List Strm) (n size w cost : Nat) (d : BitVec 5) (out : VecOut) (s : State) : State :=
  let t := s.vecTime sts n size w cost
  let s3 := (sts.filter (·.writes)).foldl (s.putColumn out.elems) s
  let s4 := (s3.emptyDest s3.cur d).modMe fun c =>
    { (c.raise out.flags).advance with
      p := advancePtrs n sts c.p
      wait := .vector (c.fpe out.flags) t d out.result
      resumeAt := (s.core (coreOf s.cur)).cycle + t }
  s4.modCore (coreOf s4.cur) fun k =>
    { k with vecDue := k.vecDue.filter (fun v => v.2 ≠ s4.cur) ++ [(k.cycle + t, s4.cur)] }

/-- vl clamped to n (R31, R173). -/
def State.clampVl (s : State) (n : Nat) : State := s.modMe fun c => { c with vl := BitVec.ofNat 32 n }

/-- A vector instruction of the running thread from step 7 on: clamp, checks, reads, writes, pointers, flags. -/
def vecBody (sts : List Strm) (size w cost : Nat) (d : BitVec 5) (compute : Word32 → Nat → List (List Word) → VecOut)
    (s : State) : State :=
  let n := min s.me.vl.toNat (s.me.grant / w)
  let s1 := s.clampVl n
  let s2 := s1.performAll s1.cur
  match firstOf n sts s2.badElem with
  | some (cls, info, ea) => s1.trapAt s1.cur cls info ea
  | none =>
    match firstOf n sts s2.badRead with
    | some (u, info, ea) => (s1.logError s1.me.part (coreOf s1.cur) u.1 u.2).trapAt s1.cur .memerr info ea
    | none =>
      let s3 := s2.correctStream n sts
      let out := compute s3.me.vs n (sts.map (s3.column n))
      if n = 0 then finish s1 [] d out.result else vecEffect sts n size w cost d out s3

/-- Its operand checks. -/
def vecIssue (ok : Bool) (fs : List Field) (sts : List Strm) (size w cost : Nat) (d : BitVec 5)
    (compute : Word32 → Nat → List (List Word) → VecOut) (s : State) : Out :=
  issue false ok 0 (fs ++ [.vl, .vs]) (fun s => .ok (vecBody sts size w cost d compute s)) s

/-- Completion: a reduction's result is written, and an enabled flag traps (R176, R185). -/
def execVectorCompletion (thr : Nat) (s : State) : Out :=
  match (s.ctx thr).wait with
  | .vector f _ d v =>
    .next (((s.reply thr d v).modCtx thr fun c => { c with wait := .ready }).fpeTrap thr f)
  | _ => .next s

/-- Element by element: f vs D A B. -/
def eachElem (f : Word32 → Word → Word → Word → Word × BitVec 4) (vs : Word32) (n : Nat) (cols : List (List Word)) :
    VecOut :=
  let at' := fun k i => (cols.getD k []).getD i 0
  let rs := (List.range n).map fun i => f vs (at' 0 i) (at' 1 i) (at' 2 i)
  { elems := rs.map Prod.fst, result := 0, flags := (rs.map Prod.snd).foldl (· ||| ·) 0 }

def ptrField (n : Nat) (p : BitVec 5) : Field := .file n p 7
def srcStrm (p : BitVec 5) (size : Nat) : Strm := ⟨p.toNat, size, true, false, none⟩
def dstStrm (p : BitVec 5) (size : Nat) (reads : Bool) : Strm := ⟨p.toNat, size, reads, true, none⟩

/-- pd[i] ← f D A B; D is read where `rdD` says so. -/
def vec3 (ok rdD : Bool) (size cost : Nat) (f : Word32 → Word → Word → Word → Word × BitVec 4) (d a b : BitVec 5)
    (s : State) : Out :=
  vecIssue ok [ptrField 0 d, ptrField 1 a, ptrField 2 b] [dstStrm d size rdD, srcStrm a size, srcStrm b size] size
    (size / 4) cost 0 (eachElem f) s

/-- pd[i] ← f A. -/
def vec2 (ok : Bool) (dsize asize cost : Nat) (f : Word32 → Word → Word × BitVec 4) (d a : BitVec 5) (s : State) :
    Out :=
  vecIssue ok [ptrField 0 d, ptrField 1 a] [dstStrm d dsize false, srcStrm a asize] (max dsize asize)
    (max dsize asize / 4) cost 0 (eachElem fun vs _ x _ => f vs x) s

/-! ## Arithmetic, compare and select (R178-R181) -/

/-- A type is floating point; its element size; its format. -/
def vtFloat (ty : BitVec 2) : Bool := ty.toNat < 2
def vtSize (ty : BitVec 2) : Nat := if ty = 0 then 8 else 4

/-- An integer element, signed or unsigned (R180). -/
def vtInt (ty : BitVec 2) (x : Word) : Int := if ty = 2 then (x.setWidth 32).toInt else (x.setWidth 32).toNat

/-- The low 32 bits of an integer element. -/
def lo32 (x : Word) : Word := zext (x.setWidth 32)

/-- A float op or an integer op, by type. -/
def byType (ty : BitVec 2) (f : Fmt → FVal → FVal → FVal → Nat × BitVec 4) (g : Word → Word → Word → Word)
    (dd a b : Word) : Word × BitVec 4 :=
  if vtFloat ty then
    let F := fmtOf ty
    fpReg (f F (fpVal F dd) (fpVal F a) (fpVal F b))
  else (lo32 (g dd a b), 0)

def execVadd (d a b : BitVec 5) (rm : BitVec 3) (ty : BitVec 2) (s : State) : Out :=
  vec3 (vrmOk rm ty) false (vtSize ty) 1 (fun vs =>
    byType ty (fun F _ x y => addV F (modeOf rm vs) false x y) fun _ x y => x + y) d a b s

/-- A − B is A + (−B) with a NaN as it stands (R94). -/
def execVsub (d a b : BitVec 5) (rm : BitVec 3) (ty : BitVec 2) (s : State) : Out :=
  vec3 (vrmOk rm ty) false (vtSize ty) 1 (fun vs =>
    byType ty (fun F _ x y => addV F (modeOf rm vs) false x y.flip) fun _ x y => x - y) d a b s

def execVmul (d a b : BitVec 5) (rm : BitVec 3) (ty : BitVec 2) (s : State) : Out :=
  vec3 (vrmOk rm ty) false (vtSize ty) 1 (fun vs =>
    byType ty (fun F _ x y => mulV F (modeOf rm vs) false x y) fun _ x y => x * y) d a b s

def execVmac (d a b : BitVec 5) (rm : BitVec 3) (ty : BitVec 2) (s : State) : Out :=
  vec3 (vrmOk rm ty) true (vtSize ty) 1 (fun vs =>
    byType ty (fun F z x y => fmaV F (modeOf rm vs) false x y z) fun z x y => x * y + z) d a b s

def execVdiv (d a b : BitVec 5) (rm : BitVec 3) (ty : BitVec 1) (s : State) : Out :=
  let F := fmtOf (ty.setWidth 2)
  vec3 (rmOk rm) false (vtSize (ty.setWidth 2)) 4 (fun vs _ x y =>
    fpReg (divV F (modeOf rm vs) (fpVal F x) (fpVal F y))) d a b s

def execVsqrt (d a : BitVec 5) (rm : BitVec 3) (ty : BitVec 1) (s : State) : Out :=
  let F := fmtOf (ty.setWidth 2)
  let z := vtSize (ty.setWidth 2)
  vec2 (rmOk rm) z z 4 (fun vs x => fpReg (sqrtV F (modeOf rm vs) (fpVal F x))) d a s

/-- The lesser or greater of two elements (R131, R180). -/
def vminmax (big : Bool) (ty : BitVec 2) (x y : Word) : Word × BitVec 4 :=
  if vtFloat ty then fpReg (minmaxV (fmtOf ty) big (fpBits (fmtOf ty) x) (fpBits (fmtOf ty) y))
  else
    let first := if big then vtInt ty y ≤ vtInt ty x else vtInt ty x ≤ vtInt ty y
    (lo32 (if first then x else y), 0)

def execVmin (d a b : BitVec 5) (ty : BitVec 2) (s : State) : Out :=
  vec3 true false (vtSize ty) 1 (fun _ _ x y => vminmax false ty x y) d a b s
def execVmax (d a b : BitVec 5) (ty : BitVec 2) (s : State) : Out :=
  vec3 true false (vtSize ty) 1 (fun _ _ x y => vminmax true ty x y) d a b s

/-- mask(c) (R180). -/
def maskOf (ty : BitVec 2) (c : Bool) : Word :=
  if c then (if ty = 0 then BitVec.allOnes 64 else 0xFFFF_FFFF) else 0

def vcompare (f : FVal → FVal → Bool × BitVec 4) (g : Int → Int → Bool) (ty : BitVec 2) (x y : Word) :
    Word × BitVec 4 :=
  if vtFloat ty then
    let r := f (fpVal (fmtOf ty) x) (fpVal (fmtOf ty) y)
    (maskOf ty r.1, r.2)
  else (maskOf ty (g (vtInt ty x) (vtInt ty y)), 0)

def execVceq (d a b : BitVec 5) (ty : BitVec 2) (s : State) : Out :=
  vec3 true false (vtSize ty) 1 (fun _ _ x y => vcompare eqV (fun i j => i == j) ty x y) d a b s
def execVclt (d a b : BitVec 5) (ty : BitVec 2) (s : State) : Out :=
  vec3 true false (vtSize ty) 1 (fun _ _ x y => vcompare ltV (fun i j => i < j) ty x y) d a b s
def execVcle (d a b : BitVec 5) (ty : BitVec 2) (s : State) : Out :=
  vec3 true false (vtSize ty) 1 (fun _ _ x y => vcompare leV (fun i j => i ≤ j) ty x y) d a b s

def execVsel (d a b : BitVec 5) (ty : BitVec 2) (s : State) : Out :=
  vec3 true true (vtSize ty) 1 (fun _ z x y => (if z ≠ 0 then x else y, 0)) d a b s

def execVand (d a b : BitVec 5) (_ty : BitVec 1) (s : State) : Out :=
  vec3 true false 4 1 (fun _ _ x y => (x &&& y, 0)) d a b s
def execVor (d a b : BitVec 5) (_ty : BitVec 1) (s : State) : Out :=
  vec3 true false 4 1 (fun _ _ x y => (x ||| y, 0)) d a b s
def execVxor (d a b : BitVec 5) (_ty : BitVec 1) (s : State) : Out :=
  vec3 true false 4 1 (fun _ _ x y => (x ^^^ y, 0)) d a b s

/-- One conversion from type src to type ty (R98, R181); the integer types are those of R130. -/
def vconvert (src ty : BitVec 2) (mode : Mode) (x : Word) : Word × BitVec 4 :=
  if vtFloat ty then
    (if vtFloat src then fpReg (cvtFF (fmtOf ty) mode (fpVal (fmtOf src) x))
     else fpReg (cvtIF (fmtOf ty) mode (intValue src x)))
  else
    let b := intBounds ty
    let r := cvtFI b.1 b.2 mode (fpVal (fmtOf src) x)
    (lo32 (intReg ty r.1), r.2)

def execVcvt (d a : BitVec 5) (src : BitVec 2) (rm : BitVec 3) (ty : BitVec 2) (s : State) : Out :=
  vec2 (rmOk rm && src != ty && (vtFloat src || vtFloat ty)) (vtSize ty) (vtSize src) 1
    (fun vs x => vconvert src ty (modeOf rm vs) x) d a s

/-! ## Reductions (R185) -/

/-- The running value from element 0 on, with the flags. -/
def reduceList (f : Word → Word → Word × BitVec 4) : Word × BitVec 4 → List Word → Word × BitVec 4
  | r, [] => r
  | r, x :: xs =>
    let q := f r.1 x
    reduceList f (q.1, r.2 ||| q.2) xs

/-- The register value of an element: an integer is extended (R56). -/
def vtReg (ty : BitVec 2) (x : Word) : Word := if ty = 2 then sext (x.setWidth 32) else x

/-- A reduction with result `none` for n = 0. -/
def reduction (ok : Bool) (zero : Word) (f : Word32 → Word → Word → Word × BitVec 4) (d a : BitVec 5) (ty : BitVec 2)
    (s : State) : Out :=
  vecIssue ok [.dst 0 d, ptrField 1 a] [srcStrm a (vtSize ty)] (vtSize ty) (vtSize ty / 4) 0 d
    (fun vs _ cols =>
      let r := match cols.getD 0 [] with
        | [] => (zero, 0)
        | x :: xs => reduceList (f vs) (x, 0) xs
      { elems := [], result := vtReg ty r.1, flags := r.2 }) s

def execVredsum (d a : BitVec 5) (rm : BitVec 3) (ty : BitVec 2) (s : State) : Out :=
  reduction (rmOk rm) 0 (fun vs x y =>
    byType ty (fun F _ x y => addV F (modeOf rm vs) false x y) (fun _ x y => x + y) 0 x y) d a ty s

/-- The result of `vredmin` and of `vredmax` with n = 0. -/
def emptyMin (ty : BitVec 2) : Word :=
  match ty.toNat with
  | 0 => 0x7FF0_0000_0000_0000
  | 1 => 0x7F80_0000
  | 2 => 0x7FFF_FFFF
  | _ => 0xFFFF_FFFF
def emptyMax (ty : BitVec 2) : Word :=
  match ty.toNat with
  | 0 => 0xFFF0_0000_0000_0000
  | 1 => 0xFF80_0000
  | 2 => 0x8000_0000
  | _ => 0

def execVredmin (d a : BitVec 5) (ty : BitVec 2) (s : State) : Out :=
  reduction true (emptyMin ty) (fun _ x y => vminmax false ty x y) d a ty s
def execVredmax (d a : BitVec 5) (ty : BitVec 2) (s : State) : Out :=
  reduction true (emptyMax ty) (fun _ x y => vminmax true ty x y) d a ty s

/-! ## Shuffle and gather (R186, R187) -/

def wSize (w : BitVec 1) : Nat := if w = 1 then 8 else 4

def execVshuf (d a b : BitVec 5) (w : BitVec 1) (s : State) : Out :=
  let z := wSize w
  vecIssue true [ptrField 0 d, ptrField 1 a, ptrField 2 b] [dstStrm d z false, srcStrm a z, srcStrm b 4] z (z / 4) 1 0
    (fun _ n cols =>
      let win := cols.getD 1 []
      { elems := (cols.getD 2 []).map fun x => if x.toNat < n then win.getD x.toNat 0 else 0, result := 0, flags := 0 })
    s

def execVgather (d a b : BitVec 5) (w : BitVec 1) (s : State) : Out :=
  let z := wSize w
  vecIssue true [ptrField 0 d, ptrField 1 a, ptrField 2 b]
    [dstStrm d z false, srcStrm b 4, ⟨a.toNat, z, true, false, some b.toNat⟩] z (z / 4) 1 0
    (fun _ _ cols => { elems := cols.getD 2 [], result := 0, flags := 0 }) s

/-! ## Packed forms (R188, R189) -/

/-- The format of a packed type and whether an overflow saturates. -/
def packFmt (pt : BitVec 2) : Fmt :=
  match pt.toNat with
  | 0 => .e4m3
  | 1 => .e5m2
  | _ => .bf16

def packSat (sat pt : BitVec 2) (vs : Word32) : Bool :=
  pt.toNat < 2 && (if sat = 0 then vsSat vs else sat == 1)

/-- The sub-elements of a lane, each on its own. -/
def packLane (F : Fmt) (f : FVal → FVal → FVal → Nat × BitVec 4) (z x y : Word) : Word × BitVec 4 :=
  let sub := fun (v : Word) j => decodeF F (v.toNat / 2 ^ (F.width * j) % 2 ^ F.width)
  (List.range (32 / F.width)).foldl (fun r j =>
    let q := f (sub z j) (sub x j) (sub y j)
    (r.1 ||| BitVec.ofNat 64 (q.1 * 2 ^ (F.width * j)), r.2 ||| q.2)) (0, 0)

def packed (rdD : Bool) (f : Fmt → Mode → Bool → FVal → FVal → FVal → Nat × BitVec 4) (d a b : BitVec 5)
    (sat pt : BitVec 2) (s : State) : Out :=
  vec3 (packOk sat pt) rdD 4 1 (fun vs =>
    packLane (packFmt pt) (f (packFmt pt) (modeOf 0 vs) (packSat sat pt vs))) d a b s

def execVpadd (d a b : BitVec 5) (sat pt : BitVec 2) (s : State) : Out :=
  packed false (fun F m st _ x y => addV F m st x y) d a b sat pt s
def execVpsub (d a b : BitVec 5) (sat pt : BitVec 2) (s : State) : Out :=
  packed false (fun F m st _ x y => addV F m st x y.flip) d a b sat pt s
def execVpmul (d a b : BitVec 5) (sat pt : BitVec 2) (s : State) : Out :=
  packed false (fun F m st _ x y => mulV F m st x y) d a b sat pt s
def execVpmac (d a b : BitVec 5) (sat pt : BitVec 2) (s : State) : Out :=
  packed true (fun F m st z x y => fmaV F m st x y z) d a b sat pt s

/-! ## Special functions (R190-R192) -/

def special (f : Nat → Nat × BitVec 4) (d a : BitVec 5) (s : State) : Out :=
  vec2 true 4 4 8 (fun _ x => fpReg (f (fpBits .f32 x))) d a s

def execVexp2 (d a : BitVec 5) (s : State) : Out := special exp2V d a s
def execVlog2 (d a : BitVec 5) (s : State) : Out := special log2V d a s
def execVrcp (d a : BitVec 5) (s : State) : Out := special rcpV d a s
def execVrsqrt (d a : BitVec 5) (s : State) : Out := special rsqrtV d a s
def execVtanh (d a : BitVec 5) (s : State) : Out := special tanhV d a s

end Sys2Proof.Machine
end

