-- ==== Sys2Proof/Machine/Tile.lean ====
section
/-! DEFINITION. Tile slots and handles (R194-R206): claiming, shaping, loading and saving a slot, row and column moves. -/

namespace Sys2Proof.Machine

/-! ## The shape register (R42) -/

def shRows (x : BitVec 48) : Nat := (bits x 0 9 : BitVec 9).toNat
def shCols (x : BitVec 48) : Nat := (bits x 9 9 : BitVec 9).toNat
def shFmt (x : BitVec 48) : Nat := (bits x 18 4 : BitVec 4).toNat
def shTag (x : BitVec 48) : Byte := bits x 22 8
def shDigest (x : BitVec 48) : BitVec 16 := bits x 32 16

/-- Element sizes in half-bytes, by fmt (R195). -/
def halfBytes (fmt : Nat) : Nat :=
  match fmt with
  | 1 => 1
  | 2 => 2
  | 3 => 2
  | 4 => 2
  | 5 => 4
  | 6 => 8
  | _ => 16

/-- The element format of an ashlar fmt (R203). -/
def slotElem (fmt : Nat) : Option Elem :=
  match fmt with
  | 1 => some .e2m1
  | 2 => some .e4m3
  | 3 => some .e5m2
  | 4 => some .i8
  | _ => none

/-- Elements of an ashlar. -/
def Elem.perAshlar : Elem → Nat
  | .e2m1 => 64
  | _ => 32

/-- The shape register as read. -/
def Slot.word (t : Slot) : Word :=
  zext t.shape ||| (ofBool t.dy 64 <<< 48) ||| (ofBool t.ow 64 <<< 49) ||| (ofBool t.bd 64 <<< 50)

/-- The tag conditions of R201. -/
def tagOk (tag : Byte) (digest : BitVec 16) : Bool :=
  bits tag 0 4 == (0 : BitVec 4) && (bits tag 4 2 : BitVec 2).toNat < 2 && (tag.getLsbD 7 || (tag == 0 && digest == 0))

/-! ## The checks of R198 -/

/-- Steps 1 to 3: the slot of a handle of the running thread, not in use; configured, where asked. -/
def tileSlot (s : State) (h : BitVec 5) (cfg : Bool) : Except Stop Nat :=
  match vget none s.me.t h.toNat with
  | none => .error (.trap .tile (zext h) 0)
  | some k => do
    let t := s.slot (courseOf s.cur) k.toNat
    hold (t.uses == 0) (.slotBusy (courseOf s.cur) k.toNat)
    need (!cfg || shRows t.shape != 0) .tile (zext h)
    return k.toNat

/-- The record of a tile trap: the handle, and a row, column or ashlar index. -/
def tileInfo (h : BitVec 5) (i : Nat) : Word := zext h ||| BitVec.ofNat 64 (i % 2 ^ 24 * 256)

/-! ## Claiming and releasing (R199, R200, R206) -/

def SlotRecord.isFor (r : SlotRecord) (thr : Nat) (h : BitVec 5) : Bool := r.thr == thr && r.handle == h

/-- The records of a team, without the one for a thread and a handle. -/
def dropRecord (thr : Nat) (h : BitVec 5) (rs : List SlotRecord) : List SlotRecord := rs.filter fun r => !r.isFor thr h

/-- An owed slot goes into its team's swap image and leaves the team (R206): the content already written stands unless the slot
is dirty; the shape register, which `tshape` writes without setting dy, travels through any swap (R427; DEDUCED, log entry
67). -/
def State.saveSlot (s : State) (course k : Nat) : State :=
  let t := s.slot course k
  let clean : Slot := { t with dy := false, ow := false, bd := false, onReturn := 0 }
  let s1 := s.modTeam t.holder.launch t.holder.team fun m =>
    let old := (m.slots.find? fun r => r.isFor t.holder.thr t.handle).map SlotRecord.slot
    let z : Slot := match t.dy, old with
      | false, some o => { o with shape := t.shape }
      | _, _ => clean
    { m with slots := ⟨t.holder.thr, t.handle, z⟩ :: dropRecord t.holder.thr t.handle m.slots }
  s1.modSlot course k fun t => { t with dy := false, ow := false, bd := false }

/-- The slot that a claim takes: the lowest free one, else the lowest owed one. -/
def State.pickSlot (s : State) (course : Nat) : Option Nat :=
  ((List.range 128).find? fun k => !(s.slot course k).bd && !(s.slot course k).ow).or
    ((List.range 128).find? fun k => (s.slot course k).ow)

/-- Takes slot k, saving it first where it is owed. -/
def State.takeSlot (s : State) (course k : Nat) (holder : Ident) (h : BitVec 5) : State :=
  let s1 := if (s.slot course k).ow then s.saveSlot course k else s
  s1.modSlot course k fun t =>
    { t with bd := true, ow := false, dy := false, shape := 0, holder := holder, handle := h, onReturn := 0 }

def execTclaim (t : BitVec 5) (s : State) : Out :=
  issue false true 0 [] (fun s => do
    need (vget none s.me.t t.toNat == none) .tile (zext t)
    match s.pickSlot (courseOf s.cur) with
    | none => .error (.park (.slotsBound (courseOf s.cur)))
    | some k =>
      let c := s.me
      -- an older record of the handle names another slot's content
      let s1 := s.modTeam c.ident.launch c.ident.team fun m =>
        { m with slots := dropRecord c.ident.thr t m.slots }
      let s2 := s1.takeSlot (courseOf s.cur) k c.ident t
      return finishNo (s2.modMe fun c => { c with t := vset c.t t.toNat (some (BitVec.ofNat 7 k)) }) []) s

def execTrelease (t : BitVec 5) (s : State) : Out :=
  issue false true 0 [] (fun s => do
    let k ← tileSlot s t false
    let s1 := s.modSlot (courseOf s.cur) k fun x => { x with bd := false, dy := false }
    return finishNo (s1.modMe fun c => { c with t := vset c.t t.toNat none }) []) s

/-! ## Shape (R201, R202) -/

/-- The conditions of R201 on an extension register's value. -/
def shapeOk (v : Word) : Bool :=
  let x : BitVec 48 := bits v 0 48
  let (r, c, f) := (shRows x, shCols x, shFmt x)
  bits v 48 16 == (0 : BitVec 16) && bits v 30 2 == (0 : BitVec 2) && tagOk (shTag x) (shDigest x) &&
    0 < f && f < 8 && r ≤ 256 && c ≤ 256 && (r == 0 || c != 0) && !(f == 1 && c % 2 == 1) &&
    r * c * halfBytes f ≤ 32768

def execTshape (t : BitVec 5) (e : BitVec 3) (s : State) : Out :=
  issue false true 0 [.ext e.toNat 1] (fun s => do
    let k ← tileSlot s t false
    let v := vget 0 s.me.e e.toNat
    need (shapeOk v) .opnd (opndInfo 3 e.toNat)
    return finishNo (s.modSlot (courseOf s.cur) k fun x => { x with shape := bits v 0 48 }) []) s

def execTinfo (d t : BitVec 5) (s : State) : Out :=
  issue false true 0 [.dst 0 d] (fun s =>
    let v := match vget none s.me.t t.toNat with
      | none => 0
      | some k => (s.slot (courseOf s.cur) k.toNat).word
    .ok (finish s [] d v)) s

/-! ## Loading and saving (R203, R204) -/

/-- The ashlar that `sector q` of row r reads, with its place: payload byte and side-store byte. -/
structure Piece where
  addr : Word
  off : Nat
  side : Nat

/-- step of R337 on a virtual address. -/
def stepAddr (a : Word) (q : Nat) : Word := BitVec.ofNat 64 (stepSector a.toNat q)

/-- The row addresses of a slot. -/
def rowAddrs (a b : Word) (rows : Nat) : List Word := (List.range rows).map fun r => a + BitVec.ofNat 64 r * b

/-- The ashlars of a slot, in ascending row and then q. -/
def ashPieces (el : Elem) (x : BitVec 48) (a b : Word) : List Piece :=
  let n := shCols x / el.perAshlar
  ((rowAddrs a b (shRows x)).zipIdx).flatMap fun ra => (List.range n).map fun q =>
    ⟨stepAddr ra.1 q, (ra.2 * shCols x + q * el.perAshlar) * halfBytes (shFmt x) / 2,
      ra.2 * (shCols x / 32) + q * (el.perAshlar / 32)⟩

/-- The elements of a slot of a raw format. -/
def rawPieces (x : BitVec 48) (a b : Word) : List Piece :=
  let z := halfBytes (shFmt x) / 2
  ((rowAddrs a b (shRows x)).zipIdx).flatMap fun ra => (List.range (shCols x)).map fun c =>
    ⟨ra.1 + BitVec.ofNat 64 (z * c), (ra.2 * shCols x + c) * z, 0⟩

/-- Step 6 of R198 for an ashlar of the slot: the class that it fails with. -/
def ashlarBad (el : Elem) (x : BitVec 48) (bs : List Byte) : Option TrapClass :=
  match checkAshlar bs with
  | .error .check => some .check
  | .error .fmt => some .fmt
  | .ok el' =>
    if el' ≠ el then some .fmt
    else if ashByte bs 3 ≠ shTag x ∨ ofBytes 16 ((bs.drop 4).take 2) ≠ shDigest x then some .tag
    else none

/-- The first ashlar that fails: its index, address and class. -/
def firstBad (f : List Byte → Option TrapClass) (l : List (Word × List Byte)) : Option (Nat × Word × TrapClass) :=
  l.zipIdx.findSome? fun p => (f p.1.2).map fun c => (p.2, p.1.1, c)

/-- The ashlar that `tsave` writes (R204). -/
def saveAshlar (el : Elem) (t : Slot) (p : Piece) : List Byte :=
  let payload := Mem.read t.payload p.off 32
  let sc := fun i => ((Mem.read t.side (p.side + i) 1).headD 0).toNat
  let s1 := if el = .e2m1 then sc 1 else 0
  let vals := (unpackElems el payload).zipIdx.map fun e => mxValue el (if e.2 < 32 then sc 0 else s1) e.1
  let amax := amaxOf vals
  mkAshlar el (sc 0) s1 (shTag t.shape) (shDigest t.shape) (BitVec.ofNat 16 amax) 0 (if amax = 0x7FC0 then 2 else 0)
    payload

/-- Conditions of step 4 and the alignment of step 5: the pieces that the slot's bytes lie at. Every row's alignment, or that of base
and stride, is checked before any address is (DESIGN CHOICE, log entry 83). -/
def tilePieces (x : BitVec 48) (h : BitVec 5) (a b : Word) (acc : Acc) : Except Stop (List Piece) :=
  match slotElem (shFmt x) with
  | some el => do
    need (shCols x % el.perAshlar == 0) .shape (tileInfo h 0)
    match (rowAddrs a b (shRows x)).find? fun ra => !fullSector ra.toNat with
    | some ra => .error (.trap .align acc.code ra)
    | none => return ashPieces el x a b
  | none => do
    let z := halfBytes (shFmt x) / 2
    need (a.toNat % z == 0 && b.toNat % z == 0) .align acc.code a
    return rawPieces x a b

/-- Bytes of one piece in memory, and the alignment of its access. -/
def pieceBytes (x : BitVec 48) : Nat :=
  match slotElem (shFmt x) with
  | some _ => 48
  | none => halfBytes (shFmt x) / 2
def pieceAlign (x : BitVec 48) : Nat := min 16 (pieceBytes x)

/-- Bytes of the payload and of the side-store that a shape fills (R195). -/
def payloadLen (x : BitVec 48) : Nat := shRows x * shCols x * halfBytes (shFmt x) / 2
def sideLen (x : BitVec 48) : Nat := if shFmt x < 5 then shRows x * shCols x / 32 else 0

/-- The first word of n bytes of payload from `off` on, or of m bytes of side-store, that holds an uncorrectable error. -/
def Slot.badWord (t : Slot) (off n m : Nat) : Option Nat :=
  t.bad.find? fun w => if w < 2048 then off < 8 * w + 8 && 8 * w < off + n else 8 * (w - 2048) < m

/-- The words of the same bytes that hold an error of one bit. -/
def Slot.corrIn (t : Slot) (off n m : Nat) : List Nat :=
  t.corr.filter fun w => if w < 2048 then off < 8 * w + 8 && 8 * w < off + n else 8 * (w - 2048) < m

/-- A read of a slot's bytes corrects them (R355). -/
def State.correctSlot (s : State) (part course k off n m : Nat) : State :=
  let ws := (s.slot course k).corrIn off n m
  if ws.isEmpty then s
  else (s.modSlot course k fun t => { t with corr := t.corr.filter fun w => !ws.contains w }).countErrors part ws.length

/-- An instruction meets an error in a slot that it reads (R354, R355; DEDUCED, log entry 53). -/
def slotError (course slot : Nat) (t : Slot) (off n m : Nat) : Except Stop Unit :=
  match t.badWord off n m with
  | some w =>
    let a := Config.operandAddr (128 * course + slot) w
    .error (.bad 3 a.toNat 0 (zext a))
  | none => .ok ()

/-- The words that a shape's bytes fill wholly hold no error any more. -/
def Slot.mended (t : Slot) : Slot :=
  let kept := fun w => if w < 2048 then payloadLen t.shape < 8 * w + 8 else sideLen t.shape < 8 * (w - 2048) + 8
  { t with bad := t.bad.filter fun w => kept w, corr := t.corr.filter fun w => kept w }

/-- What loading puts into a slot. -/
def fillSlot (t : Slot) (l : List (Piece × List Byte)) : Slot :=
  match slotElem (shFmt t.shape) with
  | some el =>
    { t with
      payload := l.foldl (fun m p => Mem.write m p.1.off (p.2.drop 16)) t.payload
      side := l.foldl (fun m p => Mem.write m p.1.side ((p.2.drop 1).take (el.perAshlar / 32))) t.side
      dy := true }
  | none => { t with payload := l.foldl (fun m p => Mem.write m p.1.off p.2) t.payload, dy := true }

/-- The instruction has its effect; its thread waits for the last byte. -/
def State.finishing (s : State) (thr : Nat) (f : BitVec 4) : State :=
  (s.modCtx thr fun c => { c.advance with wait := .finish f }).post (.reply thr)

/-- Writes pieces to where they lie. -/
def State.putPieces (s : State) (l : List (Loc × List Byte)) : State := l.foldl (fun s p => s.write p.1 p.2) s

/-- TLD (R196, R198). The handle, the wait for its slot and its shape come before the sources are read, so before a trap of `cin`
(DESIGN CHOICE, log entry 56). -/
def execTld (t a b : BitVec 5) (s : State) : Out :=
  issue false true 0 [.src 1 a, .src 2 b] (fun s => do
    let k ← tileSlot s t true
    let ad ← rd s a
    let st ← rd s b
    let course := courseOf s.cur
    let x := (s.slot course k).shape
    let ps ← tilePieces x t ad st .load
    let (ls, s1) ← State.blocks (pieceAlign x) (pieceBytes x) .load (ps.map Piece.addr) (s.performAll s.cur)
    let bs := ls.map fun l => s1.read l (pieceBytes x)
    let bad := match slotElem (shFmt x) with
      | some el => firstBad (ashlarBad el x) ((ps.map Piece.addr).zip bs)
      | none => none
    match bad with
    | some (i, ea, cls) => .error (.trap cls (tileInfo t i) ea)
    | none =>
      let s2 := s1.modSlot course k fun z => (fillSlot z (ps.zip bs)).mended
      return (s2.consume s.cur [a, b]).finishing s.cur 0) s

def execTsave (t a b : BitVec 5) (s : State) : Out :=
  issue false true 0 [.src 1 a, .src 2 b] (fun s => do
    let k ← tileSlot s t true
    let ad ← rd s a
    let st ← rd s b
    let course := courseOf s.cur
    let z := s.slot course k
    let x := z.shape
    let ps ← tilePieces x t ad st .store
    let (ls, s1) ← State.blocks (pieceAlign x) (pieceBytes x) .store (ps.map Piece.addr) (s.performAll s.cur)
    slotError course k z 0 (payloadLen x) (sideLen x)
    let bs := ps.map fun p => match slotElem (shFmt x) with
      | some el => saveAshlar el z p
      | none => Mem.read z.payload p.off (pieceBytes x)
    let s2 := ((s1.correctSlot s.me.part course k 0 (payloadLen x) (sideLen x)).putPieces (ls.zip bs)).modSlot course k
      fun z => { z with dy := false }
    return (s2.consume s.cur [a, b]).finishing s.cur 0) s

/-! ## Row and column moves (R205) -/

/-- A row (column) move: `put` from the stream into the slot, or out of it. -/
def tileMove (row put : Bool) (t a p : BitVec 5) (s : State) : Out :=
  issue false true 0 [.src 1 a, ptrField 2 p] (fun s => do
    let k ← tileSlot s t true
    let i ← rd s a
    let course := courseOf s.cur
    let x := (s.slot course k).shape
    let (rows, cols) := (shRows x, shCols x)
    need (i.toNat < if row then rows else cols) .shape (tileInfo t i.toNat)
    need (5 ≤ shFmt x) .fmt (tileInfo t 0)
    let z := halfBytes (shFmt x) / 2
    let n := if row then cols else rows
    let st : Strm := ⟨p.toNat, z, put, !put, none⟩
    let s1 := s.performAll s.cur
    match firstOf n [st] s1.badElem with
    | some (cls, info, ea) => .error (.trap cls info ea)
    | none =>
      match firstOf n [st] s1.badRead with
      | some (u, info, ea) => .error (.bad u.1 u.2 info ea)
      | none =>
        let off := fun j => (if row then i.toNat * cols + j else j * cols + i.toNat) * z
        if !put then (List.range n).forM fun j => slotError course k (s1.slot course k) (off j) z 0
        let core := coreOf s.cur
        let whole := fun w => z = 8 && (List.range n).any fun j => off j == 8 * w
        let s1 := if put then s1.correctStream n [st]
          else (List.range n).foldl (fun s j => s.correctSlot s.me.part course k (off j) z 0) s1
        let s2 := if put then s1.modSlot course k fun m =>
            { m with dy := true
                     bad := m.bad.filter fun w => !whole w
                     corr := m.corr.filter fun w => !whole w
                     payload := (List.range n).foldl (fun pl j =>
                       Mem.write pl (off j) (s1.spadRead core (s1.elemAddr st j) z)) m.payload }
          else (List.range n).foldl (fun s j =>
            s.spadWrite core (s1.elemAddr st j) (Mem.read (s1.slot course k).payload (off j) z)) s1
        let s3 := (s2.consume s.cur [a]).modMe fun c =>
          { c with p := advancePtrs n [st] c.p
                   resumeAt := (s.core core).cycle + 8 + (n * z + 63) / 64 }
        return s3.finishing s.cur 0) s

def execTrowld (t a p : BitVec 5) (s : State) : Out := tileMove true true t a p s
def execTrowst (t a p : BitVec 5) (s : State) : Out := tileMove true false t a p s
def execTcolld (t a p : BitVec 5) (s : State) : Out := tileMove false true t a p s
def execTcolst (t a p : BitVec 5) (s : State) : Out := tileMove false false t a p s

end Sys2Proof.Machine
end

