-- ==== Sys2Proof/Machine/Fabric.lean ====
section
/-! DEFINITION. The vault fabric (R255, R264, R266, R372-R379): numbering, cell words, paths, the start of a run, and the
expansion of an image. -/

namespace Sys2Proof.Machine

/-! ## Numbering (R255) -/

/-- The groups that a mask names, ascending. -/
def maskGroups (m : BitVec 16) : List Nat := (List.range 16).filter m.getLsbD

/-- The vault die of a group; the compute die that it attaches to (R2). -/
def vaultDieOf (g : Nat) : Nat := g / 8
def vaultHostDie (g : Nat) : Nat := if g < 8 then 0 else 7

/-- The cell of the integrator at position p of a group (R372), and the position of the integrator m of a column. -/
def integCell (p : Nat) : Nat := 112 * (p / 32) + p % 32
def VGroup.enabled (v : VGroup) (p : Nat) : Bool := (Tbl.get 0 v.cells (integCell p)).getLsbD 0

/-- The enabled integrators of a group. -/
def VGroup.integrators (v : VGroup) : List Nat := (List.range 256).filter v.enabled

/-! ## Coefficient and variable multipliers (R376, R377) -/

/-- What a coefficient multiplier takes. -/
inductive Source where
  | integ (i : Nat)
  | one
  /-- an enabled or disabled variable multiplier: its inputs -/
  | prod (en : Bool) (x y : Nat)
  deriving DecidableEq, Repr

/-- An enabled coefficient multiplier of a group: its cell, coefficient, configured exponent, the position that its summer
feeds, and its source; integrators by device number. -/
structure Path where
  cell : Nat
  coef : Int
  g : Int
  pos : Nat
  src : Source
  deriving DecidableEq, Repr

/-- The paths of group g, ascending in cell. -/
def State.paths (s : State) (g : Nat) : List Path :=
  let v := s.vgroup g
  let dev := fun (x : Nat) => 2048 * vaultDieOf g + x
  ((List.range 896).filter fun n => 32 ≤ n % 112 && n % 112 < 96 && (Tbl.get 0 v.cells n).getLsbD 34).map fun n =>
    let w := Tbl.get 0 v.cells n
    let src := (bits w 0 12 : BitVec 12).toNat
    { cell := n
      coef := (bits w 12 12 : BitVec 12).toInt
      g := (bits w 24 5 : BitVec 5).toInt
      pos := 32 * (n / 112) + (bits w 29 5 : BitVec 5).toNat
      src := if src < 0x800 then .integ (dev src)
        else if src = 0x800 then .one
        else
          let m := Tbl.get 0 v.cells (112 * (n / 112) + 96 + (src - 0x801))
          .prod (m.getLsbD 22) (dev (bits m 0 11 : BitVec 11).toNat) (dev (bits m 11 11 : BitVec 11).toNat) }

/-- The exponent and the fabric value of an integrator, by device number. -/
def State.scaleOf (s : State) (i : Nat) : Int := Tbl.get 0 (s.vgroup (i / 256)).scale (i % 256)
def State.fabricOf (s : State) (i : Nat) : Rat := Tbl.get 0 (s.vgroup (i / 256)).x (i % 256)

/-- The effective exponent of a path into integrator i (R374), under exponents k. -/
def Path.effective (p : Path) (k : Nat → Int) (i : Nat) : Int :=
  match p.src with
  | .integ j => p.g + k j - k i
  | .one => p.g - k i
  | .prod _ x y => p.g + k x + k y - k i

def ratAbs (x : Rat) : Rat := if x < 0 then -x else x

/-- The number of an interval that is nearest to x. -/
def between (lo hi x : Rat) : Rat := if x < lo then lo else if hi < x then hi else x

/-- 2^e. -/
def ratPow2 (e : Int) : Rat := if 0 ≤ e then ((2 ^ e.toNat : Nat) : Rat) else 1 / ((2 ^ (-e).toNat : Nat) : Rat)

/-- The output of the summer that feeds the integrator at position p of group g, clipped at ±8 (R373). -/
def State.summer (s : State) (g p : Nat) : Rat :=
  let terms := ((s.paths g).filter fun q => q.pos == p).map fun q =>
    let u : Rat := match q.src with
      | .integ j => s.fabricOf j
      | .one => 1
      | .prod en x y => if en then s.fabricOf x * s.fabricOf y else 0
    ((q.coef : Rat) / 2048) * ratPow2 (Tbl.get 0 (s.vgroup g).eff q.cell) * u
  between (-8) 8 (terms.foldl (· + ·) 0)

/-! ## Fault records (R268) -/

def vaultRecord (reason detail : Nat) : Word :=
  BitVec.ofNat 64 (TrapClass.vault.code + reason * 256 + detail % 2 ^ 48 * 65536)

def asatRecord (i t : Nat) : Word :=
  BitVec.ofNat 64 (TrapClass.asat.code + i / 2048 * 256 + i / 32 % 64 * 512 + i % 32 * 32768 + t % 2 ^ 32 * 2 ^ 24)

/-! ## The start of a run (R266) -/

/-- The start code of v0 under exponent k. -/
def startCode (v0 : Word32) (k : Int) : Int :=
  match decodeF .f32 v0.toNat with
  | .fin neg m e => (Dy.of neg m (e - k + 15)).nearest
  | _ => 0

/-- The codes c_0 that a run loads, for each enabled integrator of its groups. -/
def State.startCodes (s : State) (groups : List Nat) (cap : List (Nat × Word32 × Int)) : List (Nat × Int) :=
  groups.flatMap fun g => ((s.vgroup g).integrators).map fun p =>
    let i := 256 * g + p
    (i, match cap.find? fun c => c.1 == i with
      | some c => startCode c.2.1 c.2.2
      | none => 0)

/-- The integrators of groups are loaded with codes (step 3); a code beyond 16 bits is held as the number that it is until the run
faults and after (DESIGN CHOICE, log entry 73). -/
def State.loadCodes (s : State) (groups : List Nat) (codes : List (Nat × Int)) : State :=
  groups.foldl (fun s g => s.modVGroup g fun v =>
    { v with x := (codes.filter fun c => c.1 / 256 == g).foldl (fun t c =>
        Tbl.set 0 t (c.1 % 256) ((c.2 : Rat) / 32768)) [] }) s

/-- What a started run does to the state: the groups hold their effective exponents and start codes, or the record that the
token faults with. `cap` is what the run captured: integrator, initial value, exponent. -/
def State.startRun (s : State) (groups : List Nat) (cap : List (Nat × Word32 × Int)) : Except Word State :=
  match groups.find? fun g => (s.vgroup g).cfg != .configured with
  | some g => .error (vaultRecord 1 g)
  | none =>
    let k := fun (j : Nat) => match cap.find? fun c => c.1 == j with
      | some c => c.2.2
      | none => s.scaleOf j
    let eff := fun g => (s.paths g).map fun q => (q, q.effective k (256 * g + q.pos))
    let outside := groups.flatMap fun g => ((eff g).filter fun q => q.2 < -16 || 7 < q.2).map fun q => 256 * g + q.1.pos
    match outside with
    | i :: is => .error (vaultRecord 3 (is.foldl min i))
    | [] =>
      let codes := s.startCodes groups cap
      match codes.find? fun c => c.2 < -32768 || 32767 < c.2 with
      | some c => .error (asatRecord c.1 0)
      | none => .ok (groups.foldl (fun s' g => s'.modVGroup g fun v =>
          { v with
            run := .running, runTime := 0, counting := true, quiet := []
            eff := (eff g).foldl (fun t q => Tbl.set 0 t q.1.cell q.2) [] }) (s.loadCodes groups codes))

/-- The outcome code of a run that ended (R275), and its integrators hold. -/
def State.endRunGroups (s : State) (groups : List Nat) (last : BitVec 4) : State :=
  groups.foldl (fun s g => s.modVGroup g fun v => { v with run := .holding, last := last, token := none }) s

/-! ## The image (R378, R379) -/

/-- A reserved bit, reserved source or foreign group in the word of cell n of group g: `held` says which groups the
partition holds. -/
def cellBad (held : Nat → Bool) (g n : Nat) (w : Word) : Bool :=
  let grp := fun (x : Nat) => 8 * vaultDieOf g + x / 256
  let m := n % 112
  if m < 32 then bits w 1 63 != (0 : BitVec 63)
  else if m < 96 then
    let src := (bits w 0 12 : BitVec 12).toNat
    bits w 35 29 != (0 : BitVec 29) || 0x811 ≤ src || (src < 0x800 && !held (grp src))
  else
    bits w 23 41 != (0 : BitVec 41) || !held (grp (bits w 0 11 : BitVec 11).toNat) ||
      !held (grp (bits w 11 11 : BitVec 11).toNat)

/-- Some summer of the cells has more than 16 enabled inputs. -/
def summerBad (cells : Tbl Word) : Bool :=
  (List.range 256).any fun p =>
    16 < ((List.range 64).filter fun j =>
      let w := Tbl.get 0 cells (112 * (p / 32) + 32 + j)
      w.getLsbD 34 && (bits w 29 5 : BitVec 5).toNat == p % 32).length

/-- Words put into cells n, n + 1, … of a group: the cells; or the offset of the first that fails (R379 step 3). -/
def putWords (held : Nat → Bool) (g : Nat) : Nat → List (Nat × Word) → Tbl Word → Except Nat (Tbl Word)
  | _, [], t => .ok t
  | n, (off, w) :: ws, t => if cellBad held g n w then .error off else putWords held g (n + 1) ws (Tbl.set 0 t n w)

/-- The items of a section from byte `off` on, with cell `n` next: the cells and what is left of the image; or the failing
offset. `fuel` bounds the items by the image's words. -/
def expandItems (held : Nat → Bool) (dict : Tbl Word) (g len : Nat) :
    Nat → Nat → Nat → List Word → Tbl Word → Except Nat (Tbl Word × Nat × List Word)
  | 0, _, _, _, _ => .error len
  | fuel + 1, off, n, ws, t =>
    match ws with
    | [] => .error len
    | w :: rest =>
      let kind := (bits w 0 2 : BitVec 2).toNat
      if kind = 0 then
        (if w ≠ 0 then .error off else if summerBad t then .error off else .ok (t, off + 8, rest))
      else if kind = 1 then
        let r := (bits w 10 10 : BitVec 10).toNat + 1
        let e := Tbl.get 0 dict (bits w 2 8 : Byte).toNat
        if (bits w 20 44 : BitVec 44) != 0 || 896 < n + r then .error off
        else match putWords held g n (List.replicate r (off, e)) t with
          | .error o => .error o
          | .ok t' => expandItems held dict g len fuel (off + 8) (n + r) rest t'
      else
        let c := (bits w 2 10 : BitVec 10).toNat
        if (bits w 12 52 : BitVec 52) != 0 || c = 0 || 896 < n + c then .error off
        else if kind = 3 then expandItems held dict g len fuel (off + 8) (n + c) rest t
        else
          let lits := (rest.take c).zipIdx.map fun x => (off + 8 + 8 * x.2, x.1)
          match putWords held g n lits t with
          | .error o => .error o
          | .ok t' =>
            if rest.length < c then .error len
            else expandItems held dict g len fuel (off + 8 + 8 * c) (n + c) (rest.drop c) t'

/-- The sections of an image for the groups of a mask, in order: the cells of each; or the failing offset. -/
def expandImage (held : Nat → Bool) (dict : Nat → Tbl Word) (len : Nat) :
    List Nat → Nat → List Word → Except Nat (List (Nat × Tbl Word))
  | [], off, ws => if ws.isEmpty then .ok [] else .error off
  | g :: gs, off, ws =>
    match ws with
    | [] => .error len
    | h :: rest =>
      if h ≠ BitVec.ofNat 64 (0xC4 + 256 * g) then .error off
      else match expandItems held (dict g) g len (rest.length + 1) (off + 8) 0 rest [] with
        | .error o => .error o
        | .ok (t, off', rest') => match expandImage held dict len gs off' rest' with
          | .error o => .error o
          | .ok more => .ok ((g, t) :: more)

/-- A group as a finished `acfg` leaves it (R262), with these cells. -/
def VGroup.configure (v : VGroup) (cells : Tbl Word) : VGroup :=
  { v with cfg := .configured, cfgGen := v.cfgGen + 1, cells := cells, x := [], scale := [], init := [], quiet := []
           eff := [], last := 0, runTime := 0, counting := false, run := .holding, token := none }

end Sys2Proof.Machine
end

