-- ==== Sys2Proof/Machine/Tokens.lean ====
section
/-! DEFINITION. Tokens (R43, R44, R221-R231): handles, issue, engine selection, permits (R369), the terminal transition
and what follows from it, sequence records that a fault breaks (R218), and the token instructions. -/

namespace Sys2Proof.Machine

/-! ## Handles (R43) -/

def handleOf (course idx : Nat) (gen : BitVec 16) : BitVec 32 := BitVec.ofNat 32 (course * 16777216 + idx * 65536 + gen.toNat)
def hCourse (h : BitVec 32) : Nat := h.toNat / 16777216
def hIdx (h : BitVec 32) : Nat := h.toNat / 65536 % 256

/-- The entry that a handle points at, whatever its generation. -/
def State.token (s : State) (h : BitVec 32) : Token := Tbl.get Token.zero (s.course (hCourse h)).tokens (hIdx h)

def State.modToken (s : State) (h : BitVec 32) (f : Token → Token) : State :=
  s.modCourse (hCourse h) fun c =>
    { c with tokens := Tbl.set Token.zero c.tokens (hIdx h) (f (Tbl.get Token.zero c.tokens (hIdx h))) }

/-- The live token of a handle that is not stale. -/
def State.tokenAt (s : State) (h : BitVec 32) : Option Token :=
  let t := s.token h
  if hCourse h < 160 && t.state != .free && t.gen == bits h 0 16 then some t else none

/-- The same as a thread sees it: a token of another partition is stale. -/
def State.findToken (s : State) (thr : Nat) (h : BitVec 32) : Option Token :=
  match s.tokenAt h with
  | some t => if t.part.toNat = (s.ctx thr).part then some t else none
  | none => none

/-- Every token of the device with its handle. -/
def State.allTokens (s : State) : List (BitVec 32 × Token) :=
  s.courses.flatMap fun c => (c.2.tokens.filter fun t => t.2.state != .free).map fun t => (handleOf c.1 t.1 t.2.gen, t.2)

def TokState.live : TokState → Bool
  | .queued | .permit | .running => true
  | _ => false

/-! ## Engines (R223, R262) -/

/-- The bytes of a layout (R234). -/
def Layout.total (l : Layout) : Nat := 2 ^ l.esz * l.extent.foldl (· * ·) 1

/-- The engines of an operation issued on a course. -/
def TokOp.engines (course : Nat) : TokOp → List Engine
  | .none => []
  | .mma _ _ _ _ _ => [.matrix course]
  | .copy _ => [.copy course]
  | .coll _ => [.copy course]
  | .acfg mask _ _ => (maskGroups mask).map .vault
  | .arun mask _ _ _ _ _ _ => (maskGroups mask).map .vault

/-- The operation needs a permit (R48, R235, R251, R266). -/
def TokOp.needsPermit : TokOp → Bool
  | .none => false
  | .mma _ _ _ _ _ => true
  | .copy j => 65536 ≤ j.lay.total
  | .coll _ => true
  | .acfg _ _ _ => false
  | .arun _ _ _ _ _ _ _ => true

/-- The die whose arbiter grants its permit. -/
def TokOp.die (course : Nat) : TokOp → Nat
  | .arun mask _ _ _ _ _ _ => vaultHostDie ((maskGroups mask).headD 0)
  | _ => course / 20

/-- The token that an engine runs or holds. -/
def State.engineHeld (s : State) : Engine → Option (BitVec 32)
  | .matrix c => (s.course c).matrix
  | .copy c => (s.course c).copyEng
  | .vault g => (s.vgroup g).token

def State.setEngine (s : State) (e : Engine) (h : Option (BitVec 32)) : State :=
  match e with
  | .matrix c => s.modCourse c fun k => { k with matrix := h }
  | .copy c => s.modCourse c fun k => { k with copyEng := h }
  | .vault g => s.modVGroup g fun v => { v with token := h }

/-- An engine that starts no token now: busy, or a group that calibrates (R274). -/
def State.engineBusy (s : State) (e : Engine) : Bool :=
  (s.engineHeld e).isSome || (match e with
    | .vault g => (s.vgroup g).run == .calibrating
    | _ => false)

/-- The tokens of an engine. -/
def State.engineTokens (s : State) (e : Engine) : List (BitVec 32 × Token) :=
  s.allTokens.filter fun t => (t.2.op.engines (hCourse t.1)).contains e

/-- What a predecessor allows (R225): `none` while it is live, `some true` to start, `some false` to be cancelled. A handle of
another partition is stale (R43). -/
def State.predecessor (s : State) (t : Token) : Option Bool :=
  if t.predFailed then some false
  else match (s.tokenAt t.pred).filter fun p => p.part == t.part with
  | none => some true
  | some p => match p.state with
    | .done => some true
    | .faulted => some false
    | .cancelled => some false
    | _ => none

/-- A token that the engine may start (R223); `q` are the tokens of the engine. -/
def State.eligible (s : State) (q : List (BitVec 32 × Token)) (t : Token) : Bool :=
  t.state == .queued && t.here && !t.away && s.predecessor t == some true &&
    !(q.any fun u => u.2.issuer == t.issuer && u.2.arr < t.arr &&
      (u.2.state == .queued || (t.bar && u.2.state.live)))

/-- The better of two: higher priority, then earlier arrival. -/
def better (a b : BitVec 32 × Token) : BitVec 32 × Token :=
  if b.2.prio.toNat < a.2.prio.toNat || (a.2.prio == b.2.prio && a.2.arr < b.2.arr) then a else b

/-- Two parts of one collective. -/
def TokOp.mates : TokOp → TokOp → Bool
  | .coll x, .coll y => x.sel == y.sel && x.seqNo == y.seqNo
  | _, _ => false

/-- The engine may start a token: it runs nothing, or a part of the same collective, whose parts on one course run together since
none completes alone (R253; DEDUCED, log entry 69). -/
def State.engineTakes (s : State) (e : Engine) (op : TokOp) : Bool :=
  !s.engineBusy e || (s.engineHeld e).any fun h => (s.token h).state == .running && (s.token h).op.mates op

/-- A token leaves its engine, to another part of its collective that runs there. -/
def State.leaveEngine (s : State) (h : BitVec 32) (e : Engine) : State :=
  if s.engineHeld e = some h then
    s.setEngine e (((s.engineTokens e).find? fun t => t.1 != h && t.2.state == .running && t.2.op.mates (s.token h).op).map
      Prod.fst)
  else s

/-- What R223 chooses at an engine. -/
def State.choice (s : State) (e : Engine) : Option (BitVec 32) :=
  let q := s.engineTokens e
  match q.filter fun t => s.engineTakes e t.2.op && s.eligible q t.2 with
  | [] => none
  | t :: ts => some (ts.foldl (fun a b => better b a) t).1

/-! ## Completion messages (R224) -/

/-- The message of a terminal token. -/
def Token.message (t : Token) (h : BitVec 32) : Message :=
  let kind := match t.state with
    | .done => 2
    | .faulted => 3
    | _ => 4
  let tag : BitVec 16 := match t.state with
    | .done => t.fin
    | .faulted => (bits t.fault 0 8 : Byte).setWidth 16
    | _ => 0
  mkMessage kind (if t.own = t.ident then 0 else 1) tag t.issuer.toNat (zext h)

/-- Posts the completion message of a token, or leaves it pending. The mailbox of a team that is out is the one of its image
(R294). -/
def State.postCompletion (s : State) (h : BitVec 32) : State :=
  let t := s.token h
  let pend := s.modToken h fun t => { t with pend := true }
  if !t.det || (s.launch t.own.launch).det || t.owner == ownerLaunch then s
  else if s.teamOut t.own.launch t.own.team then
    (if (s.teamOf t.own.launch t.own.team).image.mailbox.length < 32 then
      s.modTeam t.own.launch t.own.team fun m =>
        { m with image := { m.image with mailbox := m.image.mailbox ++ [t.message h] } }
     else pend)
  else
    let core := coreOf t.owner.toNat
    if s.mailUsed core < 32 then s.modTm core fun m => { m with mailbox := m.mailbox ++ [t.message h] } else pend

/-- A pending completion is delivered when an entry frees. -/
def execPendingCompletionDelivery (core : Nat) (s : State) : Out :=
  match s.allTokens.find? fun t => t.2.pend && !t.2.away && coreOf t.2.owner.toNat == core with
  | none => .next s
  | some (h, t) =>
    if 32 ≤ s.mailUsed core then .next s
    else .next ((s.modTm core fun m => { m with mailbox := m.mailbox ++ [t.message h] }).modToken h fun t =>
      { t with pend := false }.settle)

/-! ## The terminal transition (R221) -/

/-- The permit returns to the pool (R48, R369). -/
def State.dropPermit (s : State) (h : BitVec 32) : State :=
  let t := s.token h
  match t.permit with
  | none => s
  | some d =>
    (((s.modDie d fun k => { k with held := k.held - 1 }).modPart t.part.toNat fun p =>
      { p with held := vset p.held d (vget 0 p.held d - 1) }).modToken h fun t => { t with permit := none }).post
      (.permitGrant d)

/-- The token waits for a permit no longer. -/
def State.unqueuePermit (s : State) (h : BitVec 32) : State :=
  let d := (s.token h).op.die (hCourse h)
  s.modDie d fun k => { k with waiting := k.waiting.filter (· ≠ h) }

/-- The slots that an `mma` names, each once (R194). -/
def pairSlots (ps : List MmaPair) : List Nat := (ps.flatMap fun p => [p.a.toNat, p.b.toNat]).eraseDups

/-- An engine returns a slot: a released one frees, one of a team that is out becomes owed (R200, R206). -/
def Slot.giveBack (t : Slot) : Slot :=
  let t := { t with uses := t.uses - 1 }
  if t.uses ≠ 0 then t
  else match t.onReturn with
    | 1 => { t with bd := false, dy := false, onReturn := 0 }
    | 2 => { t with ow := true, onReturn := 0 }
    | _ => t

/-- The engine returns the slots of a token (R194, R215). -/
def State.returnSlots (s : State) (h : BitVec 32) : State :=
  match (s.token h).op with
  | .mma f acc ps ch sk =>
    ((pairSlots ps).foldl (fun s k => s.modSlot (hCourse h) k Slot.giveBack) s).modToken h fun t =>
      { t with op := .mma f acc [] ch sk }
  | _ => s

/-- The shadow frames of a copy return to the pool (R236, R349). -/
def State.releaseFrames (s : State) (h : BitVec 32) : State :=
  match (s.token h).op with
  | .copy j =>
    if j.shadow.isEmpty then s
    else (s.modPart (s.token h).part.toNat fun p =>
        { p with frames := p.frames.filter fun f => !j.shadow.any fun x => x.2 == f }).modToken h fun t =>
      { t with op := .copy { j with shadow := [], held := 0 } }
  | _ => s

/-- The attached thread resumes after its instruction, or traps at it with the token's record (R214, R221, R277). -/
def State.resumeAttached (s : State) (h : BitVec 32) : State :=
  let t := s.token h
  let waits := fun (c : Ctx) => match c.wait with
    | .attached k srcs => if k = h then some srcs else none
    | _ => none
  match s.threads.findSome? fun x => (waits x.2).map fun srcs => (x.1, srcs) with
  | none => s
  | some (thr, srcs) =>
    let s1 := s.modToken h fun t => { t with att := false }.settle
    if t.state = .faulted then
      (s1.modCtx thr fun c => { c with wait := .ready }).trapEntry thr (bits t.fault 0 8 : Byte).toNat (t.fault >>> 8)
        (zext h) (s.ctx thr).pc true
    else (s1.consumeLate thr srcs).resume thr

/-- Threads parked in `twait` on a token. -/
def State.waiters (s : State) (h : BitVec 32) : List Ident :=
  (s.threads.filter fun x => x.2.live && x.2.wait == .cond (.tokenLive h)).map fun x => x.2.ident

def postAll (ds : List Due) (s : State) : State := ds.foldl State.post s

/-- A token becomes terminal: it returns its permit, its engines and its slots, and its owner or attached thread learns of
it. -/
def State.finishToken (s : State) (h : BitVec 32) (st : TokState) (fin : BitVec 16) (fault : Word) : State :=
  let t := s.token h
  if !t.state.live then s
  else
    let es := t.op.engines (hCourse h)
    let s := (((s.unqueuePermit h).dropPermit h).returnSlots h).releaseFrames h
    let s := es.foldl (fun s e => s.leaveEngine h e) s
    let s := s.modToken h fun t =>
      { t with state := st, fin := fin, fault := fault, stop := 0, owed := s.waiters h }
    let s := if st = .done then s else s.mapTokens fun u =>
      if u.pred = h ∧ u.state = .queued ∧ u.part = t.part then { u with predFailed := true } else u
    let later := (s.allTokens.filter fun u => u.2.pred == h && u.2.state == .queued).flatMap fun u =>
      u.2.op.engines (hCourse u.1)
    let s := postAll ((es ++ later).map .tokenSelect) s
    let s := ((s.postCompletion h).modToken h Token.settle).resumeAttached h
    s.post (.launchEnd t.ident.launch)

/-! ## Sequence records (R218) -/

/-- The key of an accumulator's record. -/
def Token.seqKey (t : Token) (acc : Word) : Nat := (t.part.toNat * 4096 + t.tasid.toNat) * 2 ^ 64 + acc.toNat

/-- A record closes when every chunk 0 to N − 1 has been merged, discarded or notified. -/
def State.closeSeq (s : State) (key : Nat) : State :=
  let r := s.seqRec key
  if r.count ≠ 0 ∧ (List.range r.count).all r.closed.contains then s.setSeq key SeqRec.zero else s

/-- The record of a key, opened with N chunks if none is open. -/
def State.openSeq (s : State) (key n part : Nat) : SeqRec :=
  let r := s.seqRec key
  if r.count = 0 then { SeqRec.zero with count := n, part := part } else r

/-- The record of MERGE: the chunk in its detail. -/
def mergeRecord (chunk : Nat) : Word := BitVec.ofNat 64 (TrapClass.merge.code + chunk * 256)

/-- Engines that hold a refused partial present it again (R218). -/
def State.retryRefused (s : State) : State :=
  postAll ((s.courses.filter fun c => c.2.refused.isSome).map fun c => .partialRetry c.1) s

/-- The token of an unmerged chunk faulted or was cancelled before its partial merged: the record breaks, and what waits in it is
discarded. A chunk that another token's partial has merged is no longer unmerged. -/
def State.breakSeq (s : State) (key chunk n part : Nat) : State :=
  let r := s.openSeq key n part
  if chunk < r.next then s else
  let add := fun (l : List Nat) (c : Nat) => if l.contains c then l else c :: l
  let s := s.setSeq key { r with
    broken := true, waiting := [], seen := add r.seen chunk
    closed := r.waiting.foldl (fun l w => add l w.1) (add r.closed chunk) }
  ((r.waiting.foldl (fun s w => s.finishToken w.2.tok .faulted 0 (mergeRecord w.1)) s).closeSeq key).retryRefused

/-! ## Collectives that fail (R121, R253) -/

def groupRecord (team : Nat) : Word := BitVec.ofNat 64 (TrapClass.group.code + team * 256)

def Rendezvous.isOf (r : Rendezvous) (j : CollJob) : Bool := r.sel == j.sel && r.seqNo == j.seqNo

/-- Collectives whose members' tokens are all terminal leave. -/
def State.closeColls (s : State) : State :=
  { s with colls := s.colls.filter fun r =>
      !(r.members.all fun m => r.toks.any fun x => x.1 == m && !(s.tokenAt x.2).any fun t => t.state.live) }

/-- The token of a member's handle runs; one whose entry has been freed, and perhaps taken again, does not (R43). -/
def State.runs (s : State) (h : BitVec 32) : Bool := (s.tokenAt h).any fun t => t.state == .running

/-- A collective fails for its members: what runs faults with GROUP and the team of the failure, and what has not started
faults when it runs. -/
def State.failMates (s : State) (r : Rendezvous) (team : Nat) (h : BitVec 32) : State :=
  if r.failed.isSome then s
  else
    let s1 := { s with colls := s.colls.map fun x =>
      if x.sel = r.sel ∧ x.seqNo = r.seqNo then { x with failed := some (team, h) } else x }
    (r.toks.foldl (fun s m =>
      if m.2 ≠ h ∧ s.runs m.2 then s.finishToken m.2 .faulted 0 (groupRecord team) else s) s1)

/-- The part of a member ended without its effect. -/
def State.failPart (s : State) (h : BitVec 32) (j : CollJob) : State :=
  match s.colls.find? fun r => r.isOf j with
  | some r => (s.failMates r j.team h).closeColls
  | none => s

/-- A token ends. An `mma` that carries a chunk and has not merged breaks its record (R218); a collective's part that
faults or is cancelled fails the collective. -/
def State.endToken (s : State) (h : BitVec 32) (st : TokState) (fin : BitVec 16) (fault : Word) : State :=
  let t := s.token h
  if !t.state.live then s
  else
    let s := s.finishToken h st fin fault
    match t.op with
    | .mma _ acc _ (some (c, n)) _ =>
      if st = .done then s else s.breakSeq (t.seqKey acc) c.toNat n.toNat t.part.toNat
    | .coll j => if st = .done then s.closeColls else s.failPart h j
    | _ => s

/-- A team is killed: its running parts fault, and the collectives that still await it fail (R121, R253). -/
def State.killColls (s : State) (launch team : Nat) : State :=
  (s.colls.filter fun r => r.launch == launch && r.members.contains team).foldl (fun s r =>
    match r.toks.find? fun x => x.1 == team with
    | none => s.failMates r team 0
    | some x =>
      if s.runs x.2 then s.endToken x.2 .faulted 0 (groupRecord team) else s) s

/-! ## Cancelling (R226) -/

/-- A running vault run stops (R273): cancelled, with the run time in its record. -/
def State.stopRun (s : State) (h : BitVec 32) : State :=
  match (s.token h).op with
  | .arun mask _ _ _ _ _ _ =>
    let gs := maskGroups mask
    let rt := (s.vgroup (gs.headD 0)).runTime
    (s.endRunGroups gs 5).endToken h .cancelled 0 (zext rt <<< 24)
  | _ => s

/-- The groups of an `acfg` token are left unconfigured (R262); what they last ran to, held values, exponents, initial values and run
time stay (DESIGN CHOICE, log entry 87). -/
def State.unconfigure (s : State) (gs : List Nat) : State :=
  gs.foldl (fun s g => s.modVGroup g fun v => { v with cfg := .unconfigured, cells := [] }) s

/-- `tcancel` of a token, or the kill of its team. -/
def State.cancelToken (s : State) (h : BitVec 32) : State :=
  let t := s.token h
  match t.state with
  | .queued => s.endToken h .cancelled 0 0
  | .permit => s.endToken h .cancelled 0 0
  | .running => match t.op with
    | .copy _ => s.modToken h fun t => { t with stop := 1 }
    | .arun _ _ _ _ _ _ _ => s.stopRun h
    | _ => s
  | _ => s

/-- The tokens of a killed team (R227): cancelled or left to run on, and freed when terminal. -/
def State.killTokens (s : State) (launch team : Nat) : State :=
  let mine := s.allTokens.filter fun t =>
    t.2.own.launch == launch && t.2.own.team == team && t.2.owner != ownerLaunch
  let s := mine.foldl (fun s t => s.modToken t.1 fun t => { t with det := false, pend := false, att := false }) s
  mine.foldl (fun s t =>
    (s.cancelToken t.1).modToken t.1 fun u => if u.gen = t.2.gen then u.settle else u) (s.killColls launch team)

/-! ## Issue (R221) -/

/-- The vault die that an operation's request travels to. -/
def TokOp.vaultDie : TokOp → Option Nat
  | .acfg mask _ _ => some (vaultDieOf ((maskGroups mask).headD 0))
  | .arun mask _ _ _ _ _ _ => some (vaultDieOf ((maskGroups mask).headD 0))
  | _ => Option.none

/-- The running thread takes a token for an operation: detached, its handle goes to d; attached, the thread waits. The issue is
a causal event: what precedes it is performed first (R297, R307). A copy's order is its own: `copyOp` sees to it. -/
def State.takeToken (s : State) (op : TokOp) (prio : BitVec 2) (bar det : Bool) (d : BitVec 5)
    (srcs : List (BitVec 5)) : State :=
  let k := courseOf s.cur
  let c := s.me
  let s := match op with
    | .copy _ => s
    | _ => s.performCausal s.cur
  let idx := (s.freeToken k).getD 0
  let old := Tbl.get Token.zero (s.course k).tokens idx
  let h := handleOf k idx old.gen
  let t : Token := { Token.zero with
    state := .queued, gen := old.gen, prio := prio, owner := BitVec.ofNat 15 s.cur, issuer := BitVec.ofNat 15 s.cur
    det := det, part := BitVec.ofNat 8 c.part, op := op, bar := bar, arr := s.nextArr, pl := stPl c.status
    tasid := c.tasid, ident := c.ident, ownLent := c.lent, own := c.ident, att := !det, here := op.vaultDie.isNone }
  let s1 := { s with nextArr := s.nextArr + 1 }.modToken h fun _ => t
  let s2 := match op.vaultDie with
    | none => postAll ((op.engines k).map .tokenSelect) s1
    | some v => (s1.modVDie v fun x => { x with reqs := x.reqs ++ [⟨s.cur, c.ident, c.part, .capture h⟩] }).post (.vaultRequest v)
  if det then finish s2 srcs d (zext h) else s2.modMe fun c => { c with wait := .attached h srcs }

/-! ## Selection and permits (R223, R369) -/

/-- A token runs. -/
def State.runToken (s : State) (h : BitVec 32) : State :=
  let t := s.token h
  let k := hCourse h
  let s := (t.op.engines k).foldl (fun s e => s.setEngine e (some h)) s
  let s := s.modToken h fun t => { t with state := .running }
  match t.op with
  | .none => s
  | .mma _ _ _ _ _ => s.post (.mmaReady k)
  | .copy _ => s.post (.copyUnit k)
  | .coll _ => (s.post (.collective h)).post (.tokenSelect (.copy k))
  | .acfg mask _ _ =>
    ((maskGroups mask).foldl (fun s g => s.modVGroup g fun v => { v with cfg := .configuring }) s).post (.acfgDone h)
  | .arun mask _ _ _ _ _ cap =>
    let gs := maskGroups mask
    match s.startRun gs (cap.getD []) with
    | .ok s' => s'
    | .error f =>
      -- ASAT comes at step 4 of R266, after the integrators are loaded
      if bits f 0 8 = (32 : Byte) then
        ((s.loadCodes gs (s.startCodes gs (cap.getD []))).endRunGroups gs 4).endToken h .faulted 0 f
      else (s.endRunGroups gs 6).endToken h .faulted 0 f

/-- The engine selects a token, or cancels one whose predecessor failed (R225). -/
def execTokenSelect (eng : Engine) (s : State) : Out :=
  match (s.engineTokens eng).find? fun t => t.2.state == .queued && s.predecessor t.2 == some false with
  | some (h, t) => .next ((s.endToken h .cancelled 0 (zext t.pred <<< 16)).post (.tokenSelect eng))
  | none =>
    match s.choice eng with
    | none => .next s
    | some h =>
      let t := s.token h
      let es := t.op.engines (hCourse h)
      if !(es.all fun e => s.choice e == some h) then .next s
      else if t.op.needsPermit then
        let d := t.op.die (hCourse h)
        let s := es.foldl (fun s e => s.setEngine e (some h)) s
        let s := s.modToken h fun t => { t with state := .permit }
        .next ((s.modDie d fun k => { k with waiting := k.waiting ++ [h] }).post (.permitGrant d))
      else .next (s.runToken h)

/-- A request whose partition has not reached its share on the die. -/
def State.grantable (s : State) (d : Nat) (h : BitVec 32) : Bool :=
  let p := s.part (s.token h).part.toNat
  vget 0 p.held d < (vget 0 p.shares d).toNat

/-- The die's arbiter grants a permit: by priority, then arrival, past requests held back by a share alone. -/
def execPermitGrant (die : Nat) (s : State) : Out :=
  let k := s.die die
  if k.pcount.toNat ≤ k.held then .next s
  else match k.waiting.filter (s.grantable die) with
    | [] => .next s
    | h :: hs =>
      let g := hs.foldl (fun a b => if (s.token a).prio.toNat < (s.token b).prio.toNat then b else a) h
      let s := s.modDie die fun k => { k with held := k.held + 1, waiting := k.waiting.filter (· ≠ g) }
      let s := s.modPart (s.token g).part.toNat fun p => { p with held := vset p.held die (vget 0 p.held die + 1) }
      .next (((s.modToken g fun t => { t with permit := some die }).runToken g).post (.permitGrant die))

/-! ## Token instructions (R228-R231) -/

/-- The result word r (R228). -/
def TokState.code : TokState → Nat
  | .free => 7
  | .queued => 1
  | .permit => 2
  | .running => 3
  | .done => 4
  | .faulted => 5
  | .cancelled => 6

def Token.result (t : Token) : Word :=
  BitVec.ofNat 64 (t.state.code + (if t.state = .done then t.fin.toNat * 65536 else 0))

/-- The running thread is the owner. -/
def Token.ownedBy (t : Token) (s : State) : Bool :=
  t.owner == BitVec.ofNat 15 s.cur && !t.away && t.ownLent == s.me.lent && t.own == s.me.ident

/-- The running thread may use an "owner only" instruction. -/
def Token.allows (t : Token) (s : State) : Bool := t.ownedBy s || stPl s.me.status != 0

/-- A result has been returned to the running thread: it collects the token (R222). -/
def State.collect (s : State) (h : BitVec 32) : State :=
  s.modToken h fun t => { t with det := false, owed := t.owed.erase s.me.ident }.settle

/-- A token instruction with handle a: `stale` is written for a stale handle; its other sources are then neither read nor popped
(DESIGN CHOICE, log entry 84). -/
def tokenOp (free : Bool) (stale : Word) (d a : BitVec 5) (more : List Field)
    (body : State → BitVec 32 → Token → Except Stop State) (s : State) : Out :=
  issue false true 0 ([.dst 0 d, .src 1 a] ++ more) (fun s => do
    if free then needFree s
    let x ← rd s a
    let h : BitVec 32 := bits x 0 32
    match s.findToken s.cur h with
    | none => return finish s [a] d stale
    | some t => body s h t) s

/-- `twait` and `twait.t`. -/
def waiting (trap : Bool) (d a : BitVec 5) (s : State) : Out :=
  tokenOp false 7 d a [] (fun s h t =>
    if !t.state.terminal then .error (.park (.tokenLive h))
    else if trap && t.state == .faulted then
      -- the token stays uncollected; no result is owed to this thread now
      .ok ((s.modToken h fun t => { t with owed := t.owed.erase s.me.ident }.settle).trapAt s.cur .token t.fault
        (zext h))
    else .ok (finish (s.collect h) [a] d t.result)) s

def execTwait (d a : BitVec 5) (s : State) : Out := waiting false d a s
def execTwaitT (d a : BitVec 5) (s : State) : Out := waiting true d a s

def execTtest (d a : BitVec 5) (s : State) : Out :=
  tokenOp true 7 d a [] (fun s h t =>
    let s1 := if t.state.terminal && t.ownedBy s then s.collect h else s
    .ok (finish s1 [a] d t.result)) s

/-- An "owner only" instruction: NOTOWN for others, whose other sources are not read either (DESIGN CHOICE, log entry 84). -/
def ownerOp (free : Bool) (d a : BitVec 5) (more : List Field)
    (body : State → BitVec 32 → Token → Except Stop State) (s : State) : Out :=
  tokenOp free 7 d a more (fun s h t => if t.allows s then body s h t else .ok (finish s [a] d 8)) s

def execTcancel (d a : BitVec 5) (s : State) : Out :=
  ownerOp true d a [] (fun s h _ =>
    let s1 := s.cancelToken h
    -- an entry that frees at once was cancelled
    .ok (finish s1 [a] d (match s1.tokenAt h with
      | some t => t.result
      | none => 6))) s

def execTdetach (d a : BitVec 5) (s : State) : Out :=
  ownerOp false d a [] (fun s h t =>
    .ok (finish (s.modToken h fun t => { t with det := false }.settle) [a] d t.result)) s

def execTadopt (d a : BitVec 5) (s : State) : Out :=
  tokenOp false 7 d a [] (fun s h t =>
    let s1 := s.modToken h fun t =>
      { t with owner := BitVec.ofNat 15 s.cur, own := s.me.ident, ownLent := s.me.lent, away := false }
    let s2 := postAll ((t.op.engines (hCourse h)).map .tokenSelect) s1
    -- a completion that is pending goes to the adopter's core (R227)
    .ok (finish (s2.post (.pendingDelivery (coreOf s.cur))) [a] d t.result)) s

/-- Earlier queued tokens of the issuer on an engine are raised to a priority. -/
def State.raiseEarlier (s : State) (t : Token) (p : BitVec 2) (course : Nat) : State :=
  let es := t.op.engines course
  s.allTokens.foldl (fun s u =>
    if u.2.state == .queued && u.2.issuer == t.issuer && u.2.arr < t.arr && u.2.prio.toNat < p.toNat &&
        (u.2.op.engines (hCourse u.1)).any es.contains
    then s.modToken u.1 fun x => { x with prio := p } else s) s

def execTprio (d a b : BitVec 5) (s : State) : Out :=
  ownerOp false d a [.src 2 b] (fun s h t => do
    let y ← rd s b
    let p : BitVec 2 := bits y 0 2
    let waits := t.state == .queued || t.state == .permit
    let s1 := if waits then
        (if t.prio.toNat < p.toNat then s.raiseEarlier t p (hCourse h) else s).modToken h fun t => { t with prio := p }
      else s
    let s2 := postAll ((t.op.engines (hCourse h)).map .tokenSelect) s1
    return finish s2 [a, b] d t.result) s

/-- The walk of R230 from a handle along predecessors: it reaches token h. A chain without a cycle visits a token once,
so `fuel` is their number. A handle of another partition is stale, and ends the walk (R43). -/
def State.chainReaches (s : State) (part : BitVec 8) (h : BitVec 32) : Nat → BitVec 32 → Bool
  | 0, _ => false
  | fuel + 1, p =>
    if p = h then true
    else match (s.tokenAt p).filter fun t => t.part == part with
      | none => false
      | some t => t.state.live && s.chainReaches part h fuel t.pred

def execTafter (d a b : BitVec 5) (s : State) : Out :=
  ownerOp true d a [.src 2 b] (fun s h t => do
    let y ← rd s b
    let p : BitVec 32 := bits y 0 32
    if t.state ≠ .queued then return finish s [a, b] d 1
    else if s.chainReaches t.part h (s.allTokens.length + 1) p then return finish s [a, b] d 2
    else
      let s1 := postAll ((t.op.engines (hCourse h)).map .tokenSelect) (s.modToken h fun t =>
        { t with pred := p, predFailed := false })
      return finish s1 [a, b] d 0) s

def execTfault (d a : BitVec 5) (s : State) : Out :=
  tokenOp false (BitVec.allOnes 64) d a [] (fun s _ t =>
    .ok (finish s [a] d (match t.state with
      | .faulted => t.fault
      | .cancelled => t.fault
      | _ => 0))) s

def execTlist (d a : BitVec 5) (s : State) : Out :=
  issue false true 0 [.dst 0 d, .src 1 a] (fun s => do
    needFree s
    let n ← rd s a
    let mine := ((s.course (courseOf s.cur)).tokens.filter fun t => t.2.state != .free && t.2.ownedBy s).map fun t =>
      handleOf (courseOf s.cur) t.1 t.2.gen
    return finish s [a] d (if n.toNat < mine.length then zext (mine.getD n.toNat 0) else 0)) s

end Sys2Proof.Machine
end

