-- ==== Sys2Proof/Machine/Matrix.lean ====
section
/-! DEFINITION. Matrix products (R211-R216), the mortar (R217-R219, R353), and accesses of engines (R292, R347, R355). -/

namespace Sys2Proof.Machine

/-! ## Accesses of an engine -/

/-- A translation for the token of an engine: through the course's and the die's TLBs, with the privilege and ASID at issue
(R347, R348). -/
def State.engTranslate (s : State) (h : BitVec 32) (va : Word) (acc : Acc) :
    Except NoWay (Nat × Word × State) :=
  let t := s.token h
  let k := 8 * hCourse h
  let own := (s.core k).tlb
  match (s.modCore k fun c => { c with tlb := [] }).translate k t.part.toNat t.tasid t.pl (bits va 0 57) acc with
  | .ok (pa, leaf, s') => .ok (pa, leaf, s'.modCore k fun c => { c with tlb := own })
  | .error e => .error e

/-- Appends to the queue of engine page faults; the oldest of 64 entries leaves a full queue (R292). -/
def Part.pushEpfq (p : Part) (e : BitVec 57 × BitVec 32) : Part :=
  let q := p.epfq ++ [e]
  if 64 < q.length then { p with epfq := q.drop 1, epfqDropped := true } else { p with epfq := q }

/-- The fault record of a token: class, and address or other detail. -/
def tokRecord (cls : TrapClass) (detail : Word) : Word := BitVec.ofNat 64 cls.code ||| (detail <<< 8)

/-- What a failed access of an engine does besides faulting the token: PAGE goes to epfq (R292). -/
def State.noteFault (s : State) (h : BitVec 32) (cls : TrapClass) (va : Word) : State :=
  if cls = .page then s.modPart (s.token h).part.toNat fun p => p.pushEpfq (bits va 0 57, h) else s

/-- A read of an engine met an uncorrectable error (R355). -/
def State.noteError (s : State) (h : BitVec 32) (u : Nat × Nat) : State :=
  s.logError (s.token h).part.toNat (8 * hCourse h) u.1 u.2

/-- The engine's translation of an address failed, or its read there did: what the lookup and the walk met is corrected (R355). A PERM
of a scratchpad address has no translation. -/
def State.engSought (s : State) (h : BitVec 32) (cls : TrapClass) (va : Word) (u : Option (Nat × Nat)) : State :=
  let t := s.token h
  let k := 8 * hCourse h
  let own := (s.core k).tlb
  let denied := match s.engTranslate h va .atomic with
    | .error e => e.cls == .perm
    | .ok _ => false
  if cls == .page || (cls == .perm && denied) || u.any fun x => x.1 < 2 then
    ((s.modCore k fun c => { c with tlb := [] }).lookedUp k t.part.toNat t.tasid (bits va 0 57)).modCore k fun c => { c with tlb := own }
  else s

/-- An access of an engine fails: what that does besides faulting the token. -/
def State.engFails (s : State) (h : BitVec 32) (cls : TrapClass) (va : Word) (u : Option (Nat × Nat)) : State :=
  match u with
  | some x => (s.engSought h cls va u).noteError h x
  | none => (s.engSought h cls va u).noteFault h cls va

/-! ## Issue (R211, R212, R214) -/

/-- e0 of R212. -/
def mmaPairs (e0 : Word) : Nat := (bits e0 0 4 : BitVec 4).toNat + 1
def mmaSpan (e0 : Word) : Nat := 1 + (mmaPairs e0 + 2) / 4
def mmaChunk (e0 : Word) : Option (BitVec 16 × BitVec 16) :=
  if e0.getLsbD 4 then some (bits e0 16 16, bits e0 32 16) else none

/-- The conditions of R212 on e0. -/
def mmaE0Ok (e0 : Word) : Bool :=
  let chunk : BitVec 16 := bits e0 16 16
  let count : BitVec 16 := bits e0 32 16
  bits e0 8 8 == (0 : Byte) && bits e0 48 16 == (0 : BitVec 16) &&
    (if e0.getLsbD 4 then count != 0 && chunk.toNat < count.toNat else chunk == 0 && count == 0)

/-- Pair k, from 1 on: its 16 bits. -/
def mmaPairBits (e : Nat → Word) (k : Nat) : BitVec 16 := bits (e (1 + (k - 1) / 4)) (16 * ((k - 1) % 4)) 16

/-- The reserved bits of pairs' position k are 0, up to the last position of the last register read. -/
def mmaPairOk (e : Nat → Word) (pairs k : Nat) : Bool :=
  if k < pairs then bits (mmaPairBits e k) 10 6 == (0 : BitVec 6) else mmaPairBits e k == 0

/-- The handles of the pairs: the first from the word, the others from e1 on. -/
def mmaHandles (e : Nat → Word) (pairs : Nat) (ta tb : BitVec 5) : List (BitVec 5 × BitVec 5) :=
  (ta, tb) :: (List.range (pairs - 1)).map fun k =>
    (bits (mmaPairBits e (k + 1)) 0 5, bits (mmaPairBits e (k + 1)) 5 5)

/-- A handle of pair k is bound. -/
def boundSlot (c : Ctx) (h : BitVec 5) (k : Nat) : Except Stop (BitVec 7) :=
  match vget none c.t h.toNat with
  | some x => .ok x
  | none => .error (.trap .tile (tileInfo h k) 0)

/-- The slots that the pairs name. -/
def mmaSlots (c : Ctx) : Nat → List (BitVec 5 × BitVec 5) → Except Stop (List MmaPair)
  | _, [] => .ok []
  | k, (ha, hb) :: ps => do
    let a ← boundSlot c ha k
    let b ← boundSlot c hb k
    let rest ← mmaSlots c (k + 1) ps
    return ⟨ha, hb, a, b⟩ :: rest

/-- An `mma`. -/
def mma (form : MmaForm) (tok a ta tb : BitVec 5) (mode : BitVec 1) (s : State) : Out :=
  let det := mode == 1
  let e := fun k => vget 0 s.me.e k
  let e0 := e 0
  issue false (det || tok == 0) 0
    ((if det then [.dst 0 tok] else []) ++ [.src 1 a, .ext 0 (mmaSpan e0), .token]) (fun s => do
      need (mmaE0Ok e0) .opnd (opndInfo 3 0)
      match (List.range (4 * (mmaSpan e0 - 1))).find? fun k => !mmaPairOk e (mmaPairs e0) (k + 1) with
      | some k => .error (.trap .opnd (opndInfo 3 (1 + k / 4)) 0)
      | none =>
        let ps ← mmaSlots s.me 0 (mmaHandles e (mmaPairs e0) ta tb)
        need (!stDet s.me.status || (mmaChunk e0).isSome) .order
        let acc ← rd s a
        let s1 := (pairSlots ps).foldl (fun s k => s.modSlot (courseOf s.cur) k fun t => { t with uses := t.uses + 1 }) s
        return s1.takeToken (.mma form acc ps (mmaChunk e0) (e0.getLsbD 5)) (bits e0 6 2 ^^^ 1) false det tok [a]) s

def execMmaE2m1 (tok a ta tb : BitVec 5) (mode : BitVec 1) (s : State) : Out := mma .e2m1 tok a ta tb mode s
def execMmaE4m3 (tok a ta tb : BitVec 5) (mode : BitVec 1) (s : State) : Out := mma .e4m3 tok a ta tb mode s
def execMmaE5m2 (tok a ta tb : BitVec 5) (mode : BitVec 1) (s : State) : Out := mma .e5m2 tok a ta tb mode s
def execMmaE4m3e5m2 (tok a ta tb : BitVec 5) (mode : BitVec 1) (s : State) : Out := mma .e4m3e5m2 tok a ta tb mode s
def execMmaI8 (tok a ta tb : BitVec 5) (mode : BitVec 1) (s : State) : Out := mma .i8 tok a ta tb mode s
def execMmaBf16 (tok a ta tb : BitVec 5) (mode : BitVec 1) (s : State) : Out := mma .bf16 tok a ta tb mode s
def execMmaF32 (tok a ta tb : BitVec 5) (mode : BitVec 1) (s : State) : Out := mma .f32 tok a ta tb mode s
def execMmaF64 (tok a ta tb : BitVec 5) (mode : BitVec 1) (s : State) : Out := mma .f64 tok a ta tb mode s

/-! ## The engine (R214, R215) -/

/-- The fmt of A and of B (R214 step 2). -/
def MmaForm.fmts : MmaForm → Nat × Nat
  | .e2m1 => (1, 1)
  | .e4m3 => (2, 2)
  | .e5m2 => (3, 3)
  | .e4m3e5m2 => (2, 3)
  | .i8 => (4, 4)
  | .bf16 => (5, 5)
  | .f32 => (6, 6)
  | .f64 => (7, 7)

/-- The K per slot of R6. -/
def MmaForm.maxK : MmaForm → Nat
  | .e2m1 => 256
  | .e4m3 => 128
  | .e5m2 => 128
  | .e4m3e5m2 => 128
  | .i8 => 128
  | .bf16 => 64
  | .f32 => 32
  | .f64 => 16

/-- Elements of a block along K, and the format of the block sums and the accumulator (R115). -/
def MmaForm.block : MmaForm → Nat
  | .f64 => 16
  | _ => 32
def MmaForm.wide : MmaForm → Bool
  | .f64 => true
  | _ => false
def accFmt (wide : Bool) : Fmt := if wide then .f64 else .f32
def accWidth (wide : Bool) : Nat := if wide then 8 else 4

/-- Both tags are rotated with equal length bits (R215). -/
def bothRotated (a b : Byte) : Bool := a.getLsbD 7 && b.getLsbD 7 && a.getLsbD 6 == b.getLsbD 6

/-- Step 4 of R214. -/
def tagsMatch (x y : BitVec 48) : Bool :=
  (!(shTag x).getLsbD 7 && !(shTag y).getLsbD 7 && shDigest x == 0 && shDigest y == 0) ||
    (bothRotated (shTag x) (shTag y) && shDigest x == shDigest y && bits (shTag x) 4 2 == (0 : BitVec 2) &&
      bits (shTag y) 4 2 == (1 : BitVec 2))

/-- Steps 1 to 4 of R214 for pair k: the record of the first failure. `m` and `n` are those of pair 0. -/
def pairBad (form : MmaForm) (skip : Bool) (m n : Nat) (p : MmaPair) (x y : BitVec 48) (k : Nat) : Option Word :=
  let cols := shCols x
  if shRows x = 0 then some (tokRecord .tile (tileInfo p.ha k))
  else if shRows y = 0 then some (tokRecord .tile (tileInfo p.hb k))
  else if shFmt x ≠ form.fmts.1 then some (tokRecord .fmt (tileInfo p.ha k))
  else if shFmt y ≠ form.fmts.2 then some (tokRecord .fmt (tileInfo p.hb k))
  else if cols ≠ shCols y ∨ cols % form.block ≠ 0 ∨ form.maxK < cols ∨ 128 < shRows x ∨ 128 < shRows y ∨ shRows x ≠ m ∨
      shRows y ≠ n then some (tokRecord .shape (tileInfo p.ha k))
  else if !skip && !tagsMatch x y then some (tokRecord .tag (tileInfo p.ha k))
  else none

/-- The element at (r, c) of a slot, without its scale (R101, R195). -/
def Slot.elemAt (t : Slot) (r c : Nat) : FVal :=
  let i := r * shCols t.shape + c
  let raw := fun (F : Fmt) (z : Nat) => decodeF F (ofBytesNat (Mem.read t.payload (z * i) z))
  let byte := fun (j : Nat) => (Tbl.get 0 t.payload j).toNat
  match shFmt t.shape with
  | 1 => Elem.e2m1.value (if i % 2 = 0 then byte (i / 2) % 16 else byte (i / 2) / 16)
  | 2 => Elem.e4m3.value (byte i)
  | 3 => Elem.e5m2.value (byte i)
  | 4 => Elem.i8.value (byte i)
  | 5 => raw .bf16 2
  | 6 => raw .f32 4
  | _ => raw .f64 8

/-- The scale byte of block b of row r; 127, a factor of 1, for the raw formats (R115, R195). -/
def Slot.scaleAt (t : Slot) (r b : Nat) : Nat :=
  if shFmt t.shape < 5 then (Tbl.get 0 t.side (r * (shCols t.shape / 32) + b)).toNat else 127

/-- The block sum β of output (i, j) (R115, R116). -/
def mmaBlock (form : MmaForm) (a b : Slot) (i j β : Nat) : Nat × Bool :=
  let F := accFmt form.wide
  let (sa, sb) := (a.scaleAt i β, b.scaleAt j β)
  if sa = 255 ∨ sb = 255 then (F.nanMag, false)
  else
    let rot : Int := if bothRotated (shTag a.shape) (shTag b.shape) then
      (if (shTag a.shape).getLsbD 6 then -5 else -4) else 0
    blockSum F ((sa : Int) + sb - 254 + rot) ((List.range form.block).map fun k =>
      termOf (a.elemAt i (form.block * β + k)) (b.elemAt j (form.block * β + k)))

/-- a + b to nearest even, and whether finite operands gave an infinity. -/
def accAdd (F : Fmt) (a b : Nat) : Nat × Bool :=
  let r := addV F .ne false (decodeF F a) (decodeF F b)
  (r.1, r.2 &&& fOV != 0)

/-- Output (i, j): the block sums of every pair, in order (R117). -/
def mmaOutput (form : MmaForm) (slots : List (Slot × Slot)) (i j : Nat) : Nat × Bool :=
  let sums := slots.flatMap fun p => (List.range (shCols p.1.shape / form.block)).map fun β => mmaBlock form p.1 p.2 i j β
  match sums with
  | [] => (0, false)
  | s :: ss => ss.foldl (fun acc v =>
      let r := accAdd (accFmt form.wide) acc.1 v.1
      (r.1, acc.2 || v.2 || r.2)) s

/-- The addresses of the elements of an m × n region, in order (R215). -/
def accAddr (acc : Word) (wide : Bool) (i j : Nat) : Word := acc + BitVec.ofNat 64 ((128 * i + j) * accWidth wide)
def accAddrs (acc : Word) (wide : Bool) (m n : Nat) : List Word :=
  (List.range m).flatMap fun i => (List.range n).map fun j => accAddr acc wide i j

/-- Granules translated so far: number, physical base, leaf. -/
abbrev Grans := List (Nat × Nat × Word)

/-- The granule of a virtual address. -/
def granOf (va : Word) : Nat := (bits va 0 57 : BitVec 57).toNat / 65536

/-- Where an address lies, once its granule is translated. -/
def Grans.place (g : Grans) (va : Word) : Nat :=
  match g.find? fun x => x.1 == granOf va with
  | some x => x.2.1 + va.toNat % 65536
  | none => 0

/-- What an access of a token's engine brings to the caches at a translated address: the policy is the page's (R145). -/
def State.engVia (s : State) (h : BitVec 32) (g : Grans) (va : Word) : Via :=
  let t := s.token h
  match g.find? fun x => x.1 == granOf va with
  | some x => viaOf s none t.part.toNat t.tasid x.2.2 0 (bits va 0 57) (g.place va)
  | none => Via.spad 0

/-- Addresses, each with whether the next one lies on another line. -/
def withEnds : List Word → List (Word × Bool)
  | [] => []
  | a :: as => (a, endsLine a as) :: withEnds as

/-- The caches see the reads, which correct what errors they meet, or the writes, of an engine at addresses; the line of one that is the last there crosses the modules
between the engine's die and its home's (R390). -/
def State.engReads (s : State) (h : BitVec 32) (g : Grans) (vas : List (Word × Bool)) : State :=
  vas.foldl (fun s x =>
    let v := s.engVia h g x.1
    let s := if x.2 then s.readLine (hCourse h / 20) (dieOfCore v.home) (g.place x.1) else s
    s.cacheLoad (s.token h).part.toNat v (.phys (g.place x.1)) 1) s
def State.engWrite (s : State) (h : BitVec 32) (g : Grans) (va : Word) (n : Nat) : State :=
  s.cacheWrite (s.engVia h g va) (.phys (g.place va)) n

/-- Every granule of the addresses translated, or the first failure: class, address, the bad unit of MEMERR. One granule is checked for
all its classes before the next, in the order of the addresses (DESIGN CHOICE, log entry 81). -/
def State.engGrans (s : State) (h : BitVec 32) (acc : Acc) :
    List Word → Grans → Except (TrapClass × Word × Option (Nat × Nat)) (Grans × State)
  | [], g => .ok (g, s)
  | va :: vas, g =>
    if !canonical va then .error (.addr, va, none)
    else if g.any fun x => x.1 == granOf va then State.engGrans s h acc vas g
    else match s.engTranslate h va acc with
      | .error e => .error (e.cls, va, e.unit)
      | .ok (pa, leaf, s') => State.engGrans s' h acc vas (g ++ [(granOf va, pa - va.toNat % 65536, leaf)])

/-- Step 5 of R214: the granules of the region; or the class and address of the failure, with the bad unit of MEMERR. -/
def State.region (s : State) (h : BitVec 32) (acc : Word) (wide : Bool) (m n : Nat) :
    Except (TrapClass × Word × Option (Nat × Nat)) (Grans × State) :=
  if !canonical acc then .error (.addr, acc, none)
  else if acc.toNat % 64 ≠ 0 then .error (.align, acc, none)
  else match s.engGrans h .atomic (accAddrs acc wide m n) [] with
    | .error e => .error e
    | .ok (g, s') =>
      match (accAddrs acc wide m n).findSome? fun va =>
          (s'.badUnit (.phys (g.place va)) (accWidth wide)).map fun u => (va, u) with
      | some (va, u) => .error (.memerr, va, some u)
      | none => .ok (g, s')

/-! ## The mortar (R216-R218, R353) -/

/-- A pattern is a NaN, an infinity. -/
def isNanPat (F : Fmt) (x : Nat) : Bool :=
  match decodeF F x with
  | .nan _ _ _ _ => true
  | _ => false

/-- Merges one element, a strong update of the engine's die (R351), whose read corrects and counts (R355): memory and the caches, and whether the result is a NaN or an infinity of finite operands. -/
def State.mergeElem (s : State) (p : Partial) (i j : Nat) (v : Word) : State × Bool × Bool :=
  let F := accFmt p.wide
  let w := accWidth p.wide
  let va := accAddr p.acc p.wide i j
  let pa := Grans.place p.grans va
  let home := dieOfCore (s.engVia p.tok p.grans va).home
  let s := if j = 0 ∨ pa = lineAt (lineNo pa) then s.cargo (hCourse p.tok / 20) home (vertOf pa) 192 else s
  let s := s.crossDie (hCourse p.tok / 20) home
  let s := s.correct (s.token p.tok).part.toNat (.phys pa) w
  let r := accAdd F (ofBytesNat (s.physRead pa w)) v.toNat
  ((s.engWrite p.tok p.grans va w).physWrite pa (toBytes w (BitVec.ofNat 64 r.1)), isNanPat F r.1, r.2)

/-- Merges a partial, in ascending (i, j): the state and the final status (R216, R217). -/
def State.mergePartial (s : State) (p : Partial) : State × BitVec 16 :=
  let cells := p.rows.zipIdx.flatMap fun r => r.1.zipIdx.map fun c => (r.2, c.2, c.1)
  let start := (s, cells.any fun c => isNanPat (accFmt p.wide) c.2.2.toNat, p.inf)
  let r := cells.foldl (fun (acc : State × Bool × Bool) c =>
    let m := acc.1.mergeElem p c.1 c.2.1 c.2.2
    (m.1, acc.2.1 || m.2.1, acc.2.2 || m.2.2)) start
  (r.1, ofBool r.2.1 16 ||| (ofBool r.2.2 16 <<< 1))

/-- A line of a partial would wait in a replay buffer on its way from the engine's die to its home (R393). -/
def State.mergeWaits (s : State) (p : Partial) : Bool :=
  (p.rows.zipIdx.flatMap fun r => (List.range r.1.length).map fun j => accAddr p.acc p.wide r.2 j).any fun va =>
    s.linksWait (hCourse p.tok / 20) (dieOfCore (s.engVia p.tok p.grans va).home) (vertOf (Grans.place p.grans va))

/-- The engine that holds the token starts others again. -/
def State.freeEngine (s : State) (h : BitVec 32) : State :=
  (s.modCourse (hCourse h) fun c =>
    { c with matrix := if c.matrix = some h then none else c.matrix, refused := none }).post
      (.tokenSelect (.matrix (hCourse h)))

/-- A partial is merged, and its token is done (R219). -/
def State.mergeDone (s : State) (p : Partial) : State :=
  let r := s.mergePartial p
  r.1.finishToken p.tok .done r.2 0

/-- Bytes of the partition's spill area in use: partials that wait for an earlier chunk (R353). -/
def State.spillUsed (s : State) (part : Nat) : Nat :=
  s.seqs.foldl (fun n r => if r.2.part = part then
    (r.2.waiting.filter fun w => w.1 != r.2.next).foldl (fun n w => n + if w.2.wide then 131072 else 65536) n else n) 0

/-- The size of the spill area. -/
def Part.spillSize (p : Part) : Nat := p.mspill.toNat / 2 ^ 48 % 256 * 65536

/-- A partial with a chunk arrives at the mortar (R218): admitted, refused, or discarded. -/
def State.admitPartial (s : State) (p : Partial) (c n : Nat) : State :=
  let t := s.token p.tok
  let key := t.seqKey p.acc
  let part := t.part.toNat
  let r := s.openSeq key n part
  if r.count ≠ n ∨ r.seen.contains c then
    (s.freeEngine p.tok).finishToken p.tok .faulted 0 (mergeRecord c)
  else if r.broken then
    let s1 := s.setSeq key { r with seen := c :: r.seen, closed := c :: r.closed }
    ((s1.freeEngine p.tok).finishToken p.tok .faulted 0 (mergeRecord c)).closeSeq key
  else if r.next + 16 ≤ c ∨ (c ≠ r.next ∧
      (s.part part).spillSize < s.spillUsed part + if p.wide then 131072 else 65536) then
    (s.setSeq key r).modCourse (hCourse p.tok) fun k => { k with refused := some p }
  else
    ((s.setSeq key { r with seen := c :: r.seen, waiting := r.waiting ++ [(c, p)] }).freeEngine p.tok).post
      (.mortarMerge key)

/-- The mortar merges the partial that its record awaits, once no flit of it would wait (R393), and goes on with the next. -/
def execMortarMerge (acc : Nat) (s : State) : Out :=
  let r := s.seqRec acc
  match r.waiting.find? fun w => w.1 == r.next with
  | none => .next s
  | some (c, p) =>
    let s1 := s.setSeq acc { r with
      next := r.next + 1, waiting := r.waiting.filter fun w => w.1 != c, closed := c :: r.closed }
    if s.mergeWaits p then .next (s.post (.mortarMerge acc))
    else .next ((((s1.mergeDone p).closeSeq acc).retryRefused).post (.mortarMerge acc))

/-- The matrix engine has read its pairs: the checks of R214, the partial of R215, the slots' return, and the mortar. A partial without a
chunk waits, with its slots, while a flit of it would wait (R393). -/
def execMmaPartialReady (course : Nat) (s : State) : Out :=
  match (s.course course).matrix with
  | none => .next s
  | some h =>
    let t := s.token h
    match t.op with
    | .mma form acc pairs chunk skip =>
      if t.state ≠ .running ∨ (s.course course).refused.isSome then .next s
      else
        let slots := pairs.map fun p => (s.slot course p.a.toNat, s.slot course p.b.toNat)
        let m := match slots with
          | x :: _ => shRows x.1.shape
          | [] => 0
        let n := match slots with
          | x :: _ => shRows x.2.shape
          | [] => 0
        let bad := ((pairs.zip slots).zipIdx).findSome? fun x =>
          pairBad form skip m n x.1.1 x.1.2.1.shape x.1.2.2.shape x.2
        let worn := pairs.findSome? fun p => [p.a.toNat, p.b.toNat].findSome? fun k =>
          let x := s.slot course k
          (x.badWord 0 (payloadLen x.shape) (sideLen x.shape)).map fun w => Config.operandAddr (128 * course + k) w
        match bad, worn with
        | some f, _ => .next (s.endToken h .faulted 0 f)
        | none, some a => .next ((s.noteError h (3, a.toNat)).endToken h .faulted 0 (tokRecord .memerr (zext a)))
        | none, none =>
          let outs := (List.range m).map fun i => (List.range n).map fun j => mmaOutput form slots i j
          let s1 := ((pairSlots pairs).foldl (fun s k =>
            let x := (s.slot course k).shape
            s.correctSlot t.part.toNat course k 0 (payloadLen x) (sideLen x)) s).returnSlots h
          match s1.region h acc form.wide m n with
          | .error (cls, va, u) =>
            .next ((s1.engFails h cls va u).endToken h .faulted 0 (tokRecord cls va))
          | .ok (g, s2) =>
            let p : Partial :=
              { tok := h, acc := acc, grans := g, wide := form.wide
                rows := outs.map fun r => r.map fun x => BitVec.ofNat 64 x.1
                inf := outs.any fun r => r.any fun x => x.2 }
            match chunk with
            | none => if s2.mergeWaits p then .next (s.post (.mmaReady course)) else .next ((s2.freeEngine h).mergeDone p)
            | some (c, k) => .next (s2.admitPartial p c.toNat k.toNat)
    | _ => .next s

/-- The engine presents its refused partial again. -/
def execPartialRetry (course : Nat) (s : State) : Out :=
  match (s.course course).refused with
  | none => .next s
  | some p =>
    match (s.token p.tok).op with
    | .mma _ _ _ (some (c, n)) _ =>
      .next ((s.modCourse course fun k => { k with refused := none }).admitPartial p c.toNat n.toNat)
    | _ => .next s

end Sys2Proof.Machine
end

