-- ==== Sys2Proof/Machine/Copy.lean ====
section
/-! DEFINITION. Copies (R232-R236), shadow frames and their publish (R349, R350). -/

namespace Sys2Proof.Machine

/-! ## The layout record (R234) -/

/-- A field of the record: n bytes at o, as a number. -/
def recField (r : List Byte) (o n : Nat) : Nat := ofBytesNat ((r.drop o).take n)

/-- Byte offset of the first field that breaks its limits. -/
def recordBad (r : List Byte) (isSet : Bool) : Option Nat :=
  let dims := recField r 0 1
  let ext := fun k => recField r (8 + 4 * k) 4
  let checks : List (Nat × Bool) :=
    [(0, dims == 0 || 4 < dims), (1, 3 < recField r 1 1), (2, if isSet then recField r 2 1 != 0 else 2 < recField r 2 1),
      (3, 2 < recField r 3 1), (4, recField r 4 4 != 0)]
    ++ (List.range 4).map (fun k => (8 + 4 * k, ext k == 0 || (dims ≤ k && ext k != 1)))
    ++ (List.range 4).map (fun k => (24 + 4 * k, isSet && recField r (24 + 4 * k) 4 != 0))
    ++ [(56, recField r 56 8 != 0)]
  (checks.find? Prod.snd).map Prod.fst

def layoutOf (r : List Byte) : Layout :=
  let stride := fun o k => (BitVec.ofNat 32 (recField r (o + 4 * k) 4)).toInt
  { dims := recField r 0 1, esz := recField r 1 1, srcSpace := recField r 2 1, dstSpace := recField r 3 1
    extent := (List.range 4).map fun k => recField r (8 + 4 * k) 4
    srcStride := (List.range 4).map (stride 24)
    dstStride := (List.range 4).map (stride 40) }

/-- Bytes of an element. -/
def Layout.elemBytes (l : Layout) : Nat := 2 ^ l.esz

/-- The offset of element i: Σ i_k × stride[k], i0 fastest. -/
def strideSum : Nat → List Nat → List Int → Int
  | i, x :: xs, st :: sts => (i % x : Nat) * st + strideSum (i / x) xs sts
  | _, _, _ => 0

def elemOff (l : Layout) (st : List Int) (base : Word) (i : Nat) : Word := base + BitVec.ofInt 64 (strideSum i l.extent st)

/-! ## Issue (R232, R233, R235) -/

/-- The issue checks of R235 on e[esel] and the layout record: the job. -/
def copyJob (s : State) (isSet : Bool) (e : BitVec 3) (src dst : Word) : Except Stop CopyJob := do
  let x := vget 0 s.me.e e.toNat
  let record := (bits x 0 19 : BitVec 19).toNat
  let awv := x.getLsbD 19
  let awaddr := (bits x 32 19 : BitVec 19).toNat
  let awcore := (bits x 51 11 : BitVec 11).toNat
  let core := coreOf s.cur
  need (bits x 23 9 == (0 : BitVec 9) && bits x 62 2 == (0 : BitVec 2)) .opnd (opndInfo 3 e.toNat)
  need (record % 64 == 0) .align 0 (BitVec.ofNat 64 record)
  need (!awv || awaddr % 16 == 0) .align 0 (BitVec.ofNat 64 awaddr)
  need (record + 64 ≤ 0x6_0000) .spad 0 (BitVec.ofNat 64 record)
  need (!awv || awaddr + 16 ≤ 0x6_0000) .spad 0 (BitVec.ofNat 64 awaddr)
  match s.badUnit (.spad core record) 64 with
  | some u => .error (.bad u.1 u.2 0 (BitVec.ofNat 64 record))
  | none =>
    let r := s.readOwn s.cur (.spad core record) 64
    match recordBad r isSet with
    | some o => .error (.trap .opnd (opndInfo 6 o) 0)
    | none =>
      let lay := layoutOf r
      need (lay.total ≤ 2 ^ 32) .opnd (opndInfo 6 0xFF)
      need (!awv || awcore < 1280) .addr 0 (BitVec.ofNat 64 awcore)
      need (!awv || s.myPart.hasCore awcore) .perm 0 (BitVec.ofNat 64 awcore)
      return { core := core, src := src, dst := dst, lay := lay, isSet := isSet
               aw := if awv then some (awcore, awaddr) else none, next := 0, held := 0, shadow := [] }

/-- A `copy` or `cset`. With rel = 1 the engine's reads see every earlier access of the thread, so its posted writes are
performed; with rel = 0 those are that an acquire keeps before all that follows (R304, R307). -/
def copyOp (isSet : Bool) (tok a b : BitVec 5) (e : BitVec 3) (bar mode : BitVec 1) (s : State) : Out :=
  let det := mode == 1
  issue false (det || tok == 0) 0
    ((if det then [.dst 0 tok] else []) ++ [.src 1 a, .src 2 b, .ext e.toNat 1, .token]) (fun s => do
      let x ← rd s a
      let y ← rd s b
      let j ← copyJob s isSet e x y
      let ev := vget 0 s.me.e e.toNat
      let s1 := (if ev.getLsbD 20 then s.performAll s.cur else s.performKept s.cur).correct s.me.part
        (.spad (coreOf s.cur) (bits ev 0 19 : BitVec 19).toNat) 64
      return s1.takeToken (.copy j) (bits ev 21 2 ^^^ 1) (bar == 1) det tok [a, b]) s

def execCopy (tok src dst : BitVec 5) (e : BitVec 3) (bar mode : BitVec 1) (s : State) : Out :=
  copyOp false tok src dst e bar mode s
def execCset (tok src dst : BitVec 5) (e : BitVec 3) (bar mode : BitVec 1) (s : State) : Out :=
  copyOp true tok src dst e bar mode s

/-! ## Accesses of the copy engine -/

/-- Where an access of an engine for a token lands, the leaf of its page (0 for a scratchpad), and the state with the TLBs
filled; or the class that it fails with (R143, R347). `core` holds space 1. -/
def State.engPlace (s : State) (h : BitVec 32) (core space : Nat) (ea : Word) (size : Nat) (acc : Acc) :
    Except (TrapClass × Option (Nat × Nat)) (Loc × Word × State) :=
  if space = 0 then
    (if !canonical ea then .error (.addr, none)
     else if ea.toNat % size ≠ 0 then .error (.align, none)
     else match s.engTranslate h ea acc with
       | .error e => .error (e.cls, e.unit)
       | .ok (pa, leaf, s') => .ok (.phys pa, leaf, s'))
  else
    let k := if space = 2 then ea.toNat / 524288 % 2048 else core
    if (if space = 2 then 2 ^ 30 ≤ ea.toNat ∨ 1280 ≤ k else 2 ^ 19 ≤ ea.toNat) then .error (.addr, none)
    else if ea.toNat % size ≠ 0 then .error (.align, none)
    else if 0x6_0000 < ea.toNat % 524288 + size then .error (.spad, none)
    else if space = 2 && !(s.part (s.token h).part.toNat).hasCore k then .error (.perm, none)
    else .ok (.spad k (ea.toNat % 524288), 0, s)

/-- What an element of a unit brings to the caches. -/
def State.unitVia (s : State) (h : BitVec 32) (leaf ea : Word) : Loc → Via
  | .phys pa => viaOf s none (s.token h).part.toNat (s.token h).tasid leaf 0 (bits ea 0 57) pa
  | .spad k _ => Via.spad k

/-- One element of a unit, checked: where it comes from (none for `cset`) and goes to, whether that is shadowed, its
destination address and home. -/
structure UnitElem where
  src : Option Loc
  dst : Loc
  shadowed : Bool
  va : Word
  home : Nat
  /-- the home of its source, the engine's own core's number where it has none -/
  srcHome : Nat
  deriving DecidableEq, Repr

/-- The checks of a unit's elements i, i + 1, … (R235): the first failure with its address, and the bad unit of MEMERR. -/
def State.checkUnit (s : State) (h : BitVec 32) (j : CopyJob) :
    Nat → Nat → Except (TrapClass × Word × Option (Nat × Nat)) (List UnitElem × State)
  | 0, _ => .ok ([], s)
  | n + 1, i =>
    let z := j.lay.elemBytes
    let sa := elemOff j.lay j.lay.srcStride j.src i
    let da := elemOff j.lay j.lay.dstStride j.dst i
    let fromSrc : Except (TrapClass × Word × Option (Nat × Nat)) (Option Loc × Nat × State) :=
      if j.isSet then .ok (none, j.core, s)
      else match s.engPlace h j.core j.lay.srcSpace sa z .load with
        | .error e => .error (e.1, sa, e.2)
        | .ok (l, leaf, s1) => match s1.badUnit l z with
          | some u => .error (.memerr, sa, some u)
          | none => .ok (some l, (s1.unitVia h leaf sa l).home, s1.cacheLoad (s.token h).part.toNat (s1.unitVia h leaf sa l) l z)
    match fromSrc with
    | .error e => .error e
    | .ok (src, from', s1) => match s1.engPlace h j.core j.lay.dstSpace da z .store with
      | .error e => .error (e.1, da, e.2)
      | .ok (l, leaf, s2) => match (s2.cacheWrite (s2.unitVia h leaf da l) l z).checkUnit h j n (i + 1) with
        | .error e => .error e
        | .ok (rest, s3) => .ok (⟨src, l, lfSh leaf, da, (s2.unitVia h leaf da l).home, from'⟩ :: rest, s3)

/-! ## Shadow frames (R349, R350) -/

/-- The pool of shadow frames: base and size in granules (R343). -/
def Part.frameBase (p : Part) : Nat := p.spool.toNat / 65536 % 4294967296 * 65536
def Part.frameCount (p : Part) : Nat := p.spool.toNat / 2 ^ 48 % 256
def Part.freeFrame (p : Part) : Option Nat := (List.range p.frameCount).find? fun k => !p.frames.contains k

/-- The granule of a location that is shadowed. -/
def Loc.granule : Loc → Nat
  | .phys pa => pa / 65536
  | .spad _ _ => 0

/-- The first unit of a granule that holds an uncorrectable error. -/
def State.badGranule (s : State) (g : Nat) : Option (Nat × Nat) :=
  if s.badSectors.isEmpty && s.badWords.isEmpty then none else s.badUnit (.phys (65536 * g)) 65536

/-- Takes frames for the unit's shadowed granules that have none yet, each a copy of the visible granule, whose read corrects and
counts errors (R355); or class and address of the failure: an empty pool, or an uncorrectable error of the granule, with its unit. -/
def State.takeFrames (s : State) (part : Nat) : List UnitElem → List (Nat × Nat) →
    Except (TrapClass × Word × Option (Nat × Nat)) (List (Nat × Nat) × State)
  | [], sh => .ok (sh, s)
  | u :: us, sh =>
    if !u.shadowed || sh.any fun x => x.1 == u.dst.granule then State.takeFrames s part us sh
    else match (s.part part).freeFrame with
      | none => .error (.page, u.va, none)
      | some k =>
        let g := u.dst.granule
        match s.badGranule g with
        | some b => .error (.memerr, u.va, some b)
        | none =>
        let s := s.correct part (.phys (65536 * g)) 65536
        let s1 := (s.modPart part fun p => { p with frames := k :: p.frames }).physWrite
          ((s.part part).frameBase + 65536 * k) (s.physRead (65536 * g) 65536)
        State.takeFrames s1 part us (sh ++ [(g, k)])

/-- Where an element's bytes go: its shadow frame, if its page is shadowed. -/
def UnitElem.place (u : UnitElem) (base : Nat) (sh : List (Nat × Nat)) : Loc :=
  match u.dst with
  | .phys pa =>
    if u.shadowed then match sh.find? fun x => x.1 == pa / 65536 with
      | some x => .phys (base + 65536 * x.2 + pa % 65536)
      | none => u.dst
    else u.dst
  | .spad _ _ => u.dst

/-- What the lines of a unit cross: those that it reads come from their homes, those that it writes go there (R390). -/
def State.unitTraffic (s : State) (die : Nat) (us : List UnitElem) : State :=
  let lines := fun (l : Loc) (home : Nat) => (dieOfCore home, l, lineNo l.pa)
  let reads := us.filterMap fun u => u.src.map fun l => lines l u.srcHome
  let writes := us.map fun u => lines u.dst u.home
  let once := fun (xs : List (Nat × Loc × Nat)) => xs.foldl (fun (ys : List (Nat × Loc × Nat)) x =>
    if ys.any fun y => y.1 == x.1 && y.2.2 == x.2.2 then ys else ys ++ [x]) []
  (once writes).foldl (fun s x => s.cargo die x.1 x.2.1.vert 192) ((once reads).foldl (fun s x => s.readLine die x.1 x.2.1.pa) s)

/-- Delivers a unit, in element order; a write to another die is a strong update (R297, R351). -/
def State.deliver (s : State) (die : Nat) (j : CopyJob) (base : Nat) (sh : List (Nat × Nat)) (us : List UnitElem) : State :=
  (s.unitTraffic die us) |> us.foldl (fun s u =>
    let bs := match u.src with
      | some l => s.read l j.lay.elemBytes
      | none => toBytes j.lay.elemBytes j.src
    (s.crossDie die (dieOfCore u.home)).write (u.place base sh) bs)

/-- The arrival of n bytes, if the copy has an arrival word (R235); also a strong update. -/
def State.copyArrival (s : State) (die : Nat) (j : CopyJob) (n : Nat) : State :=
  match j.aw with
  | some (core, a) => if n = 0 then s else (s.crossWith die (dieOfCore core) 2 0).arrival core a (BitVec.ofNat 32 n)
  | none => s

/-- A number of granule a's units, `per` to a granule, becomes the one of granule b's in the same place, and the other way round. -/
def swapUnit (a b per x : Nat) : Nat :=
  if x / per = a then x % per + b * per else if x / per = b then x % per + a * per else x

/-- Two granules change places, with the errors that their units hold. -/
def State.swapGranules (s : State) (a b : Nat) : State :=
  let t := (s.physWrite (65536 * a) (s.physRead (65536 * b) 65536)).physWrite (65536 * b) (s.physRead (65536 * a) 65536)
  { t with
    badSectors := s.badSectors.map (swapUnit a b 1366), corrSectors := s.corrSectors.map (swapUnit a b 1366)
    badWords := s.badWords.map (swapUnit a b 8192), corrWords := s.corrWords.map (swapUnit a b 8192) }

/-- The publish of R236 and R350: each shadow frame changes places with the visible granule, whose blocks every L1 loses before
(R338), then the arrival of the shadowed bytes. The homes of a granule lie on every die: it is a strong update to each. -/
def State.publish (s : State) (die part : Nat) (j : CopyJob) : State :=
  let base := (s.part part).frameBase
  let s0 := if j.shadow.isEmpty then s else (List.range 8).foldl (fun s d => s.crossWith die d 2 0) s
  let s1 := j.shadow.foldl (fun s x =>
    (s.loseBlocks x.1).swapGranules x.1 (base / 65536 + x.2)) s0
  s1.copyArrival die j j.held

/-! ## The engine (R226, R235, R294) -/

/-- The copy stops at a boundary: cancelled, or queued again with its resume point. -/
def State.stopCopy (s : State) (h : BitVec 32) : State :=
  if (s.token h).stop = 1 then s.endToken h .cancelled 0 0
  else (((s.dropPermit h).setEngine (.copy (hCourse h)) none).modToken h fun t =>
    { t with state := .queued, stop := 0 }).post (.tokenSelect (.copy (hCourse h)))

/-- The copy engine of a course delivers its token's next unit; after the last, it publishes and the token is done. -/
def execCopyUnit (course : Nat) (s : State) : Out :=
  match (s.course course).copyEng with
  | none => .next s
  | some h =>
    let t := s.token h
    match t.op with
    | .copy j =>
      let z := j.lay.elemBytes
      let part := t.part.toNat
      let total := j.lay.total / z
      if t.state ≠ .running then .next s
      else if total ≤ j.next then .next ((s.publish (course / 20) part j).endToken h .done 0 0)
      else
        let n := min (192 / z) (total - j.next)
        match s.checkUnit h j n j.next with
        | .error (cls, va, u) =>
          .next ((s.engFails h cls va u).endToken h .faulted 0 (tokRecord cls va))
        | .ok (us, s1) => match s1.takeFrames part us j.shadow with
          | .error (cls, va, u) =>
            let s2 := match u with
              | some u => s.noteError h u
              | none => s
            .next (s2.endToken h .faulted 0 (tokRecord cls va))
          | .ok (sh, s2) =>
            let hid := z * (us.filter fun u => u.shadowed).length
            let j' := { j with next := j.next + n, held := j.held + hid, shadow := sh }
            let s3 := (s2.deliver (course / 20) j (s.part part).frameBase sh us).modToken h fun t => { t with op := .copy j' }
            let s4 := s3.copyArrival (course / 20) j (z * n - hid)
            if t.stop ≠ 0 ∧ z * j.next / 4096 < z * j'.next / 4096 then .next (s4.stopCopy h)
            else .next (s4.post (.copyUnit course))
    | _ => .next s

end Sys2Proof.Machine
end

