-- ==== Sys2Proof/Machine/Collectives.lean ====
section
/-! DEFINITION. Selectors and barriers (R252, R440), collectives (R251, R253, R408, R409). -/

namespace Sys2Proof.Machine

/-! ## Selectors (R252, R440) -/

/-- The key of a selector: a group of a partition, or the cores of a course that hold teams of a launch. -/
def selKey (part launch course sel : Nat) : Nat :=
  if sel = 256 then 2 * (launch * 160 + course) + 1 else 2 * (part * 256 + sel)

/-- The member teams that a selector names, ascending; none where the group is not one of the launch's. -/
def State.selTeams (s : State) (part launch course sel : Nat) : List Nat :=
  if sel = 256 then
    let here := ((List.range 8).filterMap fun i => (s.core (8 * course + i)).team).filterMap fun t =>
      if t.1 = launch then some t.2 else none
    (List.range (s.launch launch).n).filter here.contains
  else
    let p := s.part part
    let g := s.group (p.sliceFirst + sel)
    if sel < p.sliceCount && g.valid && g.part == part && g.launch == launch then g.members else []

/-- The checks of R252 on a selector: its key, the member teams, and the one that the issuing core holds. -/
def selectorOf (s : State) (sel : Nat) : Except Stop (Nat × List Nat × Nat) := do
  let c := s.me
  let course := courseOf s.cur
  let ms := s.selTeams c.part c.ident.launch course sel
  match (s.core (coreOf s.cur)).team with
  | some (l, t) => do
    need (sel ≤ 256 && l == c.ident.launch && ms.contains t) .group
    return (selKey c.part c.ident.launch course sel, ms, t)
  | none => .error (.trap .group 0 0)

/-- Register 0x170's group is the one that a selector names (R407, R408). -/
def Part.spans (p : Part) (sel : Nat) : Bool := p.pier.getLsbD 24 && (bits p.pier 16 8 : Byte).toNat == sel

/-! ## Barriers (R252, R306) -/

/-- A thread that waits at a barrier in a generation may go on: the generation has advanced, or every member that is left
has arrived. -/
def State.barrierOpen (s : State) (thr key gen : Nat) (a : BitVec 5) : Bool :=
  let c := s.ctx thr
  (s.barrier key).gen != gen || (match s.src thr a with
    | .ok x =>
      let ms := s.selTeams c.part c.ident.launch (courseOf thr) x.toNat
      !ms.isEmpty && ms.all (s.barrier key).arrived.contains
    | .error _ => false)

/-- The generation of a barrier advances. -/
def State.releaseBarrier (s : State) (key : Nat) : State :=
  s.setBarrier key { gen := (s.barrier key).gen + 1, arrived := [] }

/-- `bar`: the first arrival of a member counts for its core. The thread waits for the generation to advance; it acts as a
release fence before its arrival. -/
def execBar (a : BitVec 5) (s : State) : Out :=
  issue false true 0 [.src 1 a] (fun s => do
    let done := fun (s : State) => (finishNo s [a]).modMe fun c => { c with wait := .ready }
    match s.me.wait with
    | .barrier key gen _ =>
      if (s.barrier key).gen ≠ gen then return done s
      else if s.barrierOpen s.cur key gen a then return done (s.releaseBarrier key)
      else return s
    | _ => do
      let x ← rd s a
      let (key, ms, t) ← selectorOf s x.toNat
      let s1 := s.performAll s.cur
      let b := s1.barrier key
      let arrived := if b.arrived.contains t then b.arrived else t :: b.arrived
      if ms.all arrived.contains then return done (s1.releaseBarrier key)
      else return (s1.setBarrier key { b with arrived := arrived }).modMe fun c =>
        { c with wait := .barrier key b.gen a }) s

/-! ## Issue of a collective (R251, R253) -/

/-- Bytes of an element. -/
def collBytes (ty : Nat) : Nat := if ty = 0 ∨ ty = 2 then 8 else 4

/-- The reserved values of R253. -/
def collOk (op : CollOp) (x : Word) : Bool :=
  let ty := (bits x 9 3 : BitVec 3).toNat
  let red := (bits x 12 2 : BitVec 2).toNat
  let plain := match op with
    | .bcast => true
    | .allgat => true
    | _ => false
  ty < 4 && red < 3 && (!plain || red == 0) && bits x 32 32 == (0 : Word32)

/-- Enters a member's token in its rendezvous. -/
def State.meet (s : State) (j : CollJob) (launch : Nat) (members : List Nat) (h : BitVec 32) : State :=
  match s.colls.find? fun r => r.isOf j with
  | some _ => { s with colls := s.colls.map fun r => if r.isOf j then { r with toks := r.toks ++ [(j.team, h)] } else r }
  | none => { s with colls := s.colls ++ [{ sel := j.sel, seqNo := j.seqNo, launch := launch, members := members
                                            toks := [(j.team, h)], results := [], failed := none }] }

/-- A collective: the member of the issuing core issues its next part on the selector. -/
def collective (op : CollOp) (tok a b : BitVec 5) (e : BitVec 3) (bar mode : BitVec 1) (s : State) : Out :=
  let det := mode == 1
  issue false (det || tok == 0) 0
    ((if det then [.dst 0 tok] else []) ++ [.src 1 a, .src 2 b, .ext e.toNat 2, .token]) (fun s => do
      let x := vget 0 s.me.e e.toNat
      let y := vget 0 s.me.e (e.toNat + 1)
      need (collOk op x) .opnd (opndInfo 3 e.toNat)
      need (bits y 0 32 != (0 : Word32) && bits y 32 32 == (0 : Word32)) .opnd (opndInfo 3 (e.toNat + 1))
      let sel := (bits x 0 9 : BitVec 9).toNat
      let (key, ms, team) ← selectorOf s sel
      -- a spanning group that lost a device (R409)
      need (!(s.myPart.pierLost && (bits s.myPart.pier 16 8 : Byte).toNat == sel)) .group
      let src ← rd s a
      let dst ← rd s b
      let seqKey := key * 65536 + team
      let no := Tbl.get 0 s.collSeq seqKey
      let j : CollJob :=
        { op := op, sel := key, team := team, ty := (bits x 9 3 : BitVec 3).toNat, red := (bits x 12 2 : BitVec 2).toNat
          root := (bits x 16 16 : BitVec 16).toNat, n := (bits y 0 32 : Word32).toNat, src := src, dst := dst, seqNo := no }
      let k := courseOf s.cur
      let idx := (s.freeToken k).getD 0
      let h := handleOf k idx (Tbl.get Token.zero (s.course k).tokens idx).gen
      let s1 := { s with collSeq := Tbl.set 0 s.collSeq seqKey (no + 1) }.meet j s.me.ident.launch ms h
      return s1.takeToken (.coll j) (bits x 14 2 ^^^ 1) (bar == 1) det tok [a, b]) s

def execAllred (tok src dst : BitVec 5) (e : BitVec 3) (bar mode : BitVec 1) (s : State) : Out :=
  collective .allred tok src dst e bar mode s
def execRed (tok src dst : BitVec 5) (e : BitVec 3) (bar mode : BitVec 1) (s : State) : Out :=
  collective .red tok src dst e bar mode s
def execBcast (tok src dst : BitVec 5) (e : BitVec 3) (bar mode : BitVec 1) (s : State) : Out :=
  collective .bcast tok src dst e bar mode s
def execAllgat (tok src dst : BitVec 5) (e : BitVec 3) (bar mode : BitVec 1) (s : State) : Out :=
  collective .allgat tok src dst e bar mode s

/-! ## The reduction (R120, R253) -/

/-- One combination of two terms of a type. -/
def collStep (ty red : Nat) (x y : Word) : Word :=
  match ty with
  | 0 => if red = 0 then BitVec.ofNat 64 (accAdd .f64 x.toNat y.toNat).1
         else BitVec.ofNat 64 (minmaxV .f64 (red == 2) x.toNat y.toNat).1
  | 1 => if red = 0 then BitVec.ofNat 64 (accAdd .f32 x.toNat y.toNat).1
         else BitVec.ofNat 64 (minmaxV .f32 (red == 2) x.toNat y.toNat).1
  | 2 => if red = 0 then x + y
         else if (if red = 2 then y.toInt < x.toInt else x.toInt < y.toInt) then x else y
  | _ =>
    let (a, b) := ((bits x 0 32 : Word32), (bits y 0 32 : Word32))
    if red = 0 then zext (a + b)
    else if (if red = 2 then b.toInt < a.toInt else a.toInt < b.toInt) then zext a else zext b

/-- What a member of rank r gets from the contributions, in rank order: its destination's elements. A root rank at or above the
number of members names no member: `bcast` and `red` then write nothing, and every token is done (DESIGN CHOICE, log entry 72). -/
def collResult (j : CollJob) (terms : List (List Word)) (r : Nat) : List Word :=
  match j.op with
  | .allgat => terms.flatten
  | .bcast => terms.getD j.root []
  | .allred => (List.range j.n).map fun i => canonicalTree (collStep j.ty j.red) 0 (terms.map fun x => x.getD i 0)
  | .red => if r = j.root then
      (List.range j.n).map fun i => canonicalTree (collStep j.ty j.red) 0 (terms.map fun x => x.getD i 0)
    else []

/-! ## Reading and writing for a member -/

/-- The addresses of n elements of z bytes. -/
def elemAddrs (base : Word) (z n : Nat) : List Word := (List.range n).map fun i => base + BitVec.ofNat 64 (z * i)

/-- The granules of the elements of a member, checked in order (R143): or class, address and bad unit. A destination that is not
written is not checked. -/
def State.collGrans (s : State) (h : BitVec 32) (base : Word) (z n : Nat) (acc : Acc) :
    Except (TrapClass × Word × Option (Nat × Nat)) (Grans × State) :=
  let addrs := elemAddrs base z n
  if n ≠ 0 ∧ base.toNat % z ≠ 0 then .error (.align, base, none)
  else match addrs.find? fun a => !canonical a with
    | some a => .error (.addr, a, none)
    | none => match s.engGrans h acc addrs [] with
      | .error e => .error e
      | .ok (g, s1) =>
        if acc = .load then
          match addrs.findSome? fun a => (s1.badUnit (.phys (g.place a)) z).map fun u => (a, u) with
          | some (a, u) => .error (.memerr, a, some u)
          | none => .ok (g, s1)
        else .ok (g, s1)

/-- The contribution of a member. -/
def State.collTerm (s : State) (h : BitVec 32) (j : CollJob) :
    Except (TrapClass × Word × Option (Nat × Nat)) (List Word × State) :=
  let z := collBytes j.ty
  match s.collGrans h j.src z j.n .load with
  | .error e => .error e
  | .ok (g, s1) =>
    let addrs := elemAddrs j.src z j.n
    .ok (addrs.map fun a => BitVec.ofNat 64 (ofBytesNat (s1.physRead (g.place a) z)), s1.engReads h g (withEnds addrs))

/-- A member of rank r contributes: for `bcast` the root alone. -/
def CollJob.gives (j : CollJob) (r : Nat) : Bool := j.op != .bcast || j.root == r

/-- The contributions of the members, in order, the first of rank r; or the token that fails, with its failure. The source of a member
that contributes nothing is not read. -/
def State.collTerms (s : State) : Nat →
    List (BitVec 32 × CollJob) → Except (BitVec 32 × TrapClass × Word × Option (Nat × Nat)) (List (List Word) × State)
  | _, [] => .ok ([], s)
  | r, (h, j) :: rest => match (if j.gives r then s.collTerm h j else .ok ([], s)) with
    | .error e => .error (h, e)
    | .ok (x, s1) => match s1.collTerms (r + 1) rest with
      | .error e => .error e
      | .ok (xs, s2) => .ok (x :: xs, s2)

/-- The contributions of n members of another device: free values (DESIGN CHOICE, log entry 33). -/
def State.peerTerms (s : State) (n elems : Nat) : List (List Word) × State :=
  ((List.range n).map fun m => (List.range elems).map fun i => Config.pierTerm (s.fresh + m * elems + i),
    { s with fresh := s.fresh + n * elems })

/-- The contributions of the other devices of a pier set: of those of a lower rank, and of those of a higher one, each in rank order
(R408). -/
def State.spanTerms (s : State) (elems me : Nat) : Nat → Nat → (List (List Word) × List (List Word)) × State
  | 0, _ => (([], []), s)
  | k + 1, r =>
    if r = me then s.spanTerms elems me k (r + 1)
    else
      let f := s.takeFresh
      let p := f.2.peerTerms (Config.pierMembers f.1) elems
      let x := p.2.spanTerms elems me k (r + 1)
      (if r < me then (p.1 ++ x.1.1, x.1.2) else (x.1.1, p.1 ++ x.1.2), x.2)

/-- Where the results of the members go: every destination checked before one is written. -/
def State.collPlaces (s : State) (terms : List (List Word)) : Nat → List (BitVec 32 × CollJob) →
    Except (BitVec 32 × TrapClass × Word × Option (Nat × Nat)) (List (Nat × Grans × List Byte) × State)
  | _, [] => .ok ([], s)
  | r, (h, j) :: rest =>
    let z := collBytes j.ty
    let out := collResult j terms r
    match s.collGrans h j.dst z out.length .store with
    | .error e => .error (h, e)
    | .ok (g, s1) => match s1.collPlaces terms (r + 1) rest with
      | .error e => .error e
      | .ok (xs, s2) => .ok ((j.team, g, out.flatMap fun w => toBytes z w) :: xs, s2)

/-! ## Completion (R253, R409) -/

/-- The parts of a rendezvous in rank order. -/
def State.parts' (s : State) (r : Rendezvous) : List (BitVec 32 × CollJob) :=
  r.members.filterMap fun m => (r.toks.find? fun x => x.1 == m).bind fun x => match (s.tokenAt x.2).map Token.op with
    | some (.coll j) => some (x.2, j)
    | _ => none

/-- Two members agree. -/
def CollJob.agrees (x y : CollJob) : Bool :=
  x.op == y.op && x.ty == y.ty && x.red == y.red && x.root == y.root && x.n == y.n

/-- The register 0x170 of the collective's partition, where the selector names its spanning group. -/
def State.spanOf (s : State) (part : Nat) (j : CollJob) : Option Word :=
  let p := s.part part
  if j.sel % 2 = 0 && p.spans (j.sel / 2 % 256) then some p.pier else none

/-- The flits of a collective at the pier ports: free numbers of them, which wait while their port trains (R393, R406; DESIGN CHOICE,
log entry 33). -/
def State.pierTraffic (s : State) : State :=
  (List.range 16).foldl (fun s p =>
    let l := s.linkAt (32 + p)
    let f := s.takeFresh
    if l.state = 1 ∨ l.state = 2 then
      let ms := List.replicate (Config.pierFlits f.1) (⟨.other, 0, ⟨0, 0, 0⟩, [], [], 2, 192⟩ : Msg)
      (f.2.modLink (32 + p) fun l => { l with queue := l.queue ++ ms }).pump (l.queue.length + ms.length) (32 + p)
    else s) s

/-- Traffic at the pier ports is not over: a port trains, or what it has sent is not acknowledged (R392, R393). -/
def State.pierBusy (s : State) : Bool :=
  (List.range 16).any fun p =>
    let l := s.linkAt (32 + p)
    l.state == 2 || (l.state == 1 && !(l.buf.isEmpty && l.queue.isEmpty))

/-- A collective spans devices, and waits for the pier ports (R408). -/
def State.pierWaits (s : State) (part : Nat) (j : CollJob) : Bool :=
  ((s.spanOf part j).any fun w => bits w 8 8 != (0 : Byte)) && s.pierBusy

/-- The contributions of the other devices, before and after those of the members here. -/
def State.peers (s : State) (span : Option Word) (elems : Nat) : (List (List Word) × List (List Word)) × State :=
  match span with
  | none => (([], []), s)
  | some w =>
    (if bits w 8 8 = (0 : Byte) then s else s.pierTraffic).spanTerms elems (bits w 0 8 : Byte).toNat ((bits w 8 8 : Byte).toNat + 1) 0

/-- A member's access failed: its token faults with its own class, the others with GROUP. -/
def State.collFault (s : State) (e : BitVec 32 × TrapClass × Word × Option (Nat × Nat)) : State :=
  (s.engFails e.1 e.2.1 e.2.2.1 e.2.2.2).endToken e.1 .faulted 0 (tokRecord e.2.1 e.2.2.1)

/-- Every part runs: the contributions are taken and the results formed, or the collective fails. -/
def State.gather (s : State) (r : Rendezvous) (part : Nat) : State :=
  match s.parts' r with
  | [] => s
  | (h, j) :: rest =>
    match rest.find? fun x => !x.2.agrees j with
    | some x => s.endToken x.1 .faulted 0 (groupRecord x.2.team)
    | none =>
      let span := s.spanOf part j
      let free := s.takeFresh
      -- whether the members on the other devices agree is theirs to say (R408)
      if (span.any fun w => bits w 8 8 != (0 : Byte)) && !Config.pierAgrees free.1 then free.2.failMates r (Config.pierTeam free.1).toNat 0
      else
        let far := s.peers span j.n
        let first := far.1.1.length
        match far.2.collTerms first ((h, j) :: rest) with
        | .error e => far.2.collFault e
        | .ok (mine, s1) => match s1.collPlaces (far.1.1 ++ mine ++ far.1.2) first ((h, j) :: rest) with
          | .error e => s1.collFault e
          | .ok (ps, s2) => { s2 with colls := s2.colls.map fun x => if x.isOf j then { x with results := ps } else x }

/-- Writes a member's destination. -/
def State.writePart (s : State) (h : BitVec 32) (j : CollJob) (g : Grans) (bs : List Byte) : State :=
  let z := collBytes j.ty
  (List.range (bs.length / z)).foldl (fun s i =>
    let va := j.dst + BitVec.ofNat 64 (z * i)
    let home := dieOfCore (s.engVia h g va).home
    let pa := g.place va
    let s := if i = 0 ∨ pa = lineAt (lineNo pa) then s.cargo (hCourse h / 20) home (vertOf pa) 192 else s
    ((s.crossDie (hCourse h / 20) home).engWrite h g va z).physWrite (g.place va) ((bs.drop (z * i)).take z)) s

/-- A member's destination is written and its token is done, once every member's part runs. -/
def execCollectiveComplete (tok : BitVec 32) (s : State) : Out :=
  let t := s.token tok
  match t.op with
  | .coll j =>
    if t.state ≠ .running then .next s
    else match s.colls.find? fun r => r.isOf j with
      | none => .next s
      | some r => match r.failed with
        | some (team, _) => .next (s.endToken tok .faulted 0 (groupRecord team))
        | none =>
          let ready := r.members.all fun m => r.toks.any fun x => x.1 == m && s.runs x.2
          let s1 := if r.results.isEmpty then (if ready then s.gather r t.part.toNat else s) else s
          match (s1.colls.find? fun r => r.isOf j).bind fun r => r.results.find? fun x => x.1 == j.team with
          | none => .next s1
          | some (_, g, bs) =>
            if s1.pierWaits t.part.toNat j then .next (s1.post (.collective tok))
            else
            -- the members' other parts follow
            let mates := r.toks.filterMap fun x => if x.2 = tok then none else some (Due.collective x.2)
            .next (postAll mates ((s1.writePart tok j g bs).endToken tok .done 0 0))
  | _ => .next s

/-! ## The pier set (R407, R409) -/

/-- Collectives in progress on a partition's spanning group fault with the lost device's rank, and v reads 0. -/
def State.pierLoss (s : State) (part : Nat) (rank : BitVec 8) : State :=
  let p := s.part part
  let sel := 2 * (part * 256 + (bits p.pier 16 8 : Byte).toNat)
  let hit := if p.pier.getLsbD 24 then s.colls.filter fun r => r.sel == sel else []
  let s1 := hit.foldl (fun s r => s.failMates r rank.toNat 0) s
  s1.closeColls.modPart part fun p => { p with pier := p.pier &&& 0xFEFF_FFFF, pierLost := p.pierLost || p.pier.getLsbD 24 }

/-- A device of the set stops answering. -/
def execPierFailure (part : Nat) (rank : BitVec 8) (s : State) : Out := .next (s.pierLoss part rank)

def execPierSetConfigure (part : Nat) (cfg : PierCfg) (s : State) : Out :=
  let w := BitVec.ofNat 64 (cfg.rank.toNat + 256 * ((cfg.devices - 1) % 256) + 65536 * cfg.group.toNat + 2 ^ 24)
  .next (s.modPart part fun p => { p with pier := w, pierLost := false })

end Sys2Proof.Machine
end

