-- ==== Sys2Proof/Machine/Control.lean ====
section
/-! DEFINITION. Branches, jumps, calls, `halt`, `yield`, `brk` and the hardware loops (R132-R141). -/

namespace Sys2Proof.Machine

/-- A taken transfer: pc goes to the target, and no end test runs (R140). -/
def State.goto (s : State) (thr : Nat) (pc : BitVec 57) : State := s.modCtx thr fun c => { c with pc := pc }

/-- pc + 2 × disp, modulo 2^57 (R74). -/
def dispTarget {n : Nat} (pc : BitVec 57) (disp : BitVec n) : BitVec 57 := pc + 2 * disp.signExtend 57

/-- A conditional branch (R87, R132). -/
def branch (cond : Word → Word → Bool) (a b : BitVec 5) (disp : BitVec 11) (s : State) : Out :=
  issue false true 0 [.src 1 a, .src 2 b] (fun s => do
    let x ← rd s a
    let y ← rd s b
    return if cond x y then (s.consume s.cur [a, b]).goto s.cur (dispTarget s.me.pc disp) else finishNo s [a, b]) s

def execBeq (a b : BitVec 5) (disp : BitVec 11) (s : State) : Out := branch (· == ·) a b disp s
def execBne (a b : BitVec 5) (disp : BitVec 11) (s : State) : Out := branch (· != ·) a b disp s
def execBlt (a b : BitVec 5) (disp : BitVec 11) (s : State) : Out := branch (fun x y => x.slt y) a b disp s
def execBge (a b : BitVec 5) (disp : BitVec 11) (s : State) : Out := branch (fun x y => !x.slt y) a b disp s
def execBltn (a b : BitVec 5) (disp : BitVec 11) (s : State) : Out := branch (fun x y => x.ult y) a b disp s
def execBgen (a b : BitVec 5) (disp : BitVec 11) (s : State) : Out := branch (fun x y => !x.ult y) a b disp s
def execBany (a b : BitVec 5) (disp : BitVec 11) (s : State) : Out := branch (fun x y => x &&& y != 0) a b disp s
def execBnone (a b : BitVec 5) (disp : BitVec 11) (s : State) : Out := branch (fun x y => x &&& y == 0) a b disp s

/-- The link: the address after the instruction, in canonical form (R133; DEDUCED, log entry 8). -/
def Ctx.link (c : Ctx) : Word := canon (c.pc + c.len)

/-- `jmp` and `call` of either length (R133). -/
def jump {n : Nat} (half link : Bool) (disp : BitVec n) (s : State) : Out :=
  issue half true 0 [] (fun s =>
    let s1 := if link then s.modMe fun c => c.setG 15 c.link else s
    .ok (s1.goto s.cur (dispTarget s.me.pc disp))) s

def execJmp (disp : BitVec 24) (s : State) : Out := jump false false disp s
def execCall (disp : BitVec 24) (s : State) : Out := jump false true disp s

/-- A transfer to the address in a register. -/
def jumpReg (half link : Bool) (a : BitVec 5) (s : State) : Out :=
  issue half true 0 [.src 1 a] (fun s => do
    let t ← rd s a
    checkTarget t
    let s1 := s.consume s.cur [a]
    let s2 := if link then s1.modMe fun c => c.setG 15 c.link else s1
    return s2.goto s.cur (bits t 0 57)) s

def execJr (a : BitVec 5) (s : State) : Out := jumpReg false false a s
def execCallr (a : BitVec 5) (s : State) : Out := jumpReg false true a s
def execRet (s : State) : Out := jumpReg false false 15 s

/-- `halt` (R135): the thread waits for its replies; THREAD_END then ends it. -/
def halting (half : Bool) (s : State) : Out :=
  issue half true 0 [] (fun s => .ok ((s.modMe fun c => { c with wait := .halting }).post (.threadEnd s.cur))) s

def execHalt (s : State) : Out := halting false s

/-- `yield` (R136): the watchdog count restarts, lanes are renegotiated, and the context may be lent. -/
def yielding (half : Bool) (s : State) : Out :=
  issue half true 0 [] (fun s =>
    let s1 := (s.modMe fun c => { c with wd := 0 }).yieldLanes s.cur
    .ok ((finishNo s1 []).lend s.cur)) s

def execYield (s : State) : Out := yielding false s

def breaking (half : Bool) (s : State) : Out := issue half true 0 [] (fun _ => .error (.trap .brk 0 0)) s
def execBrk (s : State) : Out := breaking false s

def execNop (s : State) : Out := issue false true 0 [] (fun s => .ok (finishNo s [])) s

/-! ## Hardware loops -/

/-- A loop register by its field. -/
def Ctx.loopReg (c : Ctx) (l : BitVec 5) : LoopReg := vget LoopReg.zero c.l l.toNat

/-- The nesting checks of R139, and of R282 in a handler. -/
def checkNest (c : Ctx) (l : BitVec 5) (top span : Nat) : Except Stop Unit := do
  need (!stIh c.status) .loop 1
  need (!(c.loopReg l).act && stLd c.status != 2) .loop 1
  let o := c.loopReg (1 - l)
  need (stLd c.status != 1 || (o.top.toNat ≤ top && top + 2 * span ≤ o.top.toNat + 2 * o.span.toNat)) .loop 1

/-- Entering the body, or skipping it (R139). -/
def enterLoop (s : State) (l : BitVec 5) (span : BitVec 11) (index bound step : Word32) (enter : Bool) : State :=
  s.modMe fun c =>
    let top := c.pc + 4
    if enter then
      { c with l := vset c.l l.toNat ⟨index, bound, step, top, span.setWidth 10, true⟩, lFull := vset c.lFull l.toNat true
               status := setLd c.status (stLd c.status + 1), pc := top }
    else { c with pc := top + 2 * span.setWidth 57 }

def execLp (l cnt : BitVec 5) (span : BitVec 11) (s : State) : Out :=
  issue false (spanOk span) 0 [.file 1 l 1, .src 2 cnt] (fun s => do
    checkNest s.me l (s.me.pc.toNat + 4) span.toNat
    let x ← rd s cnt
    let n : Word32 := bits x 0 32
    return enterLoop (s.consume s.cur [cnt]) l span 0 n 1 (n != 0)) s

def execLpx (l e : BitVec 5) (span : BitVec 11) (s : State) : Out :=
  issue false (spanOk span) 0 [.file 1 l 1, .ext e.toNat 2] (fun s => do
    let x := vget 0 s.me.e e.toNat
    let y := vget 0 s.me.e (e.toNat + 1)
    need (bits y 32 32 == (0 : Word32)) .opnd (opndInfo 3 (e.toNat + 1))
    checkNest s.me l (s.me.pc.toNat + 4) span.toNat
    let start : Word32 := bits x 0 32
    let bound : Word32 := bits x 32 32
    let step : Word32 := bits y 0 32
    need (step != 0) .loop 2
    let enter := if 0 < step.toInt then start.slt bound else bound.slt start
    return enterLoop s l span start bound step enter) s

/-- `lpexit` (R141; R282: nothing in a handler). -/
def Ctx.loopExit (c : Ctx) (l : BitVec 5) : Ctx :=
  if stIh c.status || !(c.loopReg l).act then c
  else
    let off := fun (v : Vector LoopReg 2) i => vset v i { vget LoopReg.zero v i with act := false }
    if c.loopOrder = [1 - l.toNat, l.toNat] then
      { c with l := off (off c.l l.toNat) (1 - l.toNat), status := setLd c.status (stLd c.status - 2) }
    else { c with l := off c.l l.toNat, status := setLd c.status (stLd c.status - 1) }

def execLpexit (l : BitVec 5) (s : State) : Out :=
  issue false true 0 [.file 1 l 1] (fun s => .ok (finishNo (s.modMe fun c => c.loopExit l) [])) s

def execLpidx (d l : BitVec 5) (s : State) : Out :=
  issue false true 0 [.dst 0 d, .file 1 l 1, .loop l] (fun s => .ok (finish s [] d (zext (s.me.loopReg l).index))) s

end Sys2Proof.Machine
end

