-- ==== Sys2Proof/Machine/Scalar.lean ====
section
/-! DEFINITION. The scalar integer, immediate and floating-point instructions (R123-R131), `ext`, `exr` and `exti`
(R82, R83). -/

namespace Sys2Proof.Machine

/-! ## Results of the integer instructions (R123, R124) -/

/-- The quotient of i64 values truncated toward zero; a divisor of zero gives all ones. -/
def divI (a b : Word) : Word := if b = 0 then BitVec.allOnes 64 else a.sdiv b
def divN (a b : Word) : Word := if b = 0 then BitVec.allOnes 64 else a / b
def remI (a b : Word) : Word := if b = 0 then a else a.srem b
def remN (a b : Word) : Word := if b = 0 then a else a % b
def mulHighI (a b : Word) : Word := bits (a.signExtend 128 * b.signExtend 128) 64 64
def mulHighN (a b : Word) : Word := bits (a.setWidth 128 * b.setWidth 128) 64 64
/-- The shift amount b[5:0]. -/
def shamt (b : Word) : Nat := (bits b 0 6).toNat
def asWord (b : Bool) : Word := if b then 1 else 0
def clz64 (a : Word) : Word := if a = 0 then 64 else BitVec.ofNat 64 (63 - Nat.log2 a.toNat)
def ctz64 (a : Word) : Word := BitVec.ofNat 64 (((List.range 64).find? a.getLsbD).getD 64)
def popc64 (a : Word) : Word := BitVec.ofNat 64 ((List.range 64).filter a.getLsbD).length
def bswap64 (a : Word) : Word := ofBytes 64 (toBytes 8 a).reverse
/-- The scratchpad bank of an address (R35). -/
def bankOf (a : Word) : Word := BitVec.ofNat 64 (a.toNat % 524288 / 64 % 3)
/-- len bits of a from pos on, with the field's len − 1. -/
def fieldMask (len : BitVec 6) : Word := BitVec.ofNat 64 (2 ^ (len.toNat + 1) - 1)
def extractN (pos len : BitVec 6) (a : Word) : Word := (a >>> pos.toNat) &&& fieldMask len
def extractI (pos len : BitVec 6) (a : Word) : Word :=
  ((a >>> pos.toNat) <<< (63 - len.toNat)).sshiftRight (63 - len.toNat)
def insertBits (pos len : BitVec 6) (d a : Word) : Word :=
  (d &&& ~~~(fieldMask len <<< pos.toNat)) ||| ((a &&& fieldMask len) <<< pos.toNat)

/-! ## Integer, register and register (R123, R124) -/

def execAdd (d a b : BitVec 5) (s : State) : Out := binary false (fun a b => a + b) d a b s
def execSub (d a b : BitVec 5) (s : State) : Out := binary false (fun a b => a - b) d a b s
def execAnd (d a b : BitVec 5) (s : State) : Out := binary false (fun a b => a &&& b) d a b s
def execOr (d a b : BitVec 5) (s : State) : Out := binary false (fun a b => a ||| b) d a b s
def execXor (d a b : BitVec 5) (s : State) : Out := binary false (fun a b => a ^^^ b) d a b s
def execAndn (d a b : BitVec 5) (s : State) : Out := binary false (fun a b => a &&& ~~~b) d a b s
def execSll (d a b : BitVec 5) (s : State) : Out := binary false (fun a b => a <<< shamt b) d a b s
def execSrl (d a b : BitVec 5) (s : State) : Out := binary false (fun a b => a >>> shamt b) d a b s
def execSra (d a b : BitVec 5) (s : State) : Out := binary false (fun a b => a.sshiftRight (shamt b)) d a b s
def execRol (d a b : BitVec 5) (s : State) : Out := binary false (fun a b => a.rotateLeft (shamt b)) d a b s
def execRor (d a b : BitVec 5) (s : State) : Out := binary false (fun a b => a.rotateRight (shamt b)) d a b s
def execMul (d a b : BitVec 5) (s : State) : Out := binary false (fun a b => a * b) d a b s
def execMulh (d a b : BitVec 5) (s : State) : Out := binary false (fun a b => mulHighI a b) d a b s
def execMulhn (d a b : BitVec 5) (s : State) : Out := binary false (fun a b => mulHighN a b) d a b s
def execDiv (d a b : BitVec 5) (s : State) : Out := binary false (fun a b => divI a b) d a b s
def execDivn (d a b : BitVec 5) (s : State) : Out := binary false (fun a b => divN a b) d a b s
def execRem (d a b : BitVec 5) (s : State) : Out := binary false (fun a b => remI a b) d a b s
def execRemn (d a b : BitVec 5) (s : State) : Out := binary false (fun a b => remN a b) d a b s
def execMin (d a b : BitVec 5) (s : State) : Out := binary false (fun a b => if a.slt b then a else b) d a b s
def execMax (d a b : BitVec 5) (s : State) : Out := binary false (fun a b => if a.slt b then b else a) d a b s
def execMinn (d a b : BitVec 5) (s : State) : Out := binary false (fun a b => if a.ult b then a else b) d a b s
def execMaxn (d a b : BitVec 5) (s : State) : Out := binary false (fun a b => if a.ult b then b else a) d a b s
def execSeq (d a b : BitVec 5) (s : State) : Out := binary false (fun a b => asWord (a == b)) d a b s
def execSne (d a b : BitVec 5) (s : State) : Out := binary false (fun a b => asWord (a != b)) d a b s
def execSlt (d a b : BitVec 5) (s : State) : Out := binary false (fun a b => asWord (a.slt b)) d a b s
def execSge (d a b : BitVec 5) (s : State) : Out := binary false (fun a b => asWord (!a.slt b)) d a b s
def execSltn (d a b : BitVec 5) (s : State) : Out := binary false (fun a b => asWord (a.ult b)) d a b s
def execSgen (d a b : BitVec 5) (s : State) : Out := binary false (fun a b => asWord (!a.ult b)) d a b s
def execLeaB8 (d a b : BitVec 5) (s : State) : Out := binary false (fun a b => a + b) d a b s
def execLeaB16 (d a b : BitVec 5) (s : State) : Out := binary false (fun a b => a + 2 * b) d a b s
def execLeaB32 (d a b : BitVec 5) (s : State) : Out := binary false (fun a b => a + 4 * b) d a b s
def execLeaB64 (d a b : BitVec 5) (s : State) : Out := binary false (fun a b => a + 8 * b) d a b s
def execHash (d a b : BitVec 5) (s : State) : Out := binary false (fun a b => mix a b) d a b s
def execClz (d a : BitVec 5) (s : State) : Out := unary false clz64 d a s
def execCtz (d a : BitVec 5) (s : State) : Out := unary false ctz64 d a s
def execPopc (d a : BitVec 5) (s : State) : Out := unary false popc64 d a s
def execBswap (d a : BitVec 5) (s : State) : Out := unary false bswap64 d a s
def execBank (d a : BitVec 5) (s : State) : Out := unary false bankOf d a s

/-! ## Immediates (R125-R128) -/

def execAddi (d a : BitVec 5) (imm : BitVec 14) (s : State) : Out := unary false (fun x => x + sext imm) d a s
def execAndi (d a : BitVec 5) (imm : BitVec 14) (s : State) : Out := unary false (fun x => x &&& sext imm) d a s
def execOri (d a : BitVec 5) (imm : BitVec 14) (s : State) : Out := unary false (fun x => x ||| zext imm) d a s
def execXori (d a : BitVec 5) (imm : BitVec 14) (s : State) : Out := unary false (fun x => x ^^^ zext imm) d a s
def execSlli (d a : BitVec 5) (sh : BitVec 6) (s : State) : Out := unary false (fun x => x <<< sh.toNat) d a s
def execSrli (d a : BitVec 5) (sh : BitVec 6) (s : State) : Out := unary false (fun x => x >>> sh.toNat) d a s
def execSrai (d a : BitVec 5) (sh : BitVec 6) (s : State) : Out := unary false (fun x => x.sshiftRight sh.toNat) d a s
def execRoli (d a : BitVec 5) (sh : BitVec 6) (s : State) : Out := unary false (fun x => x.rotateLeft sh.toNat) d a s

/-- d ← f a, with the limits of R127 on pos and len. -/
def extract (f : BitVec 6 → BitVec 6 → Word → Word) (d a : BitVec 5) (pos len : BitVec 6) (s : State) : Out :=
  issue false (fieldOk pos len) 0 [.dst 0 d, .src 1 a] (fun s => do
    let x ← rd s a
    return finish s [a] d (f pos len x)) s

def execBfxN64 (d a : BitVec 5) (pos len : BitVec 6) (s : State) : Out := extract extractN d a pos len s
def execBfxI64 (d a : BitVec 5) (pos len : BitVec 6) (s : State) : Out := extract extractI d a pos len s
def execBfi (d a : BitVec 5) (pos len : BitVec 6) (s : State) : Out :=
  accum false (fieldOk pos len) (insertBits pos len) d a s

/-- d ← v. -/
def loadImm (half : Bool) (d : BitVec 5) (v : Word) (s : State) : Out :=
  issue half true 0 [.dst 0 d] (fun s => .ok (finish s [] d v)) s

def execLi (d : BitVec 5) (imm : BitVec 19) (s : State) : Out := loadImm false d (sext imm) s
def execLis (d : BitVec 5) (imm : BitVec 19) (s : State) : Out :=
  issue false true 0 [.both 0 d] (fun s => do
    let x ← rd s d
    return finish s [] d ((x <<< 19) ||| zext imm)) s

/-! ## Floating point (R129-R131) -/

/-- A floating-point operation on one or two sources: value and flags; `ok` says whether rm (and the types) are placed. -/
def fp1 (ok : Bool) (f : Word32 → Word → Word × BitVec 4) (d a : BitVec 5) (s : State) : Out :=
  issue false ok 0 [.dst 0 d, .src 1 a, .vs] (fun s => do
    let x ← rd s a
    let r := f s.me.vs x
    return finishFp s [a] d r.1 r.2) s

def fp2 (half ok : Bool) (f : Word32 → Word → Word → Word × BitVec 4) (d a b : BitVec 5) (s : State) : Out :=
  issue half ok 0 [.dst 0 d, .src 1 a, .src 2 b, .vs] (fun s => do
    let x ← rd s a
    let y ← rd s b
    let r := f s.me.vs x y
    return finishFp s [a, b] d r.1 r.2) s

/-- The same with d read as a source: its value comes last. -/
def fp3 (ok : Bool) (f : Word32 → Word → Word → Word → Word × BitVec 4) (d a b : BitVec 5) (s : State) : Out :=
  issue false ok 0 [.both 0 d, .src 1 a, .src 2 b, .vs] (fun s => do
    let z ← rd s d
    let x ← rd s a
    let y ← rd s b
    let r := f s.me.vs x y z
    return finishFp s [a, b] d r.1 r.2) s

/-- d ← f d a, with rm = dyn: the 16-bit forms. -/
def fpAccum (f : Word32 → Word → Word → Word × BitVec 4) (d a : BitVec 5) (s : State) : Out :=
  issue true true 0 [.both 0 d, .src 1 a, .vs] (fun s => do
    let x ← rd s d
    let y ← rd s a
    let r := f s.me.vs x y
    return finishFp s [a] d r.1 r.2) s

def faddR (ty : BitVec 2) (rm : BitVec 3) (vs : Word32) (x y : Word) : Word × BitVec 4 :=
  fpReg (addV (fmtOf ty) (modeOf rm vs) false (fpVal (fmtOf ty) x) (fpVal (fmtOf ty) y))
/-- a − b is a + (−b), with a NaN operand as it stands (R94). -/
def fsubR (ty : BitVec 2) (rm : BitVec 3) (vs : Word32) (x y : Word) : Word × BitVec 4 :=
  fpReg (addV (fmtOf ty) (modeOf rm vs) false (fpVal (fmtOf ty) x) (fpVal (fmtOf ty) y).flip)
def fmulR (ty : BitVec 2) (rm : BitVec 3) (vs : Word32) (x y : Word) : Word × BitVec 4 :=
  fpReg (mulV (fmtOf ty) (modeOf rm vs) false (fpVal (fmtOf ty) x) (fpVal (fmtOf ty) y))
def fdivR (ty : BitVec 2) (rm : BitVec 3) (vs : Word32) (x y : Word) : Word × BitVec 4 :=
  fpReg (divV (fmtOf ty) (modeOf rm vs) (fpVal (fmtOf ty) x) (fpVal (fmtOf ty) y))
def fsqrtR (ty : BitVec 2) (rm : BitVec 3) (vs : Word32) (x : Word) : Word × BitVec 4 :=
  fpReg (sqrtV (fmtOf ty) (modeOf rm vs) (fpVal (fmtOf ty) x))
def fmacR (ty : BitVec 2) (rm : BitVec 3) (vs : Word32) (x y z : Word) : Word × BitVec 4 :=
  fpReg (fmaV (fmtOf ty) (modeOf rm vs) false (fpVal (fmtOf ty) x) (fpVal (fmtOf ty) y) (fpVal (fmtOf ty) z))
def fminmaxR (ty : BitVec 2) (big : Bool) (x y : Word) : Word × BitVec 4 :=
  fpReg (minmaxV (fmtOf ty) big (fpBits (fmtOf ty) x) (fpBits (fmtOf ty) y))
def fcmpR (f : FVal → FVal → Bool × BitVec 4) (ty : BitVec 2) (x y : Word) : Word × BitVec 4 :=
  let r := f (fpVal (fmtOf ty) x) (fpVal (fmtOf ty) y)
  (asWord r.1, r.2)
/-- a with b's sign bit (R131). -/
def fsgnR (ty : BitVec 2) (x y : Word) : Word :=
  let F := fmtOf ty
  BitVec.ofNat 64 (fpBits F x % F.signBit + (if F.signBit ≤ fpBits F y then F.signBit else 0))

def execFadd (d a b : BitVec 5) (rm : BitVec 3) (ty : BitVec 2) (s : State) : Out :=
  fp2 false (rmOk rm) (faddR ty rm) d a b s
def execFsub (d a b : BitVec 5) (rm : BitVec 3) (ty : BitVec 2) (s : State) : Out :=
  fp2 false (rmOk rm) (fsubR ty rm) d a b s
def execFmul (d a b : BitVec 5) (rm : BitVec 3) (ty : BitVec 2) (s : State) : Out :=
  fp2 false (rmOk rm) (fmulR ty rm) d a b s
def execFdiv (d a b : BitVec 5) (rm : BitVec 3) (ty : BitVec 2) (s : State) : Out :=
  fp2 false (rmOk rm) (fdivR ty rm) d a b s
def execFsqrt (d a : BitVec 5) (rm : BitVec 3) (ty : BitVec 2) (s : State) : Out :=
  fp1 (rmOk rm) (fsqrtR ty rm) d a s
def execFmin (d a b : BitVec 5) (ty : BitVec 2) (s : State) : Out := fp2 false true (fun _ => fminmaxR ty false) d a b s
def execFmax (d a b : BitVec 5) (ty : BitVec 2) (s : State) : Out := fp2 false true (fun _ => fminmaxR ty true) d a b s
def execFmac (d a b : BitVec 5) (rm : BitVec 3) (ty : BitVec 2) (s : State) : Out := fp3 (rmOk rm) (fmacR ty rm) d a b s
def execFcvtFloatFloat (d a : BitVec 5) (src : BitVec 2) (rm : BitVec 3) (ty : BitVec 2) (s : State) : Out :=
  fp1 (rmOk rm && src != ty) (fun vs x => fpReg (cvtFF (fmtOf ty) (modeOf rm vs) (fpVal (fmtOf src) x))) d a s
def execFcvtFloatInteger (d a : BitVec 5) (src : BitVec 2) (rm : BitVec 3) (ty : BitVec 2) (s : State) : Out :=
  fp1 (rmOk rm) (fun vs x =>
    let r := cvtFI (intBounds src).1 (intBounds src).2 (modeOf rm vs) (fpVal (fmtOf ty) x)
    (intReg src r.1, r.2)) d a s
def execFcvtIntegerFloat (d a : BitVec 5) (src : BitVec 2) (rm : BitVec 3) (ty : BitVec 2) (s : State) : Out :=
  fp1 (rmOk rm) (fun vs x => fpReg (cvtIF (fmtOf ty) (modeOf rm vs) (intValue src x))) d a s
def execFeq (d a b : BitVec 5) (ty : BitVec 2) (s : State) : Out := fp2 false true (fun _ => fcmpR eqV ty) d a b s
def execFlt (d a b : BitVec 5) (ty : BitVec 2) (s : State) : Out := fp2 false true (fun _ => fcmpR ltV ty) d a b s
def execFle (d a b : BitVec 5) (ty : BitVec 2) (s : State) : Out := fp2 false true (fun _ => fcmpR leV ty) d a b s
def execFclass (d a : BitVec 5) (ty : BitVec 2) (s : State) : Out :=
  unary false (fun x => classV (fmtOf ty) (fpVal (fmtOf ty) x)) d a s
def execFsgn (d a b : BitVec 5) (ty : BitVec 2) (s : State) : Out := binary false (fsgnR ty) d a b s

/-! ## Extension registers (R82, R83) -/

def execExt (a : BitVec 5) (e : BitVec 3) (s : State) : Out :=
  issue false true 0 [.src 1 a] (fun s => do
    let x ← rd s a
    return finishNo (s.modMe fun c => { c with e := vset c.e e.toNat x }) [a]) s

def execExr (d : BitVec 5) (e : BitVec 3) (s : State) : Out :=
  issue false true 0 [.dst 0 d] (fun s => .ok (finish s [] d (vget 0 s.me.e e.toNat))) s

/-- The new value of an extension register (R83). -/
def extiValue (h : BitVec 2) (mode : BitVec 1) (imm : BitVec 16) (e : Word) : Word :=
  if mode = 0 then setBits e (16 * h.toNat) imm else sext imm <<< (16 * h.toNat)

def execExti (e : BitVec 3) (h : BitVec 2) (mode : BitVec 1) (imm : BitVec 16) (s : State) : Out :=
  issue false true 0 [] (fun s =>
    .ok (finishNo (s.modMe fun c => { c with e := vset c.e e.toNat (extiValue h mode imm (vget 0 c.e e.toNat)) }) [])) s

end Sys2Proof.Machine
end

