-- ==== Sys2Proof/Machine/Compact.lean ====
section
/-! DEFINITION. The 16-bit instructions (R79, R89): each has its expansion's effect, pc advances by 2, and a record gives
the length as 16 bits. -/

namespace Sys2Proof.Machine

def execAddMove_16 (d a : BitVec 5) (s : State) : Out := unary true (fun x => x) d a s
def execAdd_16 (d a : BitVec 5) (s : State) : Out := accum true true (fun x y => x + y) d a s
def execSub_16 (d a : BitVec 5) (s : State) : Out := accum true true (fun x y => x - y) d a s
def execAnd_16 (d a : BitVec 5) (s : State) : Out := accum true true (fun x y => x &&& y) d a s
def execOr_16 (d a : BitVec 5) (s : State) : Out := accum true true (fun x y => x ||| y) d a s
def execXor_16 (d a : BitVec 5) (s : State) : Out := accum true true (fun x y => x ^^^ y) d a s
def execSll_16 (d a : BitVec 5) (s : State) : Out := accum true true (fun x y => x <<< shamt y) d a s

def execFaddF64_16 (d a : BitVec 5) (s : State) : Out := fpAccum (faddR 0 0) d a s
def execFmulF64_16 (d a : BitVec 5) (s : State) : Out := fpAccum (fmulR 0 0) d a s
def execFaddF32_16 (d a : BitVec 5) (s : State) : Out := fpAccum (faddR 1 0) d a s
def execFmulF32_16 (d a : BitVec 5) (s : State) : Out := fpAccum (fmulR 1 0) d a s

def execLdB64_16 (d a : BitVec 5) (s : State) : Out := load true .b64 d a 0 0 s
def execStB64_16 (d a : BitVec 5) (s : State) : Out := store true 8 d a 0 0 s
def execLdN32_16 (d a : BitVec 5) (s : State) : Out := load true .n32 d a 0 0 s
def execStB32_16 (d a : BitVec 5) (s : State) : Out := store true 4 d a 0 0 s
def execLdF32_16 (d a : BitVec 5) (s : State) : Out := load true .f32 d a 0 0 s
def execStF32_16 (d a : BitVec 5) (s : State) : Out := store true 4 d a 0 0 s

/-- sp is g14 (R54). -/
def sp : BitVec 5 := 14
def execLdB64Sp_16 (d imm : BitVec 5) (s : State) : Out := load true .b64 d sp 0 (8 * zext imm) s
def execStB64Sp_16 (d imm : BitVec 5) (s : State) : Out := store true 8 d sp 0 (8 * zext imm) s

/-- d ← f d, with an immediate in f. -/
def accumImm (f : Word → Word) (d : BitVec 5) (s : State) : Out :=
  issue true true 0 [.both 0 d] (fun s => do
    let x ← rd s d
    return finish s [] d (f x)) s

def execLi_16 (d imm : BitVec 5) (s : State) : Out := loadImm true d (sext imm) s
def execAddi_16 (d imm : BitVec 5) (s : State) : Out := accumImm (fun x => x + sext imm) d s
def execSlli_16 (d imm : BitVec 5) (s : State) : Out := accumImm (fun x => x <<< imm.toNat) d s
def execSrli_16 (d imm : BitVec 5) (s : State) : Out := accumImm (fun x => x >>> imm.toNat) d s
def execSrai_16 (d imm : BitVec 5) (s : State) : Out := accumImm (fun x => x.sshiftRight imm.toNat) d s

def execJmp_16 (disp : BitVec 10) (s : State) : Out := jump true false disp s
def execCall_16 (disp : BitVec 10) (s : State) : Out := jump true true disp s
def execHalt_16 (s : State) : Out := halting true s
def execYield_16 (s : State) : Out := yielding true s
def execRet_16 (s : State) : Out := jumpReg true false 15 s
def execBrk_16 (s : State) : Out := breaking true s
def execNop_16 (s : State) : Out := issue true true 0 [] (fun s => .ok (finishNo s [])) s

end Sys2Proof.Machine
end

