-- ==== Sys2Proof/Machine/Convert.lean ====
section
/-! DEFINITION. `cvq` and `cvd` (R207-R210): a scratchpad stream quantised into ashlars, and ashlars decoded into one. -/

namespace Sys2Proof.Machine

/-- The extension register of both forms (R208): tag, seed number, k0. -/
def cvTag (x : Word) : Byte := bits x 0 8
def cvSeed (x : Word) : Nat := (bits x 8 2 : BitVec 2).toNat
def cvK0 (x : Word) : Nat := (bits x 16 32 : Word32).toNat

def cvExtOk (x : Word) : Bool :=
  bits x 10 6 == (0 : BitVec 6) && bits x 48 16 == (0 : BitVec 16) && tagOk (cvTag x) 0 && cvK0 x % 32 == 0

/-- The wide format: 0 f32, 1 bf16. -/
def wideFmt (wide : BitVec 1) : Fmt := if wide = 0 then .f32 else .bf16

/-- log2 of the rotation length of a tag: 16 or 32. -/
def tagLog (tag : Byte) : Nat := if tag.getLsbD 6 then 5 else 4

/-- A list cut into pieces of n. -/
def chunksOf {α : Type} (n : Nat) : Nat → List α → List (List α)
  | 0, _ => []
  | k + 1, l => l.take n :: chunksOf n k (l.drop n)

/-- One ashlar of `cvq` (R209): the values of its elements at axis index k0 on, at address a; its bytes and flags. -/
def quantAshlar (el : Elem) (tag : Byte) (sd rk : Word) (sr sat : Bool) (a : Word) (k0 : Nat) (xs : List FVal) :
    List Byte × BitVec 4 :=
  let lg := tagLog tag
  let n := 2 ^ lg
  let rot := ((chunksOf n (xs.length / n) xs).zipIdx).map fun p =>
    if tag.getLsbD 7 && p.1.all FVal.finite then rotateFwd lg sd (k0 / n + p.2) p.1 else (p.1, false)
  let vals := rot.flatMap Prod.fst
  let nx : BitVec 4 := if rot.any Prod.snd then fNX else 0
  let rm := fun j => if sr then RMode.sr (rhoOf rk (bits a 0 57) j) else RMode.det .ne
  let blocks := ((chunksOf 32 (xs.length / 32) vals).zipIdx).map fun p => quantise el rm sat (32 * p.2) p.1
  let sc := fun i => ((blocks.map QBlock.scale).getD i 0)
  let flags : Byte := (if sr then 1 else 0) ||| (if blocks.any QBlock.nan then 2 else 0)
  (mkAshlar el (sc 0) (sc 1) tag (if tag.getLsbD 7 then digestOf sd else 0) (BitVec.ofNat 16 (amaxOf vals))
      ((blocks.map QBlock.sats).foldl (· + ·) 0) flags (packElems el (blocks.flatMap QBlock.elems)),
    blocks.foldl (fun f b => f ||| b.flags) nx)

/-- The ashlars of n elements from an address on. -/
def cvAddrs (el : Elem) (a : Word) (n : Nat) : List Word := (List.range (n / el.perAshlar)).map (stepAddr a)

def execCvq (dst p : BitVec 5) (sat : BitVec 2) (rnd : BitVec 1) (e : BitVec 3) (wide : BitVec 1) (fmt : BitVec 2)
    (s : State) : Out :=
  issue false (sat.toNat < 3) 0 [.src 0 dst, ptrField 1 p, .ext e.toNat 1, .vl, .vs] (fun s => do
    let x := vget 0 s.me.e e.toNat
    let el := Elem.ofField fmt
    need (cvExtOk x) .opnd (opndInfo 3 e.toNat)
    let n := s.me.vl.toNat
    need (n % el.perAshlar == 0) .shape
    let a ← rd s dst
    if n = 0 then return finishNo s [dst]
    else
      let F := wideFmt wide
      let st := srcStrm p (F.width / 8)
      let s1 := s.performAll s.cur
      match firstOf n [st] s1.badElem with
      | some (cls, info, ea) => .error (.trap cls info ea)
      | none =>
        need (fullSector a.toNat) .align Acc.store.code a
        let addrs := cvAddrs el a n
        let (ls, s2) ← State.blocks 16 48 .store addrs s1
        match firstOf n [st] s1.badRead with
        | some (u, info, ea) => .error (.bad u.1 u.2 info ea)
        | none =>
          let s2 := s2.correctStream n [st]
          let xs := (s1.column n st).map fun w => decodeF F (fpBits F w)
          let sd := vget 0 s.me.sd (cvSeed x)
          let st1 := if sat = 0 then vsSat s.me.vs else sat == 1
          let rs := ((addrs.zip (chunksOf el.perAshlar addrs.length xs)).zipIdx).map fun q =>
            quantAshlar el (cvTag x) sd s.me.rk (rnd == 1) st1 q.1.1 (cvK0 x + q.2 * el.perAshlar) q.1.2
          let fl := (rs.map Prod.snd).foldl (· ||| ·) 0
          let s3 := (s2.putPieces (ls.zip (rs.map Prod.fst))).consume s.cur [dst]
          let s4 := s3.modMe fun c => { c.raise fl with p := advancePtrs n [st] c.p }
          return s4.finishing s.cur (s.me.fpe fl)) s

/-- Step 5 of R107 for `cvd` (R210). -/
def cvdBad (el : Elem) (tag : Byte) (sd : Word) (bs : List Byte) : Option TrapClass :=
  match checkAshlar bs with
  | .error .check => some .check
  | .error .fmt => some .fmt
  | .ok el' =>
    if el' ≠ el then some .fmt
    else if ashByte bs 3 ≠ tag ∨ (tag.getLsbD 7 ∧ ofBytes 16 ((bs.drop 4).take 2) ≠ digestOf sd) then some .tag
    else none

/-- The values of one ashlar in the wide format, with flags. -/
def decodeAshlar (el : Elem) (F : Fmt) (sd : Word) (k0 : Nat) (bs : List Byte) : List (Nat × BitVec 4) :=
  let vals := ashValues el bs
  let tag := ashByte bs 3
  let lg := tagLog tag
  let n := 2 ^ lg
  if tag.getLsbD 7 then
    ((chunksOf n (vals.length / n) vals).zipIdx).flatMap fun p => rotateInv lg sd (k0 / n + p.2) F .ne p.1
  else vals.map (cvtFF F .ne)

def execCvd (p src : BitVec 5) (e : BitVec 3) (wide : BitVec 1) (fmt : BitVec 2) (s : State) : Out :=
  issue false true 0 [ptrField 0 p, .src 1 src, .ext e.toNat 1, .vl, .vs] (fun s => do
    let x := vget 0 s.me.e e.toNat
    let el := Elem.ofField fmt
    need (cvExtOk x) .opnd (opndInfo 3 e.toNat)
    let n := s.me.vl.toNat
    need (n % el.perAshlar == 0) .shape
    let a ← rd s src
    if n = 0 then return finishNo s [src]
    else
      need (fullSector a.toNat) .align Acc.load.code a
      let F := wideFmt wide
      let addrs := cvAddrs el a n
      let (ls, s1) ← State.blocks 16 48 .load addrs (s.performAll s.cur)
      let bs := ls.map fun l => s1.read l 48
      let sd := vget 0 s.me.sd (cvSeed x)
      match firstBad (cvdBad el (cvTag x) sd) (addrs.zip bs) with
      | some (i, ea, cls) => .error (.trap cls (tileInfo 0 i) ea)
      | none =>
        let st := dstStrm p (F.width / 8) false
        match firstOf n [st] s1.badElem with
        | some (cls, info, ea) => .error (.trap cls info ea)
        | none =>
          let rs := (bs.zipIdx).flatMap fun q => decodeAshlar el F sd (cvK0 x + q.2 * el.perAshlar) q.1
          let fl := (rs.map Prod.snd).foldl (· ||| ·) 0
          let s2 := (rs.zipIdx).foldl (fun s r => s.spadWrite (coreOf s.cur) (s1.elemAddr st r.2)
            (toBytes (F.width / 8) (BitVec.ofNat 64 r.1.1))) s1
          let s3 := (s2.consume s.cur [src]).modMe fun c => { c.raise fl with p := advancePtrs n [st] c.p }
          return s3.finishing s.cur (s.me.fpe fl)) s

end Sys2Proof.Machine
end

