-- ==== Sys2Proof/Machine/Tasks.lean ====
section
/-! DEFINITION. Threads and tasks: `start` and `reap` (R238), migration (R239, R240), fork-join (R242-R247), the claiming of
free contexts (R366) and the steal agent (R246). -/

namespace Sys2Proof.Machine

/-! ## The line of R239 -/

/-- The 176 bits of a loop register (R29), in 22 bytes. -/
def LoopReg.toBytes (l : LoopReg) : List Byte :=
  Machine.toBytes 22 (BitVec.ofNat 176 (l.index.toNat + l.bound.toNat * 2 ^ 32 + l.step.toNat * 2 ^ 64 +
    l.top.toNat / 2 * 2 ^ 96 + l.span.toNat * 2 ^ 152 + (if l.act then 2 ^ 162 else 0)))

def LoopReg.ofBytes (bs : List Byte) : LoopReg :=
  let n := ofBytesNat bs
  let w : BitVec 176 := BitVec.ofNat 176 n
  { index := bits w 0 32, bound := bits w 32 32, step := bits w 64 32, top := (bits w 96 56 : BitVec 56) ++ (0 : BitVec 1)
    span := bits w 152 10, act := w.getLsbD 162 }

/-- The 192 bytes of a migration message. -/
def Ctx.line (c : Ctx) : List Byte :=
  (List.range 15).flatMap (fun i => toBytes 8 (vget 0 c.g (i + 1))) ++ toBytes 8 (canon c.pc) ++
    c.q.toList.flatMap (toBytes 4) ++ (vget LoopReg.zero c.l 0).toBytes ++ (vget LoopReg.zero c.l 1).toBytes ++
    toBytes 4 c.statusView

/-- The context with what a line carries, in a slot: each g register full; `status.thr`, `cz` and `pin` are the slot's. -/
def Ctx.ofLine (c : Ctx) (slot : Nat) (bs : List Byte) : Ctx :=
  let at' := fun o n => (bs.drop o).take n
  let st : Word32 := ofBytes 32 (at' 188 4) &&& 0x00FF_1FFF
  { c with
    g := Vector.ofFn fun i => if i.val = 0 then 0 else ofBytes 64 (at' (8 * (i.val - 1)) 8)
    gFull := Vector.replicate 16 true
    pc := bits (ofBytes 64 (at' 120 8) : Word) 0 57 &&& ~~~1
    q := Vector.ofFn fun i => ofBytes 32 (at' (128 + 4 * i.val) 4)
    l := Vector.ofFn fun i => LoopReg.ofBytes (at' (144 + 22 * i.val) 22)
    lFull := Vector.replicate 2 true
    status := setSlot st slot (slot == 0 && !c.lent) }

/-! ## `start` and `reap` (R238) -/

/-- Context thr of the running thread's core. -/
def State.sibling (s : State) (k : Nat) : Nat := 16 * coreOf s.cur + k

def execStart (d a b : BitVec 5) (s : State) : Out :=
  issue false true 0 [.gsrc 0 d, .src 1 a, .src 2 b] (fun s => do
    need (stCz s.me.status) .thread
    let arg ← rd s d
    let t ← rd s a
    let entry ← rd s b
    need (1 ≤ t.toNat && t.toNat ≤ 15) .thread
    checkTarget entry
    let thr := s.sibling t.toNat
    need (!(s.ctx thr).live) .thread
    let s1 := finishNo (s.performAll s.cur) [d, a, b]
    let id := s.me.ident
    return s1.startThread thr ⟨id.launch, id.team, t.toNat⟩ false (bits entry 0 57) arg s.me.tasid 8) s

def execReap (d a : BitVec 5) (s : State) : Out :=
  issue false true 0 [.dst 0 d, .src 1 a] (fun s => do
    need (stCz s.me.status) .thread
    let t ← rd s a
    need (1 ≤ t.toNat && t.toNat ≤ 15) .thread
    let thr := s.sibling t.toNat
    hold (!(s.ctx thr).live) (.contextUsed thr)
    let r := Tbl.get 3 (s.core (coreOf s.cur)).tm.endRec t.toNat
    return (finish s [a] d r).setEndRec thr 3) s

/-! ## Migration (R239, R240) -/

/-- What a migration carries of a context: the line, and the thread's identity, bindings, stack segments, path, the barrier or the
segment that it waits for, and what the debugger asks of it (R420). -/
def Ctx.carried (c : Ctx) : Ctx :=
  let x := Ctx.blank.ofLine 1 c.line
  { x with
    live := true, ident := c.ident, tasid := c.tasid
    wait := match c.wait with
      | .barrier k g a => .barrier k g a
      | .segment b => .segment b
      | _ => .ready
    cin := c.cin, cout := c.cout, path := c.path
    segments := c.segments, stolenSeg := c.stolenSeg, fencedAt := c.fencedAt
    dbgAsked := c.dbgAsked, dbgWrites := c.dbgWrites }

/-- The thread leaves its context for another core, at an instruction boundary: its message is on the way before the context
frees. -/
def State.sendAway (s : State) (thr core : Nat) : State :=
  let s := (s.performAll thr).unwatch thr
  let c := s.ctx thr
  let s := s.rewriteOwner thr c.lent (BitVec.ofNat 15 (16 * core)) (some c.ident)
  let s := s.cargo (dieOfCore (coreOf thr)) (dieOfCore core) 2 192
  let s := s.modCore core fun k => { k with arrivals := k.arrivals ++ [⟨c.carried, Ctx.blank⟩] }
  (((s.dropLanes thr).vacate thr).post (.pendingDelivery core)).post (.migrationArrival core)

/-- A context that has moved, in a slot of its new core. -/
def Ctx.restored (c : Ctx) (slot cycle : Nat) : Ctx :=
  { c with status := setSlot c.status slot (slot == 0 && !c.lent), wd := 0, resumeAt := cycle + 2, issuedAt := 0 }

/-- An attached operation of a thread ended while the thread was in no context: it resumes, or traps (R293). -/
def State.wakeOne (s : State) (thr : Nat) : State :=
  match (s.ctx thr).wait with
  | .attached h _ => if (s.token h).state.terminal then s.resumeAttached h else s
  | _ => s

/-- A thread parked in `bar` re-issues it from step 1 (R293): it waits on where it has arrived if that is over, or if its
selector still names the barrier that it arrived at; else it looks its selector up anew. -/
def State.rebar (s : State) (thr : Nat) : State :=
  let c := s.ctx thr
  match c.wait with
  | .barrier key gen a =>
    let same := match s.src thr a with
      | .ok x => selKey c.part c.ident.launch (courseOf thr) x.toNat == key &&
          (s.selTeams c.part c.ident.launch (courseOf thr) x.toNat).contains c.ident.team
      | .error _ => false
    if (s.barrier key).gen ≠ gen || same then s else s.setCtx thr { c with wait := .ready }
  | _ => s

/-- An arrived thread takes a context, with the one whose slot it was lent: its tokens follow. What it waited for may have come
meanwhile. -/
def State.settleMigrant (s : State) (thr : Nat) (m : Migrant) : State :=
  let core := coreOf thr
  let cy := (s.core core).cycle
  let c := m.ctx.restored (slotOf thr) cy
  let s := if m.loan.live then s.modTm core fun x =>
      { x with loans := Tbl.set Ctx.blank x.loans (slotOf thr) (m.loan.restored (slotOf thr) cy) } else s
  ((((s.mapTokens fun t =>
    if t.state ≠ .free ∧ !t.away ∧ t.owner = BitVec.ofNat 15 (16 * core) ∧ t.own = c.ident then
      { t with owner := BitVec.ofNat 15 thr } else t).setCtx thr c).wakeOne thr).rebar thr).giveSegment thr

def execMigrate (a : BitVec 5) (s : State) : Out :=
  issue false true 0 [.src 1 a] (fun s => do
    let x ← rd s a
    need (x.toNat < 1280) .addr 0 x
    need (s.myPart.hasCore x.toNat) .perm 0 x
    need (!s.me.pinned) .migrate
    return (finishNo s [a]).sendAway s.cur x.toNat) s

/-! ## Join records and links (R242, R243) -/

/-- n addresses from a on. -/
def addrs (a : Word) (n : Nat) : List Word := (List.range n).map fun i => a + BitVec.ofNat 64 i

/-- Reads n bytes of global space for the running thread, at its translation. -/
def State.getBytes (s : State) (a : Word) (n : Nat) : Except Stop (List Byte × State) := do
  let (ls, s1) ← State.blocks 1 1 .load (addrs a n) s
  return (ls.flatMap fun l => s1.read l 1, s1)

/-- Writes bytes of global space for the running thread. -/
def State.putBytes (s : State) (a : Word) (bs : List Byte) : Except Stop State := do
  let (ls, s1) ← State.blocks 1 1 .store (addrs a bs.length) s
  return (ls.zip bs).foldl (fun s x => s.write x.1 [x.2]) s1

/-- A join record as its first 160 bytes say: outstanding children, children spawned, whether the parent is suspended,
reducer codes, results. -/
structure Join where
  out : Word32
  count : Word32
  flag : Byte
  reds : List Byte
  vals : List Word
  deriving DecidableEq, Repr

/-- The record in 160 bytes. -/
def Join.ofBytes (bs : List Byte) : Join :=
  { out := Machine.ofBytes 32 (bs.take 4), count := Machine.ofBytes 32 ((bs.drop 4).take 4), flag := bs.getD 8 0
    reds := (bs.drop 16).take 16
    vals := (List.range 16).map fun k => Machine.ofBytes 64 ((bs.drop (32 + 8 * k)).take 8) }

def State.getJoin (s : State) (jr : Word) : Except Stop (Join × State) := do
  let (bs, s1) ← s.getBytes jr 160
  return (Join.ofBytes bs, s1)

/-- A reducer of R242 above `none`. -/
def reduce (red : Byte) (d v : Word) : Word :=
  match red.toNat with
  | 1 => d + v
  | 2 => (fpReg (addV .f64 .ne false (fpVal .f64 d) (fpVal .f64 v))).1
  | 3 => if d.slt v then v else d
  | 4 => if v.slt d then v else d
  | _ => d ||| v

/-- The children counted since the last `sync`: reducer and result of each, in spawn order. -/
def Join.children (j : Join) : List (Byte × Word) := (j.reds.zip j.vals).take j.count.toNat

/-- Every reducer byte of a counted child is a code of R242. -/
def Join.ok (j : Join) : Bool := j.children.all fun c => c.1.toNat ≤ 5

/-- The fold of R245. -/
def Join.fold (j : Join) : Word :=
  match j.children.filter fun c => c.1 != 0 with
  | [] => 0
  | c :: cs => cs.foldl (fun d x => reduce x.1 d x.2) c.2

/-- The link of a child (R243): its parent's join record, its index, the mark. -/
def linkBytes (jr : Word) (k : Nat) : List Byte := toBytes 8 jr ++ toBytes 8 (BitVec.ofNat 64 (0xC0DE * 2 ^ 48 + k))

/-! ## The spawn deque (R40) -/

/-- The line of a continuation record. -/
def State.lineOf (s : State) (r : Cont) : List Byte :=
  match r.place with
  | some pa => s.physRead pa 192
  | none => r.line

/-- Where the lines of a core's spilled records may lie: one place after another in 64 KiB for each core of the partition, the
cores in order, from the base in `spill` on (R40, R283; the layout is the model's, DESIGN CHOICE, log entry 13). -/
def Part.spillPlaces (p : Part) (core : Nat) : List Nat :=
  (List.range 341).map fun i => p.spill.toNat + 65536 * p.cores.idxOf core + 192 * i

/-- The places that lines of other records fill. -/
def State.spillTaken (s : State) : List Nat :=
  (s.cores.flatMap fun k => k.2.tm.conts.filterMap Cont.place) ++
    s.teams.flatMap fun t => t.2.image.conts.filterMap Cont.place

/-- A record spills: its line goes to the first free place, in memory that the partition owns; else it stays in the core. -/
def State.spillRecord (s : State) (part core : Nat) (taken : List Nat) (r : Cont) : Cont × State :=
  let p := s.part part
  match r.place, (p.spillPlaces core).find? fun a =>
      !taken.contains a && inDram a && p.ownsRange (a / 65536) ((a + 191) / 65536 - a / 65536 + 1) with
  | none, some pa => ({ r with line := [], place := some pa }, s.physWrite pa r.line)
  | _, _ => (r, s)

/-- The deque of a core holds the newest 64 records, whose lines come back from the spill area where they lay there; the older
ones spill (R40). -/
def State.setDeque (s : State) (part core : Nat) (cs : List Cont) : State :=
  let near := (cs.take 64).map fun r => { r with line := s.lineOf r, place := none }
  let far := (cs.drop 64).foldl (fun (x : List Cont × State) r =>
    let y := x.2.spillRecord part core (s.spillTaken ++ x.1.filterMap Cont.place) r
    (x.1 ++ [y.1], y.2)) ([], s)
  far.2.modTm core fun m => { m with deque := near, spilled := far.1 }

/-! ## `spawn` (R243, R247) -/

/-- The record of a new child: one more outstanding, one more spawned, its reducer. -/
def State.addChild (s : State) (jr : Word) (j : Join) (red : BitVec 5) : Except Stop State := do
  let s1 ← s.putBytes jr (toBytes 4 (j.out + 1) ++ toBytes 4 (j.count + 1))
  s1.putBytes (jr + 16 + zext j.count) [red.setWidth 8]

/-- `spawn` of a free launch: the parent's continuation goes to the deque, and the child runs on the thread. The parent's segments go
with its continuation (DESIGN CHOICE, log entry 76). -/
def spawnFree (jr : Word) (j : Join) (red a b : BitVec 5) (entry arg : Word) (s : State) : Except Stop State := do
  let c := s.me
  let fp := c.gpr 14 - 16
  let s1 ← s.addChild jr j red
  let s2 ← s1.putBytes fp (linkBytes jr j.count.toNat)
  let s3 := s2.consume s.cur [a, b]
  let parent := s3.me.advance
  let cont : Cont := { owner := c.ident, record := jr, child := j.count.toNat, line := parent.line, place := none, tasid := c.tasid
                       path := c.path, segs := c.segments, stolen := c.stolenSeg, fencedAt := c.fencedAt }
  let s4 := s3.setDeque c.part (coreOf s.cur) (cont :: (s3.core (coreOf s.cur)).tm.conts)
  return s4.modMe fun c =>
    { ((((c.setG 1 arg).setG 13 fp).setG 14 fp).setG 15 0) with pc := bits entry 0 57, segments := [], stolenSeg := none }

/-- Group 0 of a launch, if the launch wrote it and it names teams (R247). -/
def State.groupZero (s : State) (part launch : Nat) : List Nat :=
  let p := s.part part
  let g := s.group p.sliceFirst
  if 0 < p.sliceCount && g.valid && g.part == part && g.launch == launch then g.members else []

/-- Work queues with a team, and its core claims a context for it. -/
def State.queueWork (s : State) (launch team : Nat) (w : DetWork) : State :=
  let s := s.modTeam launch team fun x => { x with queue := x.queue ++ [w] }
  match (s.teamOf launch team).state with
  | .resident core => s.post (.contextClaim core)
  | _ => s

/-- `spawn` of a deterministic launch: the child goes to the member that its path's hash names. -/
def spawnDet (jr : Word) (j : Join) (red a b : BitVec 5) (entry arg : Word) (s : State) : Except Stop State := do
  let c := s.me
  let p := s.part c.part
  let path := c.path * 16 + j.count.toNat
  let members := s.groupZero c.part c.ident.launch
  need (path < 2 ^ 60) .task
  need (!members.isEmpty) .task
  need (p.poolCount != 0) .task
  match p.freeSegment with
  | none => .error (.park .noSegment)
  | some k =>
    let top := p.segTop k - 16
    let (l, s1) ← s.block top 8 16 .store
    let s2 := s1.write l (linkBytes jr j.count.toNat)
    let s3 ← s2.addChild jr j red
    let s4 := finishNo (s3.modPart c.part fun p => { p with segments := k :: p.segments }) [a, b]
    let team := members.getD ((mix 0 (BitVec.ofNat 64 path)).toNat % members.length) 0
    let t : SpawnTask := { entry := bits entry 0 57, arg := arg, top := top, segment := k, path := path, tasid := c.tasid }
    return s4.queueWork c.ident.launch team (.task t)

def execSpawn (red a b : BitVec 5) (s : State) : Out :=
  issue false (red.toNat ≤ 5) 0 ([.src 1 a, .src 2 b, .gsrc 6 13] ++ if stDet s.me.status then [] else [.gsrc 6 14]) (fun s => do
    let entry ← rd s a
    let arg ← rd s b
    let jr := s.me.gpr 13 - 192
    need (jr.toNat % 64 == 0) .align 1 jr
    let (j, s1) ← (s.performAll s.cur).getJoin jr
    need (j.count.toNat < 16) .task
    checkTarget entry
    if stDet s.me.status then spawnDet jr j red a b entry arg s1 else spawnFree jr j red a b entry arg s1) s

/-! ## `sync` (R245) -/

/-- The thread's context frees, and its parent frame waits for its last child. Of segments that thefts brought with the continuation the
newest returns to its pool, an older one stays with the frame; tokens of the thread keep it as owner (DESIGN CHOICE, log entry 76). -/
def State.suspend (s : State) (jr : Word) (d : BitVec 5) : State :=
  let c := s.me
  let p : Suspended := { record := jr, asid := c.tasid, ident := c.ident, d := d, segments := c.segments, path := c.path
                         fencedAt := c.fencedAt }
  let s := { s with suspended := s.suspended ++ [p] }.returnSegments c.part c.stolenSeg.toList
  let s := if c.lent then s else (s.unbindOut s.cur).unbindIn s.cur
  ((s.releaseTiles s.cur).dropLanes s.cur).vacate s.cur

def execSync (d : BitVec 5) (s : State) : Out :=
  issue false true 0 [.dst 0 d, .gsrc 6 13] (fun s => do
    let jr := s.me.gpr 13 - 192
    let (j, s1) ← (s.performAll s.cur).getJoin jr
    if j.out = 0 then
      need j.ok .task
      let s2 ← s1.putBytes (jr + 4) (toBytes 4 (0 : Word32))
      return finish s2 [] d j.fold
    else
      let s2 ← s1.putBytes (jr + 8) [j.flag ||| 1]
      let s3 ← s2.putBytes (jr - 192) s.me.line
      return s3.suspend jr d) s

/-! ## `sret` (R244) -/

/-- The parent that a thread's `sret` finds suspended at a join record. -/
def State.findSuspended (s : State) (c : Ctx) (jr : Word) : Option Suspended :=
  s.suspended.find? fun p => p.record == jr && p.asid == c.tasid && p.ident.launch == c.ident.launch

/-- The fold is applied as the parent resumes. Where the `sync` names a register whose write may park or trap (an o register or
`cout`), or a reducer byte is bad, the parent resumes at its `sync` instead, which then does it (R22, R26, R245; DEDUCED, log
entry 35). -/
def Join.applies (j : Join) (d : BitVec 5) : Bool := j.ok && d.toNat < 16

/-- The parent is suspended no longer, and its record says so; the spawned count is cleared where the fold is applied. -/
def State.leaveSync (s : State) (jr : Word) (j : Join) (p : Suspended) : Except Stop State := do
  let s1 ← s.putBytes (jr + 8) [j.flag &&& 0xFE]
  let s2 ← if j.applies p.d then s1.putBytes (jr + 4) (toBytes 4 (0 : Word32)) else .ok s1
  return { s2 with suspended := s2.suspended.erase p }

/-- The last child resumes the suspended parent: on its own thread in a free launch, on a context of the parent's core in a
deterministic one. The parent's team gives up its core if that frame was the last of it (R363). -/
def resumeParent (jr : Word) (p : Suspended) (s : State) : Except Stop State := do
  let (j, s1) ← s.getJoin jr
  let (line, s2) ← s1.getBytes (jr - 192) 192
  let s3 ← s2.leaveSync jr j p
  let frame := fun (c : Ctx) (slot : Nat) =>
    { c.ofLine slot line with
      segments := p.segments, stolenSeg := none, path := p.path, fencedAt := min c.fencedAt p.fencedAt }
  if stDet s.me.status then
    let c := { frame Ctx.blank 1 with live := true, tasid := p.asid, fencedAt := p.fencedAt }
    return (s3.queueWork p.ident.launch p.ident.team (.resume c p.d (if j.applies p.d then some j.fold else none))).endThread
      s.cur 0
  else
    let s4 := (s3.dropLanes s.cur).modMe fun c => frame c (slotOf s.cur)
    return (if j.applies p.d then finish s4 [] p.d j.fold else s4).giveUpTeam p.ident.launch p.ident.team

/-- The parent's continuation is popped, and the thread goes on with it (step 2 of R244). The deque is that of the core that the thread
is on now (R40; DESIGN CHOICE, log entry 86). The record may be the last thing that the core holds for its team (R363). -/
def State.popParent (s : State) (r : Cont) : State :=
  ((s.setDeque s.me.part (coreOf s.cur) ((s.core (coreOf s.cur)).tm.conts.erase r)).modMe fun c =>
    { c.ofLine (slotOf s.cur) (s.lineOf r) with path := r.path, segments := r.segs, stolenSeg := r.stolen }).giveUp (coreOf s.cur)

def execSret (a : BitVec 5) (s : State) : Out :=
  issue false true 0 [.src 1 a, .gsrc 6 13] (fun s => do
    let v ← rd s a
    let c := s.me
    let (lk, s1) ← (s.performAll s.cur).getBytes (c.gpr 13) 16
    let jr : Word := ofBytes 64 (lk.take 8)
    let w : Word := ofBytes 64 (lk.drop 8)
    need (bits w 48 16 == (0xC0DE : BitVec 16)) .task
    let k := (bits w 0 4 : BitVec 4).toNat
    let (j, s2) ← s1.getJoin jr
    let s3 ← s2.putBytes (jr + 32 + BitVec.ofNat 64 (8 * k)) (toBytes 8 v)
    let s4 ← s3.putBytes jr (toBytes 4 (j.out - 1))
    let s5 := ((s4.consume s.cur [a]).returnSegments c.part (c.segments ++ c.stolenSeg.toList)).modMe fun c =>
      { c with segments := [], stolenSeg := none }
    let newest := (s5.core (coreOf s.cur)).tm.conts.find? fun r => r.owner == c.ident
    match newest.filter (fun r => r.record == jr && r.child == k),
        (if j.out - 1 = 0 ∧ j.flag.getLsbD 0 then s5.findSuspended c jr else none) with
    | some r, _ => return s5.popParent r
    | none, some p => resumeParent jr p s5
    | none, none => return s5.endThread s.cur 0) s

/-! ## Claiming contexts (R366) -/

/-- Work of a deterministic team takes a context. -/
def State.startWork (s : State) (thr : Nat) (launch team : Nat) (w : DetWork) : State :=
  let l := s.launch launch
  let id : Ident := ⟨launch, team, slotOf thr⟩
  let at' := (s.core (coreOf thr)).cycle + 2
  match w with
  | .task t =>
    let c := Ctx.start id l.det l.prio l.part (slotOf thr) false t.entry t.arg t.tasid at'
    s.setCtx thr { ((c.setG 13 t.top).setG 14 t.top) with segments := [t.segment], path := t.path, wait := .ready }
  | .resume c d v =>
    let s := s.setCtx thr { c with
      ident := id, status := setSlot c.status (slotOf thr) (slotOf thr == 0), resumeAt := at' }
    match v with
    | some x => (s.destLate thr d x).advance thr
    | none => s

/-- The next claim of a free context of a core, in the order of R366. -/
def State.claimOne (s : State) (core : Nat) : Option State :=
  let k := s.core core
  match s.freeContext core, k.preempting || k.restoring with
  | some thr, false =>
    match s.firedEntry core, k.team, k.arrivals with
    | some (i, e), some (l, t), _ => some (s.startFired thr i e ⟨l, t, slotOf thr⟩ false)
    | _, _, m :: rest => some ((s.modCore core fun k => { k with arrivals := rest }).settleMigrant thr m)
    | _, some (l, t), [] =>
      match (s.teamOf l t).queue with
      | [] => none
      | w :: ws => some ((s.modTeam l t fun x => { x with queue := ws }).startWork thr l t w)
    | _, none, [] => none
  | _, _ => none

/-- Claims as long as there is something to claim for: a core has sixteen contexts. -/
def State.claims (s : State) (core : Nat) : Nat → State
  | 0 => s
  | n + 1 => match s.claimOne core with
    | some s' => s'.claims core n
    | none => s

/-- The partitions of a core look for a team to place on it, where it holds nothing (R363). -/
def State.offerCore (s : State) (core : Nat) : State :=
  if (s.core core).team.isSome then s
  else postAll ((s.parts.filter fun p => p.2.hasCore core).map fun p => .placement p.1) s

def execContextClaim (core : Nat) (s : State) : Out := .next ((s.claims core 16).offerCore core)

/-- An arrival takes a context if one is free and nothing goes before it; else it waits (R240). -/
def execMigrationArrival (core : Nat) (s : State) : Out := .next (s.claims core 16)

/-! ## The steal agent (R246) -/

/-- The cores that a thief asks, in order: itself, then those after it, wrapping, of its die, that hold teams of the
launch. -/
def State.victims (s : State) (core launch : Nat) : List Nat :=
  ((List.range 160).map fun i => 160 * dieOfCore core + (core % 160 + i) % 160).filter fun k =>
    (s.core k).team.any fun t => t.1 == launch

/-- The far-end record of the first deque that has one starts in context thr, as a thread of the thief's team with the number of its slot
(DESIGN CHOICE, log entry 76). -/
def State.steal (s : State) (thr launch team : Nat) : Option State :=
  match (s.victims (coreOf thr) launch).findSome? fun k => (s.core k).tm.conts.getLast?.map fun r => (k, r) with
  | none => none
  | some (k, r) =>
    let c := { Ctx.blank.ofLine (slotOf thr) (s.lineOf r) with
      live := true, ident := ⟨launch, team, slotOf thr⟩, tasid := r.tasid, path := r.path, fencedAt := r.fencedAt
      segments := r.segs ++ r.stolen.toList, wait := .segment true, resumeAt := (s.core (coreOf thr)).cycle + 2 }
    let s := s.setDeque (s.launch launch).part k (s.core k).tm.conts.dropLast
    some (((s.setCtx thr c).giveSegment thr).giveUp k)

/-- Steals for each free context while no entry is fired and no arrival waits (R366). -/
def State.steals (s : State) (core launch team : Nat) : Nat → State
  | 0 => s
  | n + 1 =>
    match s.freeContext core with
    | none => s
    | some thr =>
      if (s.firedEntry core).isSome || !(s.core core).arrivals.isEmpty then s
      else match s.steal thr launch team with
        | some s' => s'.steals core launch team n
        | none => s

def execStealAgent (core : Nat) (s : State) : Out :=
  match (s.core core).team with
  | none => .next s
  | some (l, t) =>
    if (s.launch l).det || (s.core core).preempting || (s.core core).restoring || (s.part (s.launch l).part).poolCount = 0 then .next s
    else .next (s.steals core l t 16)

end Sys2Proof.Machine
end

