-- ==== Sys2Proof/Machine/Swap.lean ====
section
/-! DEFINITION. Pre-emption and team swap (R206, R293-R295), and the kill of a team (R290, R227). -/

namespace Sys2Proof.Machine

/-! ## The halt (R293) -/

/-- The pre-emption of the team on a core starts. -/
def State.preemptCore (s : State) (core : Nat) : State :=
  if (s.core core).team.isNone then s else s.modCore core fun k => { k with preempting := true }

/-- The thread is at an instruction boundary: it waits for no reply. -/
def Wait.boundary : Wait → Bool
  | .load _ _ _ _ _ _ _ _ _ _ _ => false
  | .storeSc _ _ => false
  | .atomic _ _ _ _ _ _ _ _ _ _ _ _ => false
  | .answered _ _ _ _ _ => false
  | .finish _ => false
  | .vector _ _ _ _ => false
  | .halting => false
  | .vault _ _ _ => false
  | .ready => true
  | .cond _ => true
  | .await _ _ _ _ => true
  | .claim _ _ => true
  | .dict _ _ _ _ => true
  | .barrier _ _ _ => true
  | .attached _ _ => true
  | .segment _ => true

/-- The core of a thread's team is under pre-emption. -/
def State.preempted (s : State) (thr : Nat) : Bool :=
  let c := s.ctx thr
  match (s.teamOf c.ident.launch c.ident.team).state with
  | .resident core => (s.core core).preempting
  | _ => false

def execPreemptionHalt (thr : Nat) (s : State) : Out :=
  let c := s.ctx thr
  if c.live && s.preempted thr && c.wait.boundary then .next (s.modCtx thr fun c => { c with halted := true })
  else .next s

/-! ## Swap-out (R294) -/

/-- The team's live threads, wherever they run. -/
def State.teamThreads (s : State) (l t : Nat) : List Nat := (s.threads.filter fun x => x.2.ofTeam l t).map Prod.fst

/-- The place of a context in the image: its own slot number, else the lowest that is free. -/
def imageKey (used : Tbl Ctx) (own : Nat) : Nat :=
  let free := fun k => !(Tbl.get Ctx.blank used k).live
  if free own then own else ((List.range (used.length + 1)).find? free).getD own

/-- What a thread that was parked at a boundary waits for when it goes on: its instruction re-issues from step 1, and checks again
what it was parked on (R293); a thread in `bar`, in an attached operation or without a segment waits on. -/
def Wait.again : Wait → Wait
  | .cond _ => .ready
  | .await _ _ _ _ => .ready
  | .claim _ _ => .ready
  | .dict _ _ _ _ => .ready
  | w => w

/-- A context as the image keeps it: without lanes. -/
def Ctx.saved (c : Ctx) : Ctx := { c with grant := 0, claimParked := false, halted := false, wait := c.wait.again }

/-- The slots of a saved thread become owed, or do so when their engine returns them (R206). `thr` names it in the image: where
the slot was bound under another name, the image holds no record for it. -/
def State.oweSlots (s : State) (course : Nat) (c : Ctx) (thr : Nat) : State :=
  (List.range 32).foldl (fun s i =>
    match vget none c.t i with
    | none => s
    | some k =>
      let h := BitVec.ofNat 5 i
      let who : Ident := ⟨c.ident.launch, c.ident.team, thr⟩
      let t := s.slot course k.toNat
      let s := if t.holder = who ∧ t.handle = h then s
        else s.modTeam c.ident.launch c.ident.team fun m => { m with slots := dropRecord thr h m.slots }
      s.modSlot course k.toNat fun t =>
        { t with ow := t.uses == 0, onReturn := if t.uses = 0 then 0 else 2, holder := who, handle := h }) s

/-- The owner of a thread's tokens names its place in the image. -/
def State.setTokensAside (s : State) (thr core key : Nat) : State :=
  s.mapTokens fun t =>
    if t.state ≠ .free ∧ t.owner = BitVec.ofNat 15 thr then
      { t with away := true, owner := BitVec.ofNat 15 (16 * core + (if key < 16 then key else 0)) } else t

/-- The name in an image, in slot records, of a thread whose slot is lent: that of the lent task, further on. -/
def loanName (key : Nat) : Nat := key + 65536

/-- A halted thread goes into the image of its team, with the thread whose slot it was lent. -/
def State.saveThread (s : State) (l t core thr : Nat) : State :=
  let s := (s.performAll thr).unwatch thr
  let c := s.ctx thr
  let key := imageKey (s.teamOf l t).ctxs c.ident.thr
  let loan := Tbl.get Ctx.blank (s.core (coreOf thr)).tm.loans (slotOf thr)
  let s := (s.setTokensAside thr core key).oweSlots (courseOf thr) c key
  let s := if loan.live then s.oweSlots (courseOf thr) loan (loanName key) else s
  let s := s.modTeam l t fun x =>
    { x with
      ctxs := Tbl.set Ctx.blank x.ctxs key c.saved
      image := { x.image with loans := Tbl.set Ctx.blank x.image.loans key loan.saved } }
  let s := s.modTm (coreOf thr) fun m => { m with loans := Tbl.set Ctx.blank m.loans (slotOf thr) Ctx.blank }
  (s.freeCtx thr).post (.claimGrant (courseOf thr))

/-- The team's migration messages that no context has taken go into its image. -/
def State.saveArrivals (s : State) (l t : Nat) : State :=
  let mine := s.cores.flatMap fun k => k.2.arrivals.filter fun a => a.ctx.ofTeam l t
  let s := { s with cores := s.cores.map fun k => (k.1, { k.2 with
    arrivals := k.2.arrivals.filter fun a => !a.ctx.ofTeam l t }) }
  mine.foldl (fun s a => s.modTeam l t fun x =>
    let key := imageKey x.ctxs a.ctx.ident.thr
    { x with
      ctxs := Tbl.set Ctx.blank x.ctxs key a.ctx.saved
      image := { x.image with loans := Tbl.set Ctx.blank x.image.loans key a.loan.saved } }) s

/-- A team's token that no engine runs yet waits until swap-in, without a permit and without an engine (step 2). -/
def State.withdrawToken (s : State) (h : BitVec 32) : State :=
  let t := s.token h
  let s := s.modToken h fun t => { t with away := true }
  if t.state ≠ .permit then s
  else
    let es := t.op.engines (hCourse h)
    let s := es.foldl (fun s e => s.leaveEngine h e) (s.unqueuePermit h)
    postAll (es.map .tokenSelect) (s.modToken h fun t => { t with state := .queued })

/-- The tokens whose owners are threads of the team. -/
def State.teamTokens (s : State) (l t : Nat) : List (BitVec 32 × Token) :=
  s.allTokens.filter fun x => x.2.own.launch == l && x.2.own.team == t && x.2.owner != ownerLaunch

def TokOp.isCopy : TokOp → Bool
  | .copy _ => true
  | _ => false

def TokOp.isMma : TokOp → Bool
  | .mma _ _ _ _ _ => true
  | _ => false

/-- A running copy is to stop at its next boundary, and then waits until swap-in (step 4). -/
def State.setAside (s : State) (h : BitVec 32) : State :=
  s.modToken h fun u => if u.stop = 0 then { u with stop := 2, away := true } else u

/-- Everything on the core that is the team's goes into the image; the scratchpad keeps its bytes too. What threads of other teams
have under way there, and the contexts that they lend, stay. -/
def State.saveCore (s : State) (l t core : Nat) : State :=
  let k := s.core core
  let m := k.wb.foldl TeamMem.land k.tm
  let s := s.modTeam l t fun x =>
    { x with
      state := .out, order := s.nextOrder, core := core
      image := { m with loans := x.image.loans } }
  let s := { s with nextOrder := s.nextOrder + 1 }.modCore core fun k =>
    { k with
      wb := [], team := none, preempting := false, teamClaim := false, quantum := 0
      tm := { TeamMem.zero with spad := m.spad, win := m.win, winFull := m.winFull, loans := m.loans } }
  s

/-- The whole team is in the image (step 6). -/
def State.saveTeam (s : State) (l t core : Nat) : State :=
  let s := s.modTeam l t fun x => { x with ctxs := [], image := TeamMem.zero }
  let s := ((s.teamThreads l t).foldl (fun s x => s.saveThread l t core x) s).saveArrivals l t
  let s := (s.teamTokens l t).foldl (fun s x => s.modToken x.1 fun u => { u with away := true }) s
  (((s.saveCore l t core).post (.mailDelivery core)).post (.contextClaim core)).post (.placement (s.launch l).part)

/-- R294 in its order: the posted writes, the tokens that wait; then running matrix tokens end and running copies stop before
the image is saved. -/
def execSwapOut (core : Nat) (s : State) : Out :=
  match (s.core core).team with
  | none => .next s
  | some (l, t) =>
    let threads := s.teamThreads l t
    if !(s.core core).preempting || (s.core core).restoring || threads.any fun x => !(s.ctx x).halted then .next s
    else
      let toks := fun (st : TokState → Bool) (op : TokOp → Bool) =>
        ((s.teamTokens l t).filter fun x => st x.2.state && op x.2.op).map Prod.fst
      let s := threads.foldl State.performAll s
      let s := (toks (fun x => x == .queued || x == .permit) fun _ => true).foldl State.withdrawToken s
      let copies := toks (· == .running) TokOp.isCopy
      let s := copies.foldl State.setAside s
      if (copies ++ toks (· == .running) TokOp.isMma).isEmpty then .next (s.saveTeam l t core) else .next s

/-! ## Swap-in (R295) -/

/-- A slot that is, or will be, owed to a thread of an image for a handle: its course and number. -/
def State.owedSlot (s : State) (holder : Ident) (h : BitVec 5) : Option (Nat × Nat) :=
  s.courses.findSome? fun c =>
    (c.2.slots.find? fun t => (t.2.ow || t.2.onReturn == 2) && t.2.holder == holder && t.2.handle == h).map fun t =>
      (c.1, t.1)

/-- A handle is bound again on a course: to the slot still owed there, or to one restored from the record. -/
def State.rebind (s : State) (course : Nat) (holder : Ident) (h : BitVec 5) : Option (BitVec 7 × State) :=
  let restore := fun (s : State) =>
    match s.pickSlot course, (s.teamOf holder.launch holder.team).slots.find? fun r => r.isFor holder.thr h with
    | some k, some r =>
      let s := s.takeSlot course k holder h
      some (BitVec.ofNat 7 k, s.modSlot course k fun t =>
        { t with shape := r.slot.shape, payload := r.slot.payload, side := r.slot.side, dy := false })
    | _, _ => none
  match s.owedSlot holder h with
  | none => restore s
  | some (c, k) =>
    if c = course then some (BitVec.ofNat 7 k, s.modSlot c k fun t => { t with ow := false, onReturn := 0 })
    else if (s.slot c k).ow then restore (s.saveSlot c k)
    else none

/-- All handles of a context of an image, bound again; `thr` names it in the image. -/
def State.rebindAll (s : State) (course : Nat) (c : Ctx) (thr : Nat) : Option (Ctx × State) :=
  (List.range 32).foldl (fun o i =>
    match o with
    | none => none
    | some (c, s) => match vget none c.t i with
      | none => some (c, s)
      | some _ => (s.rebind course ⟨c.ident.launch, c.ident.team, thr⟩ (BitVec.ofNat 5 i)).map fun r =>
          ({ c with t := vset c.t i (some r.1) }, r.2)) (some (c, s))

/-- The contexts of an image, or of its lent slots, with their handles bound again; `name` is what slot records call them. -/
def State.rebindImage (s : State) (course : Nat) (name : Nat → Nat) (cs : Tbl Ctx) : Option (Tbl Ctx × State) :=
  cs.foldl (fun o x =>
    match o with
    | none => none
    | some (t, s) => (s.rebindAll course x.2 (name x.1)).map fun r => (t ++ [(x.1, r.1)], r.2)) (some ([], s))

/-- The team's lanes (R172): a deterministic team claims them together, the threads of a free one take what is free, in
ascending order, those that have yet to get a slot last. -/
def State.regainLanes (s : State) (core : Nat) (det : Bool) : State :=
  if det then
    (if s.teamWant core = 0 then s
     else (s.modCore core fun k => { k with teamClaim := true }).post (.claimGrant (courseOfCore core)))
  else
    let s1 := (slotsOf core).foldl (fun s t =>
      let s := s.modCtx t fun c => { c with grant := min c.want (s.openLanes (courseOf t)) }
      s.modTm core fun m =>
        let c := Tbl.get Ctx.blank m.loans (slotOf t)
        let g := min c.want (s.openLanes (courseOf t))
        { m with loans := Tbl.set Ctx.blank m.loans (slotOf t) { c with grant := g } }) s
    (List.range (s1.core core).arrivals.length).foldl (fun s i => s.modCore core fun k =>
      { k with arrivals := k.arrivals.modify i fun m =>
        { m with ctx := { m.ctx with grant := max m.ctx.grant (min m.ctx.want (s.openLanes (courseOfCore core))) } } }) s1

/-- The team's tokens follow it: eligible again, and its copies use its new scratchpad. -/
def State.bringTokens (s : State) (l t old core : Nat) : State :=
  let mine := fun (k : Token) => k.own.launch == l && k.own.team == t && k.away
  let es := (s.allTokens.filter fun x => mine x.2).flatMap fun x => x.2.op.engines (hCourse x.1)
  postAll (es.map .tokenSelect) (s.mapTokens fun k =>
    if mine k then
      { k with
        away := false, owner := BitVec.ofNat 15 (16 * core + k.owner.toNat % 16)
        op := match k.op with
          | .copy j => .copy { j with core := if j.core = old then core else j.core }
          | o => o }
    else k)

/-- The same for all the contexts of a core. -/
def State.wakeAttached (s : State) (core : Nat) : State := (slotsOf core).foldl State.wakeOne s

/-- A team whose handles cannot be rebound on another course while its own queued `mma` use the slots: those tokens become
eligible first (R206, R437; DEDUCED, log entry 67). -/
def State.freeSlots (s : State) (l t course : Nat) : State :=
  let stuck := ((s.teamTokens l t).filter fun x => x.2.op.isMma && x.2.away && hCourse x.1 != course).map Prod.fst
  postAll (stuck.map fun h => .tokenSelect (.matrix (hCourse h)))
    (stuck.foldl (fun s h => s.modToken h fun u => { u with away := false }) s)

def execSwapIn (core : Nat) (s : State) : Out :=
  match (s.core core).team, (s.core core).restoring with
  | some (l, t), true =>
    let x := s.teamOf l t
    let cy := (s.core core).cycle
    match s.rebindImage (courseOfCore core) id x.ctxs with
    | none => .next (s.freeSlots l t (courseOfCore core))
    | some (cs, s1) => match s1.rebindImage (courseOfCore core) loanName x.image.loans with
      | none => .next (s.freeSlots l t (courseOfCore core))
      | some (loans, s2) =>
        let s3 := s2.modCore core fun k =>
          { k with
            restoring := false
            arrivals := k.arrivals ++
              ((cs.filter fun c => 16 ≤ c.1).map fun c => ⟨c.2, Tbl.get Ctx.blank loans c.1⟩)
            tm := { x.image with loans := (loans.filter fun c => c.1 < 16).map fun c => (c.1, c.2.restored c.1 cy) } }
        let s4 := (cs.filter fun c => c.1 < 16).foldl (fun s c => s.setCtx (16 * core + c.1) (c.2.restored c.1 cy)) s3
        let s5 := (s4.modTeam l t fun x => { x with ctxs := [], image := TeamMem.zero }).regainLanes core (s.launch l).det
        let s6 := (slotsOf core).foldl State.rebar ((s5.bringTokens l t x.core core).wakeAttached core)
        let s7 := (slotsOf core).foldl State.giveSegment
          (x.image.wt.foldl (fun s e => s.checkTasks core (16 * e.2.word.toNat)) s6)
        .next (((s7.post (.pendingDelivery core)).post (.mailDelivery core)).post (.contextClaim core))
  | _, _ => .next s

/-! ## The kill of a team (R290) -/

/-- A killed thread that holds no context leaves an abort mark downstream (R26). -/
def State.abortOut (s : State) (c : Ctx) : State :=
  match c.outKey with
  | none => s
  | some k => if c.lent then s
    else (s.modChan k fun ch => { ch with inFlight := ch.inFlight ++ [.mark .abortMark], writer := none }).post
      (.channelPush k)

def DetWork.segments : DetWork → List Nat
  | .task t => [t.segment]
  | .resume c _ _ => c.segments

/-- The suspended frames and the migration messages of a team are gone. -/
def State.dropMoving (s : State) (l t : Nat) : State :=
  { s with
    suspended := s.suspended.filter fun p => !(p.ident.launch == l && p.ident.team == t)
    cores := s.cores.map fun (k : Nat × Core) =>
      (k.1, { k.2 with arrivals := k.2.arrivals.filter fun a => !a.ctx.ofTeam l t }) }

/-- Slots owed to a killed team free, at once or when their engine returns them. -/
def State.freeOwed (s : State) (l t : Nat) : State :=
  { s with courses := s.courses.map fun c => (c.1, { c.2 with
      slots := c.2.slots.map fun x =>
        if x.2.holder.launch = l ∧ x.2.holder.team = t ∧ x.2.ow then
          (x.1, { x.2 with ow := false, bd := false, dy := false })
        else if x.2.holder.launch = l ∧ x.2.holder.team = t ∧ x.2.onReturn = 2 then (x.1, { x.2 with onReturn := 1 })
        else x }) }

/-- Every thread of a team ends with record 2; its frames, messages, queued tasks and image go, its tokens end under R227,
and its core is free, but for a team of a deterministic launch, which holds it until the launch ends (R363). -/
def State.killTeam (s : State) (l t : Nat) : State :=
  let part := (s.launch l).part
  let s := (s.teamThreads l t).foldl State.killThread s
  let x := s.teamOf l t
  let core := match x.state with
    | .resident k => some k
    | _ => none
  let m := match core with
    | some k => (s.core k).tm
    | none => x.image
  let moving := s.cores.flatMap fun k => (k.2.arrivals.filter fun a => a.ctx.ofTeam l t).flatMap fun a => [a.ctx, a.loan]
  let off := (moving ++ x.ctxs.map Prod.snd ++ x.image.loans.map Prod.snd).filter Ctx.live
  let frames := s.suspended.filter fun p => p.ident.launch == l && p.ident.team == t
  let segs := off.flatMap (fun c => c.segments ++ c.stolenSeg.toList) ++ frames.flatMap Suspended.segments ++
    m.conts.flatMap (fun r => r.segs ++ r.stolen.toList) ++ x.queue.flatMap DetWork.segments
  let s := off.foldl (fun s c => (s.abortOut c).dropOwed c.ident) s
  let s := s.dropMoving l t
  -- a team of a deterministic launch keeps its core until the launch ends (R363)
  let keeps := core.isSome && (s.launch l).det
  let s := match core with
    | some k => s.modCore k fun c =>
        if c.team = some (l, t) then
          { c with team := if keeps then c.team else none, preempting := keeps && c.preempting, restoring := false
                   teamClaim := false, tm := { c.tm with wt := [], deque := [], spilled := [] } }
        else c
    | none => s
  let s := (((s.freeOwed l t).returnSegments part segs).modTeam l t fun _ =>
    { Team.zero with state := if keeps then x.state else .killed, placedOnce := x.placedOnce }).modLaunch l fun x =>
      { x with killed := true }
  ((s.killTokens l t).post (.placement part)).post (.launchEnd l)

end Sys2Proof.Machine
end

