-- ==== Sys2Proof/Machine/System.lean ====
section
/-! DEFINITION. System registers (R283, R343, R397-R399, R415), system and trap instructions (R284-R290), and the events of
R73, R91, R135 and R137. -/

namespace Sys2Proof.Machine

/-! ## The register map (R283, R343, R397, R415) -/

/-- The level that reads a system register; none for a number that no rule assigns. -/
def sysReadLevel (n : Nat) : Option Nat :=
  if n ≤ 8 ∨ (0x10 ≤ n ∧ n ≤ 0x13) ∨ n = 0x1F then some 0
  else if (0x100 ≤ n ∧ n ≤ 0x108) ∨ (0x110 ≤ n ∧ n ≤ 0x116) ∨ (0x120 ≤ n ∧ n ≤ 0x123) ∨ (0x130 ≤ n ∧ n < 0x180) then some 1
  else if (0x200 ≤ n ∧ n ≤ 0x203) ∨ (0x208 ≤ n ∧ n ≤ 0x218) ∨ n = 0x220 then some 2
  else none

/-- The level that writes a system register; none also for one that is never written. -/
def sysWriteLevel (n : Nat) : Option Nat :=
  if n ≤ 8 then some 0
  else if n = 0x1F ∨ (0x100 ≤ n ∧ n ≤ 0x108) ∨ (0x110 ≤ n ∧ n ≤ 0x116) ∨ n = 0x120 ∨ n = 0x121 then some 1
  else if (0x201 ≤ n ∧ n ≤ 0x203) ∨ (0x208 ≤ n ∧ n ≤ 0x218) ∨ n = 0x220 then some 2
  else none

/-- Field i of a record set: epc, status, cause, info, addr, bits, scratch. -/
def RecSet.get (x : RecSet) (i : Nat) : Word :=
  match i with
  | 0 => zext x.epc
  | 1 => zext x.status
  | 2 => x.cause
  | 3 => x.info
  | 4 => x.addr
  | 5 => x.bits
  | _ => x.scratch

/-- A write of field i, cut to its width (R278). R278 gives ustatus and sstatus 32 bits and no field map, so all 32 read back, those
that are reserved in `status` too (DESIGN CHOICE, log entry 44). -/
def RecSet.set (x : RecSet) (i : Nat) (v : Word) : RecSet :=
  match i with
  | 0 => { x with epc := Machine.bits v 0 57 }
  | 1 => { x with status := Machine.bits v 0 32 }
  | 2 => { x with cause := v &&& 0x1FFF }
  | 3 => { x with info := v }
  | 4 => { x with addr := v }
  | 5 => { x with bits := v &&& 0xFFFF_FFFF }
  | _ => { x with scratch := v }

/-- A handler address as uvec and svec keep it. -/
def handlerAddr (v : Word) : Word := canon (bits (v &&& ~~~1) 0 57)

/-- The peer field of a link end (R399): link ends are numbered as in `State.links`. -/
def State.linkPeer (s : State) (k : Nat) : Nat :=
  if k < 32 then moduleFar (k / 4) (k % 4)
  else if k < 48 then
    if s.parts.any fun p => p.2.pier.getLsbD 24 then (Config.pierPeer (k - 32)).toNat else 0xFF
  else 0xFF

/-- Counter i of a link end (R398, R399); an absent end reads 0. -/
def State.linkCounter (s : State) (k i : Nat) : Word :=
  let l := s.linkAt k
  if l.state = 0 then 0
  else match i with
    | 0 => l.txflits
    | 1 => l.rxflits
    | 2 => l.crcerr
    | 3 => l.naks
    | 4 => l.replayed
    | 5 => BitVec.ofNat 64 (l.width.toNat + l.state.toNat * 256 + l.repair.toNat * 65536 + s.linkPeer k % 256 * 2 ^ 24)
    | 6 => l.degrades
    | _ => l.retrains

/-- Registers 0x130-0x17F as a thread of a die in a partition reads them (R397). -/
def State.linkReg (s : State) (die : Nat) (p : Part) (n : Nat) : Word :=
  if n < 0x150 then s.linkCounter (4 * die + (n - 0x130) / 8) (n % 8)
  else if n < 0x160 then s.linkCounter (32 + 2 * die + (n - 0x150) / 8) (n % 8)
  else if n < 0x170 then s.linkCounter (48 + (n - 0x160) / 8) (n % 8)
  else if n = 0x170 then p.pier
  else 0

/-- The partition that psel selects (R415). -/
def State.selected (s : State) : Option Nat := if s.fw.psel.toNat < 160 then some s.fw.psel.toNat else none

/-- Registers 0x200-0x220 (R415). -/
def State.fwReg (s : State) (n : Nat) : Word :=
  if n = 0x200 then zext s.fw.fwver
  else if n = 0x201 then zext s.fw.budget
  else if n = 0x202 then zext s.fw.pfloor
  else if n = 0x203 then zext s.fw.pweight
  else if n < 0x210 then zext (s.die (n - 0x208)).pcount
  else if n = 0x210 then zext s.fw.psel
  else if n < 0x219 then
    match s.selected with
    | some k => zext (vget 0 (s.part k).shares (n - 0x211))
    | none => 0
  else zext s.fw.dbgctl

/-- What the running thread reads in a system register; reading epfq does more (`State.popEpfq`). -/
def State.sysVal (s : State) (n : Nat) : Word :=
  let c := s.me
  let p := s.myPart
  if n = 0 then c.uvec
  else if n = 1 then c.umask
  else if n ≤ 8 then c.u.get (n - 2)
  else if n = 0x10 then BitVec.ofNat 64 (s.core (coreOf s.cur)).cycle
  else if n = 0x11 then BitVec.ofNat 64 s.cur
  else if n = 0x12 then BitVec.ofNat 64 c.wd
  else if n = 0x13 then BitVec.ofNat 64 p.wdlimit
  else if n = 0x1F then zext c.statusView
  else if n = 0x100 then p.svec
  else if n = 0x101 then p.sdeleg
  else if n ≤ 0x108 then c.sv.get (n - 0x102)
  else if n = 0x110 then p.rtab
  else if n = 0x111 then zext c.tasid
  else if n = 0x112 then p.trange
  else if n = 0x113 then p.mspill
  else if n = 0x114 then p.spool
  else if n = 0x115 then p.merrlog
  else if n = 0x116 then p.cecount
  else if n = 0x120 then p.spill
  else if n = 0x121 then p.stkpool
  else if n = 0x123 then zext c.epfqh
  else if n < 0x180 then s.linkReg (dieOfCore (coreOf s.cur)) p n
  else s.fwReg n

/-! ## epfq (R283, R292) -/

/-- A read of epfq by a thread: the head is popped, and its handle latched in epfqh. -/
def State.popEpfq (s : State) (thr : Nat) : Word × State :=
  let k := (s.ctx thr).part
  match (s.part k).epfq with
  | [] => (0, s.modCtx thr fun c => { c with epfqh := 0 })
  | (a, h) :: rest =>
    (BitVec.ofNat 64 (a.toNat + 2 ^ 62 + (if (s.part k).epfqDropped then 2 ^ 63 else 0)),
      (s.modPart k fun p => { p with epfq := rest, epfqDropped := false }).modCtx thr fun c => { c with epfqh := h })

def execEpfqRead (thr : Nat) (s : State) : Out := .next (s.popEpfq thr).2

/-! ## `mfs` (R285) -/

/-- Registers that a deterministic launch may not read (R365). -/
def sysOrder (n : Nat) : Bool := n == 0x10 || n == 0x11 || n == 0x1F

/-- An access to a system register acts at its writeback, 8 cycles after issue (R24, R285). -/
def State.sysLater (s : State) (n : Nat) (act : BitVec 5 ⊕ Word) : State :=
  s.modCore (coreOf s.cur) fun k => { k with sysWb := k.sysWb ++ [⟨k.cycle + 8, s.cur, s.me.ident, n, act⟩] }

def execMfs (d : BitVec 5) (n : BitVec 10) (s : State) : Out :=
  let r := n.toNat
  issue false (sysReadLevel r).isSome ((sysReadLevel r).getD 0) [.dst 0 d] (fun s => do
    if sysOrder r then needFree s
    return (s.sysLater r (.inl d)).advance s.cur) s

/-! ## Firmware registers that do something when written (R415) -/

/-- Every die's pool count follows budget, pfloor and pweight; arbiters look again. -/
def State.recount (s : State) : State :=
  let n := min 255 ((s.fw.budget.toNat - s.fw.pfloor.toNat) / (8 * s.fw.pweight.toNat))
  let s := { s with dies := s.dies.map fun d => (d.1, { d.2 with pcount := BitVec.ofNat 8 n }) }
  postAll ((List.range 8).map .permitGrant) s

def State.writeBudget (s : State) (v : Word) : State :=
  State.recount { s with fw := { s.fw with budget := BitVec.ofNat 16 (max 1000 (min 3600 (v.toNat % 65536))) } }
def State.writePfloor (s : State) (v : Word) : State :=
  State.recount { s with fw := { s.fw with pfloor := bits v 0 16 } }
def State.writePweight (s : State) (v : Word) : State :=
  State.recount { s with fw := { s.fw with pweight := if bits v 0 8 = (0 : Byte) then 1 else bits v 0 8 } }

def execBudgetWrite (v : Word) (s : State) : Out := .next (s.writeBudget v)
def execPfloorWrite (v : Word) (s : State) : Out := .next (s.writePfloor v)
def execPweightWrite (v : Word) (s : State) : Out := .next (s.writePweight v)

/-- A write of a firmware register. -/
def State.fwWrite (s : State) (n : Nat) (v : Word) : State :=
  if n = 0x201 then s.writeBudget v
  else if n = 0x202 then s.writePfloor v
  else if n = 0x203 then s.writePweight v
  else if n < 0x210 then (s.modDie (n - 0x208) fun d => { d with pcount := bits v 0 8 }).post (.permitGrant (n - 0x208))
  else if n = 0x210 then { s with fw := { s.fw with psel := bits v 0 8 } }
  else if n < 0x219 then
    match s.selected with
    | some k => (s.modPart k fun p => { p with shares := vset p.shares (n - 0x211) (bits v 0 8) }).post
        (.permitGrant (n - 0x211))
    | none => s
  else { s with fw := { s.fw with dbgctl := bits v 0 32 &&& 1 } }

/-! ## `mts` (R283, R285, R343) -/

/-- The granules that a value of mspill or spool, or of stkpool, names are the partition's; else PERM. -/
def needOwned (p : Part) (first n : Nat) : Except Stop Unit := need (p.ownsRange first n) .perm

/-- The bits of a register of base and size. -/
def baseSize : Word := 0x00FF_FFFF_FFFF_0000

/-- status as a write at a level leaves it (R283). -/
def Ctx.writeStatus (c : Ctx) (v : Word) : Ctx :=
  let st := setPrio c.status (bits v 11 2)
  { c with status := if stPl c.status = 0 ∨ stPl c.status = 1 then st else setPart (setPl st (bits v 0 2)) (bits v 16 8) }

/-- A write of a system register by the running thread. -/
def sysWrite (n : Nat) (v : Word) (s : State) : Except Stop State :=
  let me := fun f => Except.ok (s.modMe f)
  let part := fun f => Except.ok (s.modPart s.me.part f)
  let frames := fun lo => (bits v 16 32 : Word32).toNat + lo
  if n = 0 then me fun c => { c with uvec := handlerAddr v }
  else if n = 1 then me fun c => { c with umask := v }
  else if n ≤ 8 then me fun c => { c with u := c.u.set (n - 2) v }
  else if n = 0x1F then me fun c => c.writeStatus v
  else if n = 0x100 then part fun p => { p with svec := handlerAddr v }
  else if n = 0x101 then part fun p => { p with sdeleg := v &&& sdelegAll }
  else if n ≤ 0x108 then me fun c => { c with sv := c.sv.set (n - 0x102) v }
  else if n = 0x110 then part fun p => { p with rtab := v &&& 0x0000_FFFF_FFFF_F000 }
  else if n = 0x111 then do
    need (s.myPart.hasAsid (bits v 0 12 : BitVec 12).toNat) .perm
    return s.modMe fun c => { c with tasid := bits v 0 12 }
  else if n = 0x112 then
    if (stPl s.me.status).toNat < 2 then .ok s else part fun p => { p with trange := v &&& 0x1FFF_0FFF }
  else if n = 0x113 then do
    needOwned s.myPart (frames 0) (bits v 48 8 : Byte).toNat
    return (s.modPart s.me.part fun p => { p with mspill := v &&& baseSize }).retryRefused
  else if n = 0x114 then do
    needOwned s.myPart (frames 0) (bits v 48 8 : Byte).toNat
    return s.modPart s.me.part fun p => { p with spool := v &&& baseSize }
  else if n = 0x115 then part fun p => { p with merrlog := v }
  else if n = 0x116 then part fun p => { p with cecount := v &&& 0xFFFF_FFFF }
  else if n = 0x120 then part fun p => { p with spill := v }
  else if n = 0x121 then do
    needOwned s.myPart (frames 0) (bits v 48 16 : BitVec 16).toNat
    let s1 := s.modPart s.me.part fun p => { p with stkpool := v &&& 0xFFFF_FFFF_FFFF_0000 }
    return (s1.threads.map Prod.fst).foldl State.giveSegment s1
  else .ok (s.fwWrite n v)

def execMts (rs : BitVec 5) (n : BitVec 10) (s : State) : Out :=
  let r := n.toNat
  issue false (sysWriteLevel r).isSome ((sysWriteLevel r).getD 0) [.gsrc 0 rs] (fun s => do
    let v ← rd s rs
    let _ ← sysWrite r v s
    return finishNo (s.sysLater r (.inr v)) [rs]) s

/-- The writeback of an access to a system register, for its thread if that is still there (R285). -/
def State.sysLand (s : State) (w : SysWb) : State :=
  if !((s.ctx w.thr).live && (s.ctx w.thr).ident == w.who) then s
  else
    let s1 := { s with cur := w.thr }
    let s2 := match w.act with
      | .inl d =>
        let x := if w.num = 0x122 then s1.popEpfq w.thr else (s1.sysVal w.num, s1)
        x.2.destLate w.thr d x.1
      | .inr v => match sysWrite w.num v s1 with
        | .ok s2 => s2
        | .error _ => s1
    { s2 with cur := s.cur }

/-! ## `eret`, `trap` (R286, R287) -/

/-- The record set that `eret` uses. -/
def Ctx.returnSet (c : Ctx) : RecSet := if stPl c.status = 0 then c.u else c.sv

def execEret (s : State) : Out :=
  issue false true 0 [] (fun s => do
    need (stIh s.me.status) .priv
    need (!s.me.returnSet.epc.getLsbD 0) .align 3 (canon s.me.returnSet.epc)
    return s.modMe Ctx.leave) s

def execTrap (n : BitVec 10) (s : State) : Out :=
  issue false true 0 [] (fun s =>
    .ok (s.trapEntry s.cur TrapClass.trap.code (zext n) 0 (s.me.pc + 4) false)) s

/-! ## `tlbinv`, `wdset` (R288, R289) -/

/-- A TLB entry that `tlbinv` of partition p drops. -/
def tlbNamed (p : Part) (kind asid granule : Nat) (e : Nat × Nat × Word) : Bool :=
  let page := e.2.1 ≤ granule && granule < e.2.1 + pageGranules (lfSize e.2.2)
  p.hasAsid e.1 && (match kind with
    | 0 => true
    | 1 => e.1 == asid
    | 2 => e.1 == asid && page
    | _ => page)

/-- Every TLB of the device drops the entries that f names, and every L2 slice the lines of their pages (R341). -/
def State.tlbDrop (s : State) (f : Nat × Nat × Word → Bool) : State :=
  { s.dropLines fun x => x.pages.any f with
    cores := s.cores.map fun k => (k.1, { k.2 with tlb := k.2.tlb.filter fun e => !f e })
    courses := s.courses.map fun k => (k.1, { k.2 with tlb := k.2.tlb.filter fun e => !f e })
    dies := s.dies.map fun k => (k.1, { k.2 with tlb := k.2.tlb.filter fun e => !f e }) }

def execTlbinv (a b : BitVec 5) (s : State) : Out :=
  issue false true 1 [.src 1 a, .src 2 b] (fun s => do
    let x ← rd s a
    let y ← rd s b
    need (y &&& ~~~0x3_0FFF == 0) .opnd (opndInfo 2 0)
    let kind := (bits y 16 2 : BitVec 2).toNat
    let asid := (bits y 0 12 : BitVec 12).toNat
    need (kind == 0 || kind == 3 || s.myPart.hasAsid asid) .perm
    let va := (bits x 0 57 : BitVec 57).toNat
    return finishNo (s.tlbDrop (tlbNamed s.myPart kind asid (va / 65536))) [a, b]) s

def execWdset (d a : BitVec 5) (s : State) : Out :=
  issue false true 1 [.dst 0 d, .src 1 a] (fun s => do
    let x ← rd s a
    need (1024 ≤ x.toNat && x.toNat < 2 ^ 40) .opnd (opndInfo 1 0)
    let old := s.myPart.wdlimit
    return finish (s.modPart s.me.part fun p => { p with wdlimit := x.toNat }) [a] d (BitVec.ofNat 64 old)) s

/-! ## `kill`, `preempt` (R290) -/

/-- The common part: the team of the partition on the core named, if any, is acted on after the instruction. -/
def onTeam (f : Nat → Nat → Nat → State → State) (a : BitVec 5) (s : State) : Out :=
  issue false true 1 [.src 1 a] (fun s => do
    let x ← rd s a
    need (x.toNat < 2048) .addr 0 x
    need (s.myPart.hasCore x.toNat) .perm 0 x
    let s1 := finishNo s [a]
    match (s.core x.toNat).team with
    | some (l, t) => return if (s.launch l).part = s.me.part then f x.toNat l t s1 else s1
    | none => return s1) s

def execKill (a : BitVec 5) (s : State) : Out := onTeam (fun _ l t s => s.killTeam l t) a s
def execPreempt (a : BitVec 5) (s : State) : Out := onTeam (fun core _ _ s => s.preemptCore core) a s

/-! ## Events at issue (R73, R91, R135, R137) -/

/-- THREAD_END: the halting thread's replies are all in. -/
def execThreadEnd (thr : Nat) (s : State) : Out :=
  let c := s.ctx thr
  if c.live && c.wait == .halting && c.posted.isEmpty then .next (s.endThread thr 0) else .next s

/-- An issue that would exceed the limit traps before the instruction executes. -/
def execWatchdogExpiry (thr : Nat) (s : State) : Out :=
  let c := s.ctx thr
  if c.live && c.wait == .ready && s.wdLimit thr < c.wd + 1 then
    .next (s.trapAt thr .wdog (BitVec.ofNat 64 (s.wdLimit thr)) 0)
  else .next s

/-- An encoding that no rule assigns reaches issue: ILL. -/
def execIllegalInstruction (w : BitVec 32) (half : Bool) (s : State) : Out :=
  .next ((s.modMe fun c => { c with ir := w, irHalf := half, irPc := c.pc }).trapAt s.cur .ill 0 0)

/-- The running thread has no instruction word: a record of a failed fetch has xbits 0 and xcause.h 0 (DESIGN CHOICE, log
entry 66). -/
def State.noInstr (s : State) : State := s.modMe fun c => { c with ir := 0, irHalf := false, irPc := c.pc }

/-- The fetch at pc fails: FETCH, before any decode. -/
def execInstructionFetchFault (addr : BitVec 57) (perm : Bool) (s : State) : Out :=
  .next (s.noInstr.trapAt s.cur .fetch (if perm then 1 else 0) (canon addr))

/-- The fetch at pc meets an uncorrectable error: MEMERR (R354, R355). -/
def State.fetchError (s : State) (unit pa : Nat) (addr : BitVec 57) : State :=
  (s.noInstr.logError s.me.part (coreOf s.cur) unit pa).trapAt s.cur .memerr 0 (canon addr)

end Sys2Proof.Machine
end

