-- ==== Sys2Proof/Machine/Sched.lean ====
section
/-! DEFINITION. Launch rings (R357-R361), the end of a launch (R362), placement and quanta (R363, R364), slot removal and
displacement (R47, R368), the power monitor (R416). -/

namespace Sys2Proof.Machine

/-! ## Rings (R357, R358, R360) -/

/-- A launch ring as its control block says. -/
structure Ring where
  cb : Nat
  base : Nat
  size : Nat
  head : Nat
  tail : Nat
  state : Nat
  consumed : Nat
  deriving DecidableEq, Repr

/-- n bytes of little-endian content. -/
def field (bs : List Byte) (o n : Nat) : Nat := ofBytesNat ((bs.drop o).take n)

def State.ring (s : State) (part r : Nat) : Ring :=
  let cb := vget 0 (s.part part).rings r
  let b := s.physRead cb 64
  { cb := cb, base := field b 0 8, size := field b 8 4, head := field b 16 4, tail := field b 20 4
    state := field b 24 1, consumed := field b 32 4 }

/-- The address of unit i from the tail on; a packet wraps to base. -/
def Ring.unit (r : Ring) (i : Nat) : Nat := r.base + (r.tail + 16 * i) % r.size

/-- What the sill finds at a ring's tail. -/
inductive Served where
  /-- nothing to do, or a packet that is not yet whole -/
  | idle
  /-- the ring halts: reason, tag -/
  | bad (reason tag : Nat)
  /-- a packet that passes steps 1 to 6 of R360 -/
  | packet (bytes : List Byte)
  deriving DecidableEq, Repr

/-- A range of a group unit (R359): first, last; unused ranges dropped. -/
def unitRanges (u : List Byte) : List (Nat × Nat) :=
  ([4, 8, 12].map fun o => (field u o 2, field u (o + 2) 2)).filter fun r => r.1 != 0xFFFF

/-- The group units of a LAUNCH packet: group and ranges. -/
def launchUnits (p : List Byte) : List (Nat × List (Nat × Nat)) :=
  (List.range (field p 26 1)).map fun u =>
    let b := (p.drop (48 + 16 * u)).take 16
    (field b 0 2, unitRanges b)

/-- The groups that a packet names, ascending. -/
def launchGroups (p : List Byte) : List Nat := (List.range 256).filter fun j => (launchUnits p).any fun u => u.1 == j

/-- The member teams of group j: the ranges of its units join. -/
def launchMembers (p : List Byte) (j : Nat) : List Nat :=
  let rs := ((launchUnits p).filter fun u => u.1 == j).flatMap Prod.snd
  (List.range (field p 24 2)).filter fun k => rs.any fun r => r.1 ≤ k && k ≤ r.2

/-- Steps 2 to 6 of R360 for a LAUNCH of L units: the reason of the first failure. -/
def launchBad (pt : Part) (p : List Byte) : Option Nat :=
  let l := field p 1 1
  let n := field p 24 2
  let g := field p 26 1
  let entry : Word := BitVec.ofNat 64 (field p 8 8)
  let groups := launchGroups p
  if l < 3 ∨ 252 < g ∨ l ≠ 3 + g then some 2
  else if field p 3 1 ≠ 0 ∨ 8 ≤ field p 2 1 ∨ field p 27 1 ≠ 0 ∨ field p 30 2 ≠ 0 ∨ field p 40 8 ≠ 0 ∨
      (List.range g).any (fun u => field p (50 + 16 * u) 2 != 0) then some 3
  else if n = 0 ∨ entry.getLsbD 0 ∨ !canonical entry ∨ field p 16 8 % 8 ≠ 0 ∨ field p 32 8 % 16 ≠ 0 then some 4
  else if !pt.hasAsid (field p 28 2) then some 5
  else if (launchUnits p).any (fun u => pt.sliceCount ≤ u.1 || u.2.any fun r => r.2 < r.1 || n ≤ r.2) then some 6
  else if (List.range n).any (fun k => 4 < (groups.filter fun j => (launchMembers p j).contains k).length) then some 6
  else none

/-- Steps 1 to 6 of R360. -/
def packetBad (pt : Part) (p : List Byte) : Option Nat :=
  let op := field p 0 1
  let l := field p 1 1
  if op = 0 ∨ 6 < op then some 1
  else if l = 0 then some 2
  else if op = 1 then launchBad pt p
  else if op ≠ 2 ∧ l ≠ 1 then some 2
  else if field p 3 1 ≠ 0 ∨ (if op = 4 then 2 ≤ field p 2 1 else field p 2 1 ≠ 0) ∨ (op ≠ 2 ∧ field p 8 8 ≠ 0) then some 3
  else none

/-- n bytes of a ring. Where R336 says that nothing is, each is a free value (DESIGN CHOICE, log entry 9). -/
def State.ringRead (s : State) (pa n : Nat) : List Byte :=
  if hasMemory pa then s.physRead pa n else (List.range n).map fun i => Config.absentByte s.fresh (pa + i)

/-- The ring as its sill serves it (R358): that of the die whose DRAM holds its base. No sill serves another ring, nor one of a
partition that PARTDEL takes down (R417). -/
def State.served (s : State) (part r : Nat) : Served :=
  let g := s.ring part r
  let avail := (g.head + 2 ^ 32 - g.tail) % 2 ^ 32
  if g.cb = 0 ∨ g.state ≠ 1 ∨ (s.part part).deleting.isSome then .idle
  else if g.base % 4096 ≠ 0 ∨ 2 ^ 48 ≤ g.base ∨ g.size < 4096 ∨ 2 ^ 24 < g.size ∨ 2 ^ Nat.log2 g.size ≠ g.size then .bad 9 0
  else if g.size < avail then .bad 7 0
  else if avail < 16 || !inDram g.base then .idle
  else
    let l := field (s.ringRead (g.unit 0) 16) 1 1
    if avail < 16 * l then .idle
    else
      let p := (List.range (max l 1)).flatMap fun i => s.ringRead (g.unit i) 16
      match packetBad (s.part part) p with
      | some reason => .bad reason (field p 4 4)
      | none => .packet p

/-- The sill reads a ring's packet, and corrects what errors it meets (R355). -/
def State.ringMet (s : State) (part r : Nat) : State :=
  let g := s.ring part r
  let n := max 1 (field (s.ringRead (g.unit 0) 16) 1 1)
  ((List.range n).map g.unit).foldl (fun s pa => s.correct part (.phys pa) 16) s

/-- The ring halts (R360). -/
def State.haltRing (s : State) (part r reason tag : Nat) : State :=
  let g := s.ring part r
  let s1 := (s.physWrite (g.cb + 24) [2, BitVec.ofNat 8 reason]).physWrite (g.cb + 28) (toBytes 4 (BitVec.ofNat 32 g.tail))
  s1.faultReport part 2 reason (BitVec.ofNat 32 r) (BitVec.ofNat 64 g.tail) (BitVec.ofNat 32 tag)

/-- The packet is done with: tail and consumed advance, and the sill reads head again. -/
def State.advanceRing (s : State) (part r : Nat) (p : List Byte) : State :=
  let g := s.ring part r
  ((s.physWrite (g.cb + 20) (toBytes 4 (BitVec.ofNat 32 (g.tail + 16 * field p 1 1)))).physWrite (g.cb + 32)
    (toBytes 4 (BitVec.ofNat 32 (g.consumed + 1)))).post (.packet part r)

/-- A ring that the host has restarted after an error has none: its reason is 0 again (R357). -/
def State.clearReason (s : State) (part r : Nat) : State :=
  let g := s.ring part r
  if g.cb ≠ 0 ∧ g.state = 1 ∧ field (s.physRead g.cb 64) 25 1 ≠ 0 then s.physWrite (g.cb + 25) [0] else s

/-- A doorbell of a ring: the sill reads head; a packet that passes is acted on next. -/
def State.ringBell (part r : Nat) (s : State) : State :=
  let s := s.clearReason part r
  match s.served part r with
  | .idle => s
  | .bad reason tag => (if reason = 7 ∨ reason = 9 then s else s.ringMet part r).haltRing part r reason tag
  | .packet _ => (s.ringMet part r).post (.packet part r)

/-- DOORBELL (R358). -/
def execDoorbell (part r : Nat) (s : State) : Out := .next (s.ringBell part r)

/-- The packet at a ring's tail, if it has that opcode. -/
def State.packetOf (s : State) (part r op : Nat) : Option (List Byte) :=
  match s.served part r with
  | .packet p => if field p 0 1 = op then some p else none
  | _ => none

/-- A packet event acts where the ring's tail holds its packet. -/
def onPacket (op part r : Nat) (f : List Byte → State → State) (s : State) : Out :=
  match s.packetOf part r op with
  | some p => .next (f p s)
  | none => .next s

/-! ## LAUNCH (R359-R361) -/

/-- Where an access of the sill at a virtual address of a launch's ASID lands (R347). -/
def State.sillAddr (s : State) (part asid : Nat) (va : Word) (acc : Acc) : Option Nat :=
  let p := s.part part
  let v := (bits va 0 57 : BitVec 57).toNat
  if !canonical va then none
  else match s.walk p (BitVec.ofNat 12 asid) v with
    | .error _ => none
    | .ok e =>
      let n := pageGranules (lfSize e)
      if p.ownsRange (lfFrame e / 65536) n && permitted e acc 1 then some (lfFrame e + v % (65536 * n)) else none

/-- The start argument of team k, or none where its read fails. -/
def State.launchArg (s : State) (part : Nat) (p : List Byte) (k : Nat) : Option Word :=
  let args := field p 16 8
  if args = 0 then some (BitVec.ofNat 64 k)
  else (s.sillAddr part (field p 28 2) (BitVec.ofNat 64 (args + 8 * k)) .load).bind fun pa =>
    if (s.badUnit (.phys pa) 8).isSome then none else some (s.read64 pa)

/-- The sill reads the args of a launch, and corrects what errors it meets (R355). -/
def State.argsMet (s : State) (part : Nat) (p : List Byte) : State :=
  let asid := BitVec.ofNat 12 (field p 28 2)
  if field p 16 8 = 0 then s
  else (List.range (field p 24 2)).foldl (fun s k =>
    let va := BitVec.ofNat 64 (field p 16 8 + 8 * k)
    let s := if canonical va then s.sillWalked part asid (bits va 0 57 : BitVec 57).toNat else s
    match s.sillAddr part (field p 28 2) va .load with
    | some pa => s.correct part (.phys pa) 8
    | none => s) s

/-- Step 7 of R360: the reads of args succeed. -/
def State.argsRead (s : State) (part : Nat) (p : List Byte) : Bool :=
  (List.range (field p 24 2)).all fun k => (s.launchArg part p k).isSome

/-- LAUNCH: step 7 of R360. -/
def execLaunch (part r : Nat) (s : State) : Out :=
  onPacket 1 part r (fun p s =>
    if s.argsRead part p then (s.argsMet part p).post (.launchAccept part r)
    else (s.argsMet part p).haltRing part r 8 (field p 4 4)) s

/-- A live launch of the partition holds a group of its slice. -/
def State.groupHeld (s : State) (part j : Nat) : Bool :=
  let g := s.group ((s.part part).sliceFirst + j)
  g.valid && g.part == part && (s.launch g.launch).live

/-- The launch's groups are written; the lines homed on them leave the slices (R341). -/
def State.writeGroups (s : State) (part l : Nat) (p : List Byte) : State :=
  let first := (s.part part).sliceFirst
  ((launchGroups p).foldl (fun s j => s.setGroup ((s.part part).sliceFirst + j)
    { valid := true, part := part, launch := l, members := launchMembers p j, homing := [] }) s).dropLines fun x =>
      (launchGroups p).any fun j => x.grps.contains (first + j)

/-- The launch's teams, each with its start argument, enter the queue of the partition. -/
def State.queueTeams (s : State) (l : Nat) (args : List Word) : State :=
  args.zipIdx.foldl (fun s x =>
    { s with nextOrder := s.nextOrder + 1 }.modTeam l x.2 fun _ =>
      { Team.zero with state := .waiting, arg := x.1, order := s.nextOrder }) s

/-- A launch as its packet says. -/
def launchOf (part r die : Nat) (p : List Byte) : Launch :=
  { live := true, part := part, ring := r, tag := BitVec.ofNat 32 (field p 4 4), det := field p 2 1 % 2 == 1
    prio := BitVec.ofNat 2 (field p 2 1 / 2), entry := BitVec.ofNat 57 (field p 8 8), n := field p 24 2
    asid := BitVec.ofNat 12 (field p 28 2), endrec := BitVec.ofNat 64 (field p 32 8), groups := launchGroups p
    held := false, killed := false, fatal := 0, firstClass := 0, die := die }

/-- LAUNCH_ACCEPT: once no group that it names is held. The packet at the tail may have come there since its checks: step 7 is
made for it too. -/
def execLaunchAccept (part r : Nat) (s : State) : Out :=
  onPacket 1 part r (fun p s =>
    if !s.argsRead part p then (s.argsMet part p).haltRing part r 8 (field p 4 4)
    else if (launchGroups p).any (s.groupHeld part) then s
    else
      let l := s.nextLaunch
      let die := (s.ring part r).base / 2 ^ 38 % 8
      let args := (List.range (field p 24 2)).map fun k => (s.launchArg part p k).getD 0
      let s1 := { s.argsMet part p with nextLaunch := l + 1 }.modLaunch l fun _ => launchOf part r die p
      (((s1.writeGroups part l p).queueTeams l args).advanceRing part r p).post (.placement part)) s

/-! ## The other packets (R359) -/

def execNopPacket (part r : Nat) (s : State) : Out := onPacket 2 part r (fun p s => s.advanceRing part r p) s

/-- The live launches that a ring accepted. -/
def State.ringLaunches (s : State) (part r : Nat) : List Nat :=
  (s.launches.filter fun l => l.2.live && l.2.part == part && l.2.ring == r).map Prod.fst

def execWaitend (part r : Nat) (s : State) : Out :=
  onPacket 3 part r (fun p s => if (s.ringLaunches part r).isEmpty then s.advanceRing part r p else s) s

/-- The live launches of the ring with the packet's tag. -/
def State.tagged (s : State) (part r : Nat) (p : List Byte) : List Nat :=
  (s.ringLaunches part r).filter fun l => (s.launch l).tag == BitVec.ofNat 32 (field p 4 4)

/-- The cores that hold teams of a launch. -/
def State.launchCores (s : State) (l : Nat) : List Nat :=
  (s.cores.filter fun k => k.2.team.any fun t => t.1 == l).map Prod.fst

def execPreemptPacket (part r : Nat) (s : State) : Out :=
  onPacket 4 part r (fun p s =>
    ((s.tagged part r p).foldl (fun s l =>
      let s1 := if field p 2 1 = 1 then s.modLaunch l fun x => { x with held := true } else s
      (s1.launchCores l).foldl State.preemptCore s1) s).advanceRing part r p) s

def execResumePacket (part r : Nat) (s : State) : Out :=
  onPacket 5 part r (fun p s =>
    (((s.tagged part r p).foldl (fun s l => s.modLaunch l fun x => { x with held := false }) s).advanceRing part r p).post
      (.placement part)) s

/-- A team that is resident, or waits for a core. -/
def TeamState.alive : TeamState → Bool
  | .waiting => true
  | .resident _ => true
  | .out => true
  | .ended => false
  | .killed => false

/-- Every team of a launch that has not ended is killed, one of which nothing but suspended frames is left too. -/
def State.killLaunch (s : State) (l : Nat) : State :=
  ((List.range (s.launch l).n).filter fun k =>
      (s.teamOf l k).state.alive || s.suspended.any fun p => p.ident.launch == l && p.ident.team == k).foldl
    (fun s k => s.killTeam l k) s

def execKillPacket (part r : Nat) (s : State) : Out :=
  onPacket 6 part r (fun p s => ((s.tagged part r p).foldl State.killLaunch s).advanceRing part r p) s

/-! ## Placement (R363) and quanta (R364) -/

/-- Die hops in the grid of R2. -/
def hops (a b : Nat) : Nat :=
  let d := fun (x y : Nat) => (x - y) + (y - x)
  d (a / 4) (b / 4) + d (a % 4) (b % 4)

/-- A waiting team: launch, team, priority, order. -/
structure Waiting where
  launch : Nat
  team : Nat
  prio : Nat
  order : Nat
  deriving DecidableEq, Repr

/-- The teams of a partition that wait for a core and are not held. -/
def State.waitingTeams (s : State) (part : Nat) : List Waiting :=
  (s.teams.filterMap fun x =>
    let l := s.launch (x.1 / 65536)
    if l.live && l.part == part && !l.held && (x.2.state == .waiting || x.2.state == .out) then
      some ⟨x.1 / 65536, x.1 % 65536, l.prio.toNat, x.2.order⟩
    else none)

def Waiting.before (a b : Waiting) : Bool := b.prio < a.prio || (a.prio == b.prio && a.order < b.order)

/-- The first of the queue. -/
def firstWaiting : List Waiting → Option Waiting
  | [] => none
  | w :: ws => some (ws.foldl (fun a b => if b.before a then b else a) w)

/-- A waiting team put into an ordered queue. -/
def Waiting.insert (w : Waiting) : List Waiting → List Waiting
  | [] => [w]
  | x :: xs => if w.before x then w :: x :: xs else x :: w.insert xs

/-- The queue in order. -/
def orderWaiting (ws : List Waiting) : List Waiting := ws.foldl (fun l w => w.insert l) []

/-- A core that placement may use: it holds no team, no guest and no message for one. -/
def State.coreFree (s : State) (core : Nat) : Bool :=
  (s.core core).team.isNone && (s.core core).arrivals.isEmpty && (slotsOf core).all fun t => !(s.ctx t).live

/-- The free core with the fewest hops from a die, lowest number first. -/
def State.pickCore (s : State) (part die : Nat) : Option Nat :=
  match (s.part part).cores.filter s.coreFree with
  | [] => none
  | k :: ks => some (ks.foldl (fun a b => if hops die (dieOfCore b) < hops die (dieOfCore a) then b else a) k)

/-- The groups of a launch note the core of a team's first placement (R440). The lines of pages homed on a group whose homing
set it completes leave the slices (R341). -/
def State.noteHome (s : State) (l t core : Nat) : State :=
  let mine := fun (g : Group) => g.valid && g.launch == l && g.members.contains t
  let complete := fun (k : Nat) => mine (s.group k) && (s.group k).members.all fun m =>
    m == t || (s.group k).homing.any fun x => x.1 == m
  let noted := s.groups.map fun g => if mine g.2 then (g.1, { g.2 with homing := g.2.homing ++ [(t, core)] }) else g
  { s.dropLines (fun x => x.grps.any complete) with groups := noted }

/-- A team takes a core: it starts under R69, or its image is restored under R295. What stands in the core's mailbox for no team is lost:
a team starts with an empty one, and a restored one has its image's (DESIGN CHOICE, log entry 75). -/
def State.placeTeam (s : State) (l t core : Nat) : State :=
  let x := s.teamOf l t
  let out := x.state == .out
  let s1 := (s.modTeam l t fun x => { x with state := .resident core, placedOnce := true }).modCore core fun k =>
    { k with
      team := some (l, t), quantum := 0, preempting := false, restoring := out, teamClaim := false
      tm := if out then k.tm else { TeamMem.zero with spad := k.tm.spad, win := k.tm.win } }
  let s1 := s1.cargo (s.launch l).die (dieOfCore core) 2 (if out then 192 else 0)
  let s2 := if out then s1.post (.swapIn core)
    else (s1.noteHome l t core).startThread (16 * core) ⟨l, t, 0⟩ false (s.launch l).entry x.arg (s.launch l).asid 2
  s2.post (.contextClaim core)

/-- No core is free: a team of lower priority gives way to each waiting team for which no core is being given up yet (R364, R371;
DEDUCED, log entry 85). -/
def State.displaceFor (s : State) (part : Nat) (ws : List Waiting) : State :=
  let res := (s.part part).cores.filterMap fun k => (s.core k).team.map fun t => (k, (s.launch t.1).prio.toNat)
  let going := (res.filter fun x => (s.core x.1).preempting).length
  match (orderWaiting ws).drop going with
  | [] => s
  | w :: _ =>
    match res.filter fun x => !(s.core x.1).preempting && x.2 < w.prio with
    | [] => s
    | k :: ks => (s.preemptCore (ks.foldl (fun a b => if b.2 < a.2 || (b.2 == a.2 && a.1 < b.1) then b else a) k).1).post
        (.placement part)

def execTeamPlacement (part : Nat) (s : State) : Out :=
  let ws := s.waitingTeams part
  match firstWaiting ws with
  | none => .next s
  | some w => match s.pickCore part (s.launch w.launch).die with
    | some core => .next ((s.placeTeam w.launch w.team core).post (.placement part))
    | none => .next (s.displaceFor part ws)

/-- The end of a quantum (R364). A team that waits with a higher priority, and for which another core is already being given up, takes
no second one (R371; DEDUCED, log entry 85). -/
def execQuantumExpiry (core : Nat) (s : State) : Out :=
  match (s.core core).team with
  | none => .next s
  | some (l, _) =>
    let part := (s.launch l).part
    -- a team of higher priority for which a core is being given up already takes that one (R371)
    let going := ((s.part part).cores.filter fun k => (s.core k).preempting).length
    let ws := orderWaiting (s.waitingTeams part)
    let prio := (s.launch l).prio.toNat
    if (s.core core).quantum < (s.part part).quantum then .next s
    else if (ws.any fun w => w.prio == prio) || (ws.drop going).any fun w => prio < w.prio then .next (s.preemptCore core)
    else .next (s.modCore core fun k => { k with quantum := 0 })

/-! ## The end of a launch (R362) -/

/-- Nothing of a team is left that could still run. -/
def State.teamOver (s : State) (l k : Nat) : Bool :=
  let x := s.teamOf l k
  x.state == .killed || x.state != .waiting && x.ctxs.isEmpty && x.queue.isEmpty && x.image.conts.isEmpty &&
    !(x.image.wt.any fun e => e.2.state == .fired) && (match x.state with
    | .resident c => (s.core c).tm.conts.isEmpty && (s.firedEntry c).isNone
    | _ => true)

/-- Every thread of every team has ended, and every token that its threads issued is terminal. -/
def State.launchOver (s : State) (l : Nat) : Bool :=
  (s.launch l).live && !(s.threads.any fun x => x.2.live && x.2.ident.launch == l) &&
    !(s.cores.any fun k => k.2.arrivals.any fun a => a.ctx.ident.launch == l) &&
    !(s.suspended.any fun p => p.ident.launch == l) &&
    (List.range (s.launch l).n).all (s.teamOver l) &&
    !(s.allTokens.any fun x => x.2.ident.launch == l && x.2.state.live)

/-- The 16 bytes of an end record. -/
def Launch.endRecord (l : Launch) : List Byte :=
  toBytes 4 l.tag ++ [if l.killed then 3 else if l.fatal ≠ 0 then 2 else 1, l.firstClass, 0, 0] ++
    toBytes 4 (BitVec.ofNat 32 l.fatal) ++ [0, 0, 0, 0]

/-- The end record is stored, or its failure reported. -/
def State.writeEnd (s : State) (l : Launch) : State :=
  if l.endrec = 0 then s
  else
    let s := if canonical l.endrec then s.sillWalked l.part l.asid (bits l.endrec 0 57 : BitVec 57).toNat else s
    match s.sillAddr l.part l.asid.toNat l.endrec .store with
    | some pa => (s.hostTouch pa 16).physWrite pa l.endRecord
    | none => s.faultReport l.part 3 0 0 l.endrec l.tag

/-- Barriers, issue counts of collectives and channels of a launch are gone: selectors name its groups, and the cores of a
course that hold its teams. Its groups are free (R362): lines homed on them are written back and dropped, since their home is now
another (R340, R341). -/
def State.clearLaunch (s : State) (l : Nat) : State :=
  let x := s.launch l
  let mine := fun (key : Nat) => (key % 2 == 1 && key / 2 / 160 == l) ||
    (key % 2 == 0 && key / 2 / 256 == x.part && x.groups.contains (key / 2 % 256))
  let freed := fun (k : Nat) => (s.group k).part == x.part && (s.group k).launch == l
  { s.dropLines (fun y => y.grps.any freed) with
    barriers := s.barriers.filter fun b => !mine b.1
    collSeq := s.collSeq.filter fun c => !mine (c.1 / 65536)
    colls := s.colls.filter fun r => r.launch != l
    chans := s.chans.filter fun c => c.1 / 4294967296 / 65536 != l
    groups := s.groups.filter fun g => !(g.2.part == x.part && g.2.launch == l) }

/-- The cores that still hold teams of the launch are free. -/
def State.releaseCores (s : State) (l : Nat) : State :=
  (s.launchCores l).foldl (fun s k => s.modCore k fun c =>
    { c with team := none, preempting := false, restoring := false, teamClaim := false
             tm := { c.tm with wt := [], deque := [], spilled := [] } }) s

/-- A terminal token of the launch frees at its end (R227). -/
def Token.leave (t : Token) (l : Nat) : Token :=
  if t.own.launch = l then { t with det := false, pend := false, att := false, owed := [] }.settle else t

/-- A core passes out of its partition: its scratchpad is zeroed (R35). -/
def State.zeroSpad (s : State) (core : Nat) : State :=
  { s.modTm core fun m => { m with spad := [] } with
    badSpad := s.badSpad.filter fun x => x / 65536 != core
    corrSpad := s.corrSpad.filter fun x => x / 65536 != core }

/-- A course passes out of its partition: its tile slots (R196) and its cores' scratchpads are zeroed. -/
def State.zeroCourse (s : State) (course : Nat) : State :=
  ((List.range 8).map (8 * course + ·)).foldl State.zeroSpad (s.modCourse course fun c =>
    { c with slots := c.slots.map fun x => (x.1, { x.2 with payload := [], side := [], bad := [], corr := [] }) })

/-- A command page takes its outcome (R417): done, or refused with a reason. -/
def State.setPage (s : State) (cmd : CmdHead) (op : Byte) (refused : Option Byte) : State :=
  let p : CmdPage := { op := op, status := if refused.isSome then 3 else 2, reason := refused.getD 0, tag := cmd.tag
                       args := (vget CmdPage.zero s.fw.pages cmd.port).args }
  { s with fw := { s.fw with pages := vset s.fw.pages cmd.port p } }

/-- A page whose block is refused: no op that R417 lists (reason 1), or no arguments of its op (2). -/
def State.refusePage (s : State) (port : Nat) (reason : Byte) : State :=
  let p := vget CmdPage.zero s.fw.pages port
  { s with fw := { s.fw with pages := vset s.fw.pages port { p with status := 3, reason := reason } } }

/-- The firmware executes a PARTDEL, and no other command (R417). -/
def State.busy (s : State) : Bool := s.parts.any fun p => p.2.deleting.isSome

/-- A PARTDEL that a freeze holds up lets the THAW through that ends it (DEDUCED, log entry 46). -/
def State.heldUp (s : State) (op : Byte) : Bool := s.busy && !(s.fw.frozen && op == 7)

/-- PARTDEL goes on: when no launch of the partition is live, its cores are cleared and the partition is gone. -/
def State.finishDelete (s : State) (part : Nat) : State :=
  let p := s.part part
  match p.deleting with
  | none => s
  | some cmd =>
    if s.launches.any fun l => l.2.live && l.2.part == part then s
    else
      let s := p.courses.foldl State.zeroCourse s
      let s := { s with
        seqs := s.seqs.filter fun r => r.2.part != part
        -- nothing that its threads had under way at a vault die reaches the next partition of that number (R386)
        vdies := s.vdies.map fun (v : Nat × VDie) => (v.1, { v.2 with
          reqs := v.2.reqs.filter fun r => r.part != part
          samples := v.2.samples.filter fun h => (s.launch h.who.launch).part != part }) }
      (s.modPart part fun _ => Part.zero).setPage cmd 3 none

def execLaunchEnd (l : Nat) (s : State) : Out :=
  if !s.launchOver l then .next s
  else
    let x := s.launch l
    let s := ((s.releaseCores l).clearLaunch l).mapTokens fun t => t.leave l
    let s := (List.range x.n).foldl (fun s k => s.modTeam l k fun t =>
      { Team.zero with state := if t.state = .killed then .killed else .ended }) s
    let s := (s.modLaunch l fun y => { y with live := false }).writeEnd x
    .next (((postAll ((List.range 8).map (.packet x.part)) s).post (.placement x.part)).finishDelete x.part)

/-! ## Slot removal (R368) and displacement (R47) -/

/-- The slot of a thread is removed. -/
def State.removed (s : State) (thr : Nat) : Bool := 16 - (s.core (coreOf thr)).removal.toNat ≤ slotOf thr

/-- The core that R47 chooses for a thread. -/
def State.cooler (s : State) (thr : Nat) : Option Nat :=
  let p := s.part (s.ctx thr).part
  (s.die (dieOfCore (coreOf thr))).ranking.find? fun k => p.hasCore k && (s.freeContext k).isSome

/-- A thread in a removed slot can go now: it is at a boundary, neither pinned nor held by a debugger, and a core
takes it. -/
def State.displaceable (s : State) (thr : Nat) : Option Nat :=
  let c := s.ctx thr
  if c.live && s.removed thr && c.wait.boundary && !c.pinned && !c.halted && !c.dbgHeld then s.cooler thr else none

/-- f falls by one step of R367. -/
def State.slower (s : State) (die : Nat) : State := s.modDie die fun d => { d with mhz := max 1000 (d.mhz - 125) }

/-- THERMAL_DISPLACEMENT: the thread goes; its slot stays enabled and f falls where it is pinned or R47 finds no core; else it
goes at its next boundary. -/
def execThermalDisplacement (thr : Nat) (s : State) : Out :=
  match s.displaceable thr with
  | some core => .next (s.sendAway thr core)
  | none =>
    let c := s.ctx thr
    .next (if c.live && s.removed thr && (c.pinned || (s.cooler thr).isNone) then s.slower (dieOfCore (coreOf thr)) else s)

def execThermalRankingRewrite (die : Nat) (row : List Nat) (s : State) : Out :=
  let whole := (List.range 160).all fun i => row.contains (160 * die + i)
  if row.length ≠ 160 ∨ !whole then .next s
  else
    let stuck := (s.threads.filter fun x => x.2.live && dieOfCore (coreOf x.1) == die && s.removed x.1).map Prod.fst
    .next (postAll (stuck.map .displacement) (s.modDie die fun d => { d with ranking := row }))

/-- The thermal monitor of a core changes its removal level: up while its junction exceeds 95 °C, down below 90 °C (R416). What it
reads is a free value (DESIGN CHOICE, log entry 70). -/
def execRemovalLevelChange (core level : Nat) (s : State) : Out :=
  let now := (s.core core).removal.toNat
  let t := Config.junction s.fresh core
  let s := { s with fresh := s.fresh + 1 }
  if 15 < level || !((now < level && 95 < t) || (level < now && t < 90)) then .next s
  else
    let s1 := s.modCore core fun k => { k with removal := BitVec.ofNat 4 level }
    let out := (slotsOf core).filter fun t => (s1.ctx t).live && s1.removed t && !s.removed t
    .next ((postAll (out.map .displacement) s1).post (.contextClaim core))

/-! ## Power (R416) -/

/-- A window of a die's power monitor, with its draw in W. -/
def execPowerWindow (die watts : Nat) (s : State) : Out :=
  let b := s.fw.budget.toNat
  if b < 8 * watts then .next ((s.slower die).modDie die fun d => { d with lowWindows := 0 })
  else if 800 * watts < 95 * b then
    .next (s.modDie die fun d =>
      if d.lowWindows + 1 = 16 then { d with lowWindows := 0, mhz := min 2000 (d.mhz + 125) }
      else { d with lowWindows := d.lowWindows + 1 })
  else .next (s.modDie die fun d => { d with lowWindows := 0 })

end Sys2Proof.Machine
end

