-- ==== Sys2Proof/Machine/Links.lean ====
section
/-! DEFINITION. Links: flits, replay, repair, retraining, detours (R389-R394, R400), and the freeze of the device (R387,
R418), which a lost module may cause. -/

namespace Sys2Proof.Machine

/-- A record of the management queue about a link end (R417): its module or port number is the detail, its die or port
the place. -/
def State.linkReport (s : State) (kind k : Nat) (v : Nat) : State :=
  let (detail, place) :=
    if k < 32 then (k % 4, k / 4) else if k < 48 then (k % 2, (k - 32) / 2) else (0, k - 48)
  s.mgmtReport kind detail (BitVec.ofNat 32 place) (BitVec.ofNat 64 v)

/-! ## The freeze (R418, R387) -/

/-- A calibration that a freeze interrupts will fail. -/
def VDie.interrupt (d : VDie) : VDie := { d with cals := d.cals.map fun c => { c with failed := c.failed || c.begun } }

/-- Every clock stops; the vault's columns lose their calibration, and a calibration that has begun will fail. -/
def State.freeze (s : State) (hard : Bool) (detail : Nat) (place : Word32) : State :=
  let s1 := { s with fw := { s.fw with frozen := true, frozenHard := s.fw.frozenHard || hard } }
  if s.fw.frozen then s1
  else
    { s1 with
      vcols := s1.vcols.map fun (c : Nat × Calib) => (c.1, { c.2 with v := false })
      vdies := s1.vdies.map fun (d : Nat × VDie) => (d.1, d.2.interrupt) }.mgmtReport 4 detail place 0

/-- A module end retrains (R393, R398): counted, posted, and done when RETRAIN_COMPLETE comes. -/
def State.retrain (s : State) (k : Nat) : State :=
  ((s.modLink k fun l => { l with state := 2, retrains := l.retrains + 1 }).linkReport 1 k (s.linkAt k).width.toNat).post
    (.retrained (linkId k))

/-- The values that the vault's integrators held have drifted by amounts that no tick counted, and no rule bounds (R387; DESIGN CHOICE,
log entry 88). -/
def State.drifted (s : State) : State :=
  (List.range 16).foldl (fun s' g => s'.modVGroup g fun v =>
    { v with x := v.integrators.foldl (fun t p => Tbl.set 0 t p (Tbl.get 0 t p + Config.freezeDrift (s.fresh + 256 * g + p))) v.x })
    { s with fresh := s.fresh + 4096 }

/-- The dies restart: the vault's held values have drifted, and each module that is up retrains. -/
def State.thaw (s : State) : State :=
  if !s.fw.frozen || s.fw.frozenHard || s.fw.pinLow then s
  else ((List.range 32).filter fun k =>
      4 ≤ s.fw.phase && ((s.linkAt k).state == 1 || (s.linkAt k).state == 2)).foldl State.retrain
    { s.drifted with fw := { s.fw with frozen := false } }

/-! ## Flits and replay (R392, R395, R434) -/

/-- A flit with the sender's next number is new: traffic whose flits no rule counts (DESIGN CHOICE, log entry 47). A replay buffer
that is full sends none. -/
def State.outside (s : State) (k : Nat) (seq : BitVec 8) : State :=
  match farEnd k with
  | none => s
  | some f =>
    let s := s.idleAck f
    let x := s.linkAt f
    if x.nextSeq = seq.toNat ∧ x.state = 1 ∧ x.buf.length < 128 then
      s.modLink f fun x =>
        { x with txflits := x.txflits + 1, buf := x.buf ++ [⟨seq, x.rxSeq, [⟨.other, 0, ⟨0, 0, 0⟩, [], [], 2, 0⟩]⟩] }
    else s

/-- A flit can reach an end now: its sender holds it, and the end has not received it. Flits come in order; after one that was bad
those behind it come, until it is resent. While the end trains they wait there, each once. What comes from outside the device is not
known before. -/
def State.underWay (s : State) (k : Nat) (seq : BitVec 8) : Bool :=
  match farEnd k with
  | none => true
  | some f =>
    let l := s.linkAt k
    (((s.linkAt f).heldFrom l.rxSeq).any fun x => x.seq == seq) &&
      (if l.state = 2 then !l.late.any fun x => x.1 == seq else l.nakSent == (seq != l.rxSeq))

/-- A sender resends its buffered flits from number n on, in order, each with its acknowledgement as it stands now; what it had sent
of them before is discarded by now. -/
def State.resend (s : State) (k : Nat) (n : BitVec 8) : State :=
  let again := (s.linkAt k).heldFrom n
  let s := s.modLink k fun x =>
    let x := x.ackTo n
    { x with naks := x.naks + 1, replayed := x.replayed + BitVec.ofNat 64 again.length
             buf := x.buf.map fun f => { f with ack := x.rxSeq } }
  match farEnd k with
  | none => s
  | some f =>
    let s := s.modLink f fun x => { x with nakSent := false, nakAt := none, late := [] }
    let stale := fun (d : Due) => d.isFlitTo (linkId f) || d.isNakTo (linkId k)
    postAll (again.map fun x => .flit (linkId f) x.seq) { s with agenda := s.agenda.filter fun d => !stale d }

/-- What an end may send now is sent: an acknowledgement by an idle flit, the flits that wait, a NAK by an idle flit. -/
def State.flush (s : State) (k : Nat) : State := ((s.idleAck k).pump (s.linkAt k).queue.length k).idleNak k

/-- The NAK that end f owes end k comes with its flit, or before it (R434). -/
def State.rideNak (s : State) (k f : Nat) (seq : BitVec 8) : State :=
  if (s.linkAt f).nakAt.any fun n => !seqBefore seq n then s.resend k (s.linkAt f).rxSeq else s

/-- What a delivered flit brings to an end: a NAK that rides in it, an acknowledgement, which may let waiting flits go, and its
messages. It is acknowledged by an idle flit unless a flit back is due (R434). At a port to the outside it acknowledges all (DESIGN
CHOICE, log entry 47). -/
def State.opened (s : State) (k : Nat) (seq : BitVec 8) : State :=
  match farEnd k with
  | none => (s.modLink k fun x => x.ackTo (BitVec.ofNat 8 x.nextSeq)).pump (s.linkAt k).queue.length k
  | some f => match (s.linkAt f).buf.find? fun x => x.seq == seq with
    | none => s
    | some x =>
      let s1 := (s.rideNak k f seq).modLink k fun l => l.ackTo x.ack
      ((x.msgs.foldl State.deliverMsg (s1.pump (s.linkAt k).queue.length k)).flush f).flush k

/-- The outside sends a flit again to a port, and after it those that were on their way behind it (R392; log entry 47). -/
def State.againOutside (s : State) (k : Nat) (seq : BitVec 8) : State :=
  let n := s.onTheWay k
  let s := { s with agenda := s.agenda.filter fun d => !d.isFlitTo (linkId k) }.modLink k fun x => { x with late := [] }
  postAll ((List.range (n + 1)).map fun i => .flit (linkId k) (seq + BitVec.ofNat 8 i)) s

/-- A receiver checks a flit: it delivers the expected one, and discards any other and owes a NAK, one until the resent flits
come. -/
def State.receive (s : State) (k : Nat) (seq : BitVec 8) (good : Bool) : State :=
  let l := s.linkAt k
  if good && seq == l.rxSeq then
    (s.modLink k fun x => { x with rxflits := x.rxflits + 1, rxSeq := x.rxSeq + 1, nakSent := false }).opened k seq
  else
    let s := s.modLink k fun x =>
      { x with crcerr := if good then x.crcerr else x.crcerr + 1, nakSent := true
               nakAt := if x.nakSent then x.nakAt else some (BitVec.ofNat 8 x.nextSeq) }
    match farEnd k with
    | some f => (s.idleNak k).idleNak f
    | none => if !good && seq == l.rxSeq then s.againOutside k seq else s

/-- A flit that its sender has sent reaches a receiver; one that reaches an end in training waits (R393). -/
def execFlitReceive (lnk : LinkId) (seq : BitVec 8) (good : Bool) (s : State) : Out :=
  let k := linkNo lnk
  let s := { s with agenda := s.agenda.erase (.flit lnk seq) }
  if (s.linkAt k).state ≠ 1 ∧ (s.linkAt k).state ≠ 2 then .next s
  else
    let s1 := s.outside k seq
    if !s1.underWay k seq then .next s
    else if (s.linkAt k).state = 2 then .next (s1.modLink k fun x => { x with late := x.late ++ [(seq, good)] })
    else .next (s1.receive k seq good)

/-- A NAK reaches a sender; one that reaches it in training is answered after it (R393, R410). -/
def execNakReceive (lnk : LinkId) (seq : BitVec 8) (s : State) : Out :=
  let k := linkNo lnk
  if (s.linkAt k).state = 2 then .next (s.modLink k fun x => { x with nakHeld := some seq })
  else if (s.linkAt k).state ≠ 1 then .next s
  else .next (s.resend k seq)

/-! ## Lanes and modules (R393, R394, R400) -/

/-- A link end retrains on half of its lanes; a second time the width stays. -/
def State.degrade (s : State) (k : Nat) : State :=
  let half := fullWidth k / 2
  if (s.linkAt k).width.toNat = half then s.retrain k
  else
    ((s.modLink k fun l =>
      { l with state := 2, width := BitVec.ofNat 8 half, degrades := l.degrades + 1, retrains := l.retrains + 1 }).linkReport
        2 k half).post (.retrained (linkId k))

/-- A lane fails: a redundant lane replaces it, or the link retrains at half width. -/
def execLaneFailure (lnk : LinkId) (repairable : Bool) (s : State) : Out :=
  let k := linkNo lnk
  if (s.linkAt k).state ≠ 1 then .next s
  else if repairable then .next (s.modLink k fun l => { l with repair := l.repair + 1 })
  else .next ((bothEnds k).foldl State.degrade s)

/-- An end is up again: a NAK that waited is answered, flits that waited are received, messages that waited are sent, and what both
ends may then say by idle flits. -/
def State.trained (s : State) (k : Nat) : State :=
  let l := s.linkAt k
  let s := s.modLink k fun x => { x with state := 1, late := [], nakHeld := none }
  let s := match l.nakHeld with
    | some n => s.resend k n
    | none => s
  (bothEnds k).foldl State.flush (l.late.foldl (fun s x => s.receive k x.1 x.2) s)

def execRetrainComplete (lnk : LinkId) (s : State) : Out :=
  if (s.linkAt (linkNo lnk)).state = 2 then .next (s.trained (linkNo lnk)) else .next s

/-- An end goes down; what waits there has no way on. -/
def State.shut (s : State) (k : Nat) : State :=
  let s := { s with agenda := s.agenda.filter fun d => !(d.isFlitTo (linkId k) || d.isNakTo (linkId k)) }
  (s.modLink k fun l => { l with state := 3, width := 0, detour := true, buf := [], queue := [], late := [], nakHeld := none, nakAt := none, nakSent := false }).linkReport
    3 k 0

/-- A module end that is down: the flits that the far end has not delivered are resent over the detour, then what waits (R394). -/
def State.takeDown (s : State) (k : Nat) : State :=
  let l := s.linkAt k
  let left := match farEnd k with
    | some f => l.heldFrom (s.linkAt f).rxSeq
    | none => []
  let s := (s.shut k).modLink k fun x => { x with replayed := x.replayed + BitVec.ofNat 64 left.length }
  (left.flatMap (·.msgs) ++ l.queue).foldl (fun s m => s.sendOn { m with path := k :: m.path }) s

/-- The partitions whose pier set has a device of this rank. -/
def State.pierSets (s : State) (rank : BitVec 8) : List Nat :=
  (s.parts.filter fun p => p.2.pier.getLsbD 24 && decide (rank.toNat ≤ (bits p.2.pier 8 8 : Byte).toNat) &&
    bits p.2.pier 0 8 != rank).map Prod.fst

/-- A module cannot train: its traffic takes the detour, or without the sideband the device freezes until a reset. A pier port goes
down: the device at its far end is lost to the pier sets that it belongs to (R409). -/
def execModuleDown (lnk : LinkId) (sideband : Bool) (s : State) : Out :=
  let k := linkNo lnk
  if 48 ≤ k ∨ (s.linkAt k).state = 0 ∨ (s.linkAt k).state = 3 then .next s
  else if 32 ≤ k then
    let rank := Config.pierPeer (k - 32)
    .next ((s.pierSets rank).foldl (fun s p => s.pierLoss p rank) (s.shut k))
  else if sideband then .next ((bothEnds k).foldl State.takeDown s)
  else .next (((bothEnds k).foldl State.shut s).freeze true (k % 4) (BitVec.ofNat 32 (k / 4)))

/-- An Ebnan port goes down: the other carries all traffic (`State.hostPort`), with what this one holds, which it has yet to see
acknowledged or to send, and which crosses the modules between the two dies. Port 0 lies on die 1, port 1 on die 6 (R400). -/
def execEbnanPortDown (port : Nat) (s : State) : Out :=
  let k := 48 + port
  let l := s.linkAt k
  if 1 < port ∨ l.state = 3 then .next s
  else
    let j := 97 - k
    let s1 := (s.shut k).modLink k fun x => { x with replayed := x.replayed + BitVec.ofNat 64 l.buf.length }
    if (s1.linkAt j).state = 3 then .next s1
    else
      let ms := l.buf.flatMap (·.msgs) ++ l.queue
      let s2 := ms.foldl (fun s m => s.cargo (portDie k) (portDie j) m.vert m.data) s1
      .next ((s2.modLink j fun x => { x with queue := x.queue ++ ms }).pump ((s2.linkAt j).queue.length + ms.length) j)

end Sys2Proof.Machine
end

