-- ==== Sys2Proof/Machine/Vault.lean ====
section
/-! DEFINITION. The vault instructions (R256-R275) and the vault dies' events (R257, R267, R273, R274, R381-R387). -/

namespace Sys2Proof.Machine

/-! ## Checks (R255, R256, R263) -/

/-- The mask of a source value: groups of one die only, where asked. `field` is the field that holds it. -/
def groupMask (x : Word) (oneDie : Bool) (field : Nat) : Except Stop (BitVec 16) := do
  let m : BitVec 16 := bits x 0 16
  need (bits x 16 48 == (0 : BitVec 48) && m != 0) .opnd (opndInfo field 0)
  need (!oneDie || bits m 0 8 == (0 : Byte) || bits m 8 8 == (0 : Byte)) .opnd (opndInfo field 0)
  return m

/-- Every group is held by the running thread's partition (R255). -/
def heldAll (s : State) (gs : List Nat) : Except Stop Unit :=
  need (gs.all s.myPart.vaultGroups.contains) .perm

/-- Integrators a to a + n − 1, on one die (R263 step 1, R270): the groups that they lie in. The record names the count, b (DESIGN
CHOICE, log entry 87). -/
def spanGroups (a n : Word) : Except Stop (List Nat) := do
  need (0 < n.toNat && n.toNat ≤ 2048 && a.toNat + n.toNat ≤ 4096 &&
    a.toNat / 2048 == (a.toNat + n.toNat - 1) / 2048) .opnd (opndInfo 2 0)
  return (List.range 16).filter fun g => a.toNat / 256 ≤ g && g ≤ (a.toNat + n.toNat - 1) / 256

/-- Every group is configured (VAULT, reason 1). -/
def configuredAll (s : State) (gs : List Nat) : Except Stop Unit :=
  match gs.find? fun g => (s.vgroup g).cfg != .configured with
  | some g => .error (.trap .vault (BitVec.ofNat 64 (1 + 256 * g)) 0)
  | none => .ok ()

/-! ## Requests and their answers (R257) -/

/-- A request on its way to a vault die. -/
def State.ask (s : State) (die : Nat) (a : VAsk) : State :=
  (s.modVDie die fun v => { v with reqs := v.reqs ++ [⟨s.cur, s.me.ident, s.me.part, a⟩] }).post (.vaultRequest die)

/-- The running thread sends requests to the dies and waits until each is applied; its sources are consumed. -/
def State.askAll (s : State) (asks : List (Nat × VAsk)) (srcs : List (BitVec 5)) (d : Option (BitVec 5)) : State :=
  let s1 := asks.foldl (fun s x => s.ask x.1 x.2) (s.consume s.cur srcs)
  let s2 := match d with
    | some c => s1.emptyDest s1.cur c
    | none => s1
  s2.modMe fun c => { c with wait := .vault d asks.length 0 }

/-- A die answers a thread, if it still waits: with the last answer it goes on. -/
def State.answer (s : State) (thr : Nat) (who : Ident) (v : Word) : State :=
  let c := s.ctx thr
  if c.ident ≠ who then s
  else match c.wait with
    | .vault d left sum =>
      if 1 < left then s.modCtx thr fun c => { c with wait := .vault d (left - 1) (sum + v) }
      else
        let s1 := match d with
          | some k => s.reply thr k (sum + v)
          | none => s
        s1.resume thr
    | _ => s

/-- The dies that a mask names groups of, with what each is asked. -/
def diesOf (m : BitVec 16) (f : BitVec 16 → VAsk) : List (Nat × VAsk) :=
  [(0, m &&& 0xFF), (1, m &&& 0xFF00)].filterMap fun x => if x.2 = 0 then none else some (x.1, f x.2)

/-- A group has a token that `p` names. -/
def State.groupHas (s : State) (m : BitVec 16) (p : Token → Bool) : Bool :=
  s.allTokens.any fun t => p t.2 && (t.2.op.engines (hCourse t.1)).any fun e => match e with
    | .vault g => m.getLsbD g
    | _ => false

def TokOp.isAcfg : TokOp → Bool
  | .acfg _ _ _ => true
  | _ => false
def TokOp.isRun : TokOp → Bool
  | .arun _ _ _ _ _ _ _ => true
  | _ => false

/-- An `acfg` token is queued or running at a group of the mask (R260); a token runs there (R274). -/
def State.acfgPending (s : State) (m : BitVec 16) : Bool := s.groupHas m fun t => t.op.isAcfg && t.state.live
def State.groupRuns (s : State) (m : BitVec 16) : Bool := s.groupHas m fun t => t.state == .running

/-! ## The instructions -/

def execAdict (mask a b : BitVec 5) (s : State) : Out :=
  issue false true 0 [.gsrc 0 mask, .src 1 a, .src 2 b] (fun s => do
    let mv ← rd s mask
    let m ← groupMask mv false 0
    heldAll s (maskGroups m)
    let x ← rd s a
    let r ← rd s b
    let first := (bits r 0 8 : Byte).toNat
    let n := (bits r 8 9 : BitVec 9).toNat
    need (bits r 17 47 == (0 : BitVec 47) && n != 0 && first + n ≤ 256) .opnd (opndInfo 2 0)
    let (ls, s1) ← State.blocks 8 8 .load ((List.range n).map fun j => x + BitVec.ofNat 64 (8 * j)) (s.performAll s.cur)
    let ws := ls.map fun l => ofBytes 64 (s1.read l 8)
    -- the words are read and checked before the thread waits (step 2)
    return if s1.acfgPending m then s1.modMe fun c => { c with wait := .dict m first ws [a, b] }
      else s1.askAll (diesOf m fun k => .dict k first ws) [a, b] none) s

/-- The token field of `acfg` and `arun` (R259). -/
def vaultTok (tok : BitVec 5) : List Field := if tok = 0 then [] else [.dst 0 tok]

def execAcfg (tok a : BitVec 5) (e : BitVec 3) (s : State) : Out :=
  issue false true 0 (vaultTok tok ++ [.src 1 a, .ext e.toNat 2, .token]) (fun s => do
    let mv ← rd s a
    let m ← groupMask mv true 1
    heldAll s (maskGroups m)
    let img := vget 0 s.me.e e.toNat
    let x := vget 0 s.me.e (e.toNat + 1)
    let len := (bits x 0 24 : BitVec 24).toNat
    need (bits x 27 37 == (0 : BitVec 37) && 8 ≤ len && len % 8 == 0) .opnd (opndInfo 3 (e.toNat + 1))
    need (canonical img) .addr 0 img
    need (img.toNat % 8 == 0) .align 0 img
    return s.takeToken (.acfg m (bits img 0 57) len) (bits x 25 2 ^^^ 1) (x.getLsbD 24) (tok != 0) tok [a]) s

/-- `aset` and `ascale`: a stream of 4-byte elements goes to the integrators from a on. `bad` is what an element's content
traps with. -/
def vaultStream (p a b : BitVec 5) (bad : Word32 → Nat → Option (TrapClass × Word)) (mk : Nat → List Word32 → VAsk)
    (s : State) : Out :=
  issue false true 0 [ptrField 0 p, .src 1 a, .src 2 b] (fun s => do
    let first ← rd s a
    let n ← rd s b
    let gs ← spanGroups first n
    heldAll s gs
    configuredAll s gs
    let st := srcStrm p 4
    let s1 := s.performAll s.cur
    match firstOf n.toNat [st] s1.badElem with
    | some (cls, info, ea) => .error (.trap cls info ea)
    | none => match firstOf n.toNat [st] s1.badRead with
      | some (u, info, ea) => .error (.bad u.1 u.2 info ea)
      | none =>
        let vals : List Word32 := (s1.column n.toNat st).map fun w => bits w 0 32
        match vals.zipIdx.findSome? fun x => bad x.1 x.2 with
        | some (cls, info) => .error (.trap cls info 0)
        | none =>
          let s2 := s1.askAll [(first.toNat / 2048, mk first.toNat vals)] [a, b] none
          return s2.modMe fun c => { c with p := advancePtrs n.toNat [st] c.p }) s

def execAset (p a b : BitVec 5) (s : State) : Out :=
  vaultStream p a b (fun v j => if (decodeF .f32 v.toNat).finite then none
    else some (.vault, BitVec.ofNat 64 (4 + 256 * j))) .setInit s

def execAscale (p a b : BitVec 5) (s : State) : Out :=
  vaultStream p a b (fun v j => if -32 ≤ v.toInt ∧ v.toInt ≤ 31 then none else some (.opnd, opndInfo 0 j))
    (fun first vals => .setScale first (vals.map BitVec.toInt)) s

def execArun (tok a b : BitVec 5) (e : BitVec 3) (s : State) : Out :=
  issue false true 0 (vaultTok tok ++ [.src 1 a, .src 2 b, .ext e.toNat 2, .token]) (fun s => do
    let mv ← rd s a
    let m ← groupMask mv true 1
    heldAll s (maskGroups m)
    let limit ← rd s b
    let x := vget 0 s.me.e e.toNat
    let y := vget 0 s.me.e (e.toNat + 1)
    let threshold : BitVec 16 := bits x 0 16
    let holdTicks : BitVec 16 := bits x 16 16
    let tau := (bits x 32 4 : BitVec 4).toNat
    let timeout : Word32 := bits y 0 32
    let bad := opndInfo 3 e.toNat
    need (bits x 39 25 == (0 : BitVec 25) && tau ≤ 10) .opnd bad
    need (bits y 32 32 == (0 : Word32)) .opnd (opndInfo 3 (e.toNat + 1))
    need (bits limit 32 32 == (0 : Word32)) .opnd (opndInfo 2 0)
    need (threshold == 0 || holdTicks != 0) .opnd bad
    need (threshold != 0 || timeout == 0) .opnd bad
    need (bits limit 0 32 != (0 : Word32) || timeout != 0) .opnd bad
    return s.takeToken (.arun m (bits limit 0 32) threshold holdTicks tau timeout none) (bits x 37 2 ^^^ 1)
      (x.getLsbD 36) (tok != 0) tok [a, b]) s

def execAsample (a b : BitVec 5) (e : BitVec 3) (s : State) : Out :=
  issue false true 0 [.src 1 a, .src 2 b, .ext e.toNat 1] (fun s => do
    let first ← rd s a
    let n ← rd s b
    let gs ← spanGroups first n
    let x := vget 0 s.me.e e.toNat
    need (bits x 58 6 == (0 : BitVec 6)) .opnd (opndInfo 3 e.toNat)
    heldAll s gs
    configuredAll s gs
    let s1 := s.performAll s.cur
    let scratch := x.getLsbD 57
    let dest := if scratch then zext (bits x 0 57 : BitVec 57) else canon (bits x 0 57)
    let addrs := (List.range n.toNat).map fun j => dest + BitVec.ofNat 64 (8 * j)
    let (ls, s2) ← if scratch then do
        let ls ← addrs.mapM fun ea => (s1.scratch s1.cur false ea 8 Acc.store.code).map fun x => (x.loc, x.via)
        pure (ls, s1)
      else State.targets 8 addrs s1
    return s2.askAll [(first.toNat / 2048, .sample first.toNat n.toNat ls)] [a, b] none) s

def execAstop (d a : BitVec 5) (s : State) : Out :=
  issue false true 0 [.dst 0 d, .src 1 a] (fun s => do
    let mv ← rd s a
    let m ← groupMask mv false 1
    heldAll s (maskGroups m)
    return s.askAll (diesOf m .stop) [a] (some d)) s

def execAcal (d a : BitVec 5) (s : State) : Out :=
  issue false true 0 [.dst 0 d, .src 1 a] (fun s => do
    let mv ← rd s a
    let m ← groupMask mv false 1
    heldAll s (maskGroups m)
    hold (!s.groupRuns m) (.runPending m)
    return s.askAll (diesOf m .calibrate) [a] (some d)) s

/-- The calibration of every column of a group is valid. -/
def State.calibrated (s : State) (g : Nat) : Bool := (List.range 8).all fun c => (s.calib (8 * g + c)).v

/-- The status word of a group (R275). -/
def State.groupStatus (s : State) (g : Nat) : Word :=
  let v := s.vgroup g
  let cfg := match v.cfg with
    | .unconfigured => 0
    | .configuring => 1
    | .configured => 2
  let waits := s.groupHas ((1 : BitVec 16) <<< g) fun t => t.op.isRun && (t.state == .queued || t.state == .permit)
  let run := match v.run with
    | .running => 2
    | .calibrating => 3
    | _ => if waits then 1 else 0
  BitVec.ofNat 64 (cfg + 4 * run + 16 * v.last.toNat + (if s.calibrated g then 256 else 0) + 65536 * v.runTime.toNat +
    2 ^ 48 * v.cfgGen.toNat)

def execAstat (d a : BitVec 5) (s : State) : Out :=
  issue false true 0 [.dst 0 d, .src 1 a] (fun s => do
    let g ← rd s a
    need (g.toNat < 16) .opnd (opndInfo 1 0)
    heldAll s [g.toNat]
    return finish s [a] d (s.groupStatus g.toNat)) s

/-! ## Configuration (R262, R378, R379) -/

/-- The words of an image, in order, until a read fails: class, address, bad unit. -/
def State.imageWords (s : State) (h : BitVec 32) :
    List Word → Grans → List Word → List Word × Option (TrapClass × Word × Option (Nat × Nat)) × State
  | [], _, ws => (ws, none, s)
  | va :: vas, g, ws =>
    match s.engGrans h .load [va] g with
    | .error e => (ws, some e, s)
    | .ok (g', s1) =>
      match s1.badUnit (.phys (g'.place va)) 8 with
      | some u => (ws, some (.memerr, va, some u), s1)
      | none => State.imageWords (s1.engReads h g' [(va, endsLine va vas)]) h vas g' (ws ++ [ofBytes 64 (s1.physRead (g'.place va) 8)])

/-- An `acfg` token ends in a fault: its groups are left unconfigured. -/
def State.acfgFault (s : State) (h : BitVec 32) (gs : List Nat) (fault : Word) : State :=
  (s.unconfigure gs).endToken h .faulted 0 fault

/-- The capitals have read and expanded the image of an `acfg` token. -/
def execAcfgComplete (tok : BitVec 32) (s : State) : Out :=
  let t := s.token tok
  match t.op with
  | .acfg mask img len =>
    if t.state ≠ .running then .next s
    else
      let gs := maskGroups mask
      let p := s.part t.part.toNat
      let addrs := (List.range (len / 8)).map fun j => canon img + BitVec.ofNat 64 (8 * j)
      let r := s.imageWords tok addrs [] []
      let s1 := r.2.2
      let out := expandImage p.vaultGroups.contains (fun g => (s.vgroup g).dict) len gs 0 r.1
      -- the capitals check each word as they read it, so an image error before the failing read decides
      let early := match out with
        | .error o => if o < 8 * r.1.length then some o else none
        | .ok _ => none
      match early, r.2.1 with
      | some o, _ => .next (s1.acfgFault tok gs (vaultRecord 2 o))
      | none, some (cls, va, u) =>
        .next ((s1.engFails tok cls va u).acfgFault tok gs (tokRecord cls va))
      | none, none => match out with
        | .error o => .next (s1.acfgFault tok gs (vaultRecord 2 o))
        | .ok cells =>
          let s2 := cells.foldl (fun s c => s.modVGroup c.1 fun v => v.configure c.2) s1
          .next (s2.endToken tok .done 0 0)
  | _ => .next s

/-! ## Samples (R270, R382) -/

/-- The real number of a binary32 pattern. -/
def rat32 (x : Word32) : Rat :=
  match decodeF .f32 x.toNat with
  | .fin neg m e => (if neg then -(m : Rat) else (m : Rat)) * ratPow2 e
  | _ => 0

/-- The integer nearest to x, held to the 16-bit codes. -/
def codeOf (x : Rat) : Int :=
  let n := (x + 1 / 2).floor
  if n < -32768 then -32768 else if 32767 < n then 32767 else n

/-- The code that a converter gives for a held value (R382): a free value (DESIGN CHOICE, log entry 31), within c_adc + c_gain × |x_f| of
the value where the column is calibrated; the nearest code stands in for one that is not. -/
def sampleCode (c : Calib) (held : Rat) (free : BitVec 16) : Int :=
  let x : Rat := (free.toInt : Rat) / 32768
  if !c.v || ratAbs (x - held) ≤ rat32 c.cAdc + rat32 c.cGain * ratAbs x then free.toInt else codeOf (held * 32768)

/-- The half-width in fabric units (R270), a binary32 pattern; `x` the pattern of |x_f|. -/
def halfWidth (c : Calib) (x t : Nat) : Nat :=
  let up := fun (a b : Nat) => (addV .f32 .up false (decodeF .f32 a) (decodeF .f32 b)).1
  let gain := (mulV .f32 .up false (decodeF .f32 c.cGain.toNat) (decodeF .f32 x)).1
  let drift := match decodeF .f32 c.cDrift.toNat with
    | .fin neg m e => (roundDy .f32 .up false false ((Dy.of neg m e).mul ⟨t, 0⟩)).1
    | _ => c.cDrift.toNat
  up (up (up c.cAdc.toNat gain) drift) c.cOffset.toNat

/-- A binary32 pattern times 2^k. -/
def scale32 (x : Nat) (k : Int) : Word32 :=
  match decodeF .f32 x with
  | .fin neg m e => BitVec.ofNat 32 (roundDy .f32 .up false neg ((Dy.of neg m e).scale k)).1
  | _ => BitVec.ofNat 32 x

/-- The sample of integrator i with a converter code: value in the low word, half-width in the high. -/
def State.sampleOf (s : State) (i : Nat) (code : Int) : Word :=
  let k := s.scaleOf i
  let c := s.calib (i / 32)
  let x := (roundDy .f32 .ne false false ⟨code, -15⟩).1
  let e := if code = -32768 ∨ code = 32767 ∨ !c.v then Fmt.f32.ovfMag
    else halfWidth c (x % 0x8000_0000) (s.vgroup (i / 256)).runTime.toNat
  zext (scale32 x k) ||| (zext (scale32 e k) <<< 32)

/-- The samples of n integrators from `first` on, taken at one instant, with their places; 0 for an integrator of a group that
the partition no longer holds (R386; DESIGN CHOICE, log entry 74). -/
def State.takeSamples (s : State) (part first : Nat) (ls : List (Loc × Via)) :
    List (Loc × Via × Word) × State :=
  let cells := ls.zipIdx.map fun l =>
    let i := first + l.2
    (l.1.1, l.1.2, if !(s.part part).vaultGroups.contains (i / 256) then 0 else s.sampleOf i (sampleCode (s.calib (i / 32)) (s.fabricOf i) (Config.converter (s.fresh + l.2))))
  (cells, { s with fresh := s.fresh + ls.length })

/-- The converters of a die are done with a thread's held values, 32 ticks after the instant. -/
def execSampleConversionDone (thr : Nat) (s : State) : Out :=
  let due := fun (die : Nat) => (s.vdie die).samples.find? fun h => h.thr == thr && h.since + 32 ≤ (s.vdie die).ticks
  let put := fun (die : Nat) (h : Held) =>
    let s1 := s.modVDie die fun v => { v with samples := v.samples.filter fun x => x != h }
    (h.cells.foldl (fun s c => ((s.crossWith (dieOfCore (coreOf thr)) (dieOfCore c.2.1.home) c.1.vert 8).cacheWrite c.2.1 c.1 8).write c.1
      (toBytes 8 c.2.2)) s1).answer thr h.who 0
  match due 0, due 1 with
  | some h, _ => .next (put 0 h)
  | none, some h => .next (put 1 h)
  | none, none => .next s

/-! ## Calibration (R274, R384, R385) -/

/-- A token runs at a group, awaits its permit there, or is the choice of its groups: what reached the die before a calibration
goes first (R276). -/
def State.groupTaken (s : State) (g : Nat) : Bool :=
  s.groupHas ((1 : BitVec 16) <<< g) (fun t => t.state == .running || t.state == .permit) ||
    (s.choice (.vault g)).any fun h => ((s.token h).op.engines (hCourse h)).all fun e => s.choice e == some h

/-- A calibration that may begin does: no named group has a token that goes first or is being calibrated, and no calibration of one
that arrived before has yet to begin (R257). Held state is lost. -/
def State.beginCal (s : State) (die : Nat) (c : Calibrating) : State :=
  let gs := maskGroups c.mask
  let before := (s.vdie die).cals.takeWhile fun x => x != c
  if c.begun || before.any (fun x => !x.begun && x.mask &&& c.mask != 0) ||
      gs.any (fun g => s.groupTaken g || (s.vgroup g).run == .calibrating) then s
  else
    let s1 := gs.foldl (fun s g => s.modVGroup g fun v =>
      { v with run := .calibrating, x := [], runTime := 0, counting := false }) s
    s1.modVDie die fun v => { v with cals := v.cals.map fun x =>
      if x = c then { c with begun := true, since := v.ticks } else x }

def State.beginCals (s : State) (die : Nat) : State := (s.vdie die).cals.foldl (fun s c => s.beginCal die c) s

/-- A measured constant is no less than `lo`, a number that is not negative: a bound below the half step of the converter's codes
(R382), or below 0, would bound nothing (R271). -/
def atLeast (lo x : Word32) : Word32 :=
  if x.getLsbD 31 || ((decodeF .f32 x.toNat).finite && decide (rat32 x < rat32 lo)) then lo else x

/-- What a column measures: free constants (DESIGN CHOICE, log entry 32) that are bounds, c_adc of at least 2^-16. -/
def measuredBounds (n : Nat) : Word32 × Word32 × Word32 × Word32 :=
  let m := Config.measured n
  (atLeast 0x3780_0000 m.1, atLeast 0 m.2.1, atLeast 0 m.2.2.1, atLeast 0 m.2.2.2)

/-- The constants that a column measures meet the limits of R384. -/
def withinLimits (m : Word32 × Word32 × Word32 × Word32) : Bool :=
  rat32 m.1 ≤ ratPow2 (-13) && rat32 m.2.1 ≤ ratPow2 (-10) && rat32 m.2.2.1 ≤ ratPow2 (-28) && rat32 m.2.2.2 ≤ ratPow2 (-12)
    && [m.1, m.2.1, m.2.2.1, m.2.2.2].all fun x => (decodeF .f32 x.toNat).finite

/-- A group takes what its eight columns measured, or fails: the state, and its bit. -/
def State.calibrateGroup (s : State) (die g : Nat) (failed : Bool) : State × Bool :=
  let v := s.vdie die
  let ms := (List.range 8).map fun c => (8 * g + c, measuredBounds (s.fresh + c))
  let ok := !failed && ms.all fun m => withinLimits m.2
  let s1 := { s with fresh := s.fresh + 8 }.modVGroup g fun v => { v with run := .holding }
  (ms.foldl (fun s m => s.modCalib m.1 fun c =>
    if ok then { c with cAdc := m.2.1, cGain := m.2.2.1, cDrift := m.2.2.2.1, cOffset := m.2.2.2.2, v := true
                        temp := v.temp, calTick := BitVec.ofNat 64 v.ticks }
    else { c with v := false }) s1, ok)

/-- The end of a thread's calibration on a die. -/
def State.endCal (s : State) (die : Nat) (c : Calibrating) : State :=
  let r := (maskGroups c.mask).foldl (fun (acc : State × Word) g =>
    let x := acc.1.calibrateGroup die g c.failed
    (x.1, if x.2 then acc.2 ||| ((1 : Word) <<< g) else acc.2)) (s, 0)
  let s1 := r.1.modVDie die fun v => { v with cals := v.cals.filter fun x => x != c }
  let s2 := postAll ((maskGroups c.mask).map fun g => .tokenSelect (.vault g)) ((s1.answer c.thr c.who r.2).beginCals die)
  s2.post (.vaultRequest die)

/-- A calibration of a thread ends, 2^16 ticks after it began. -/
def execCalibrationDone (thr : Nat) (s : State) : Out :=
  let due := fun (die : Nat) =>
    (s.vdie die).cals.find? fun c => c.begun && c.thr == thr && c.since + 65536 ≤ (s.vdie die).ticks
  match due 0, due 1 with
  | some c, _ => .next (s.endCal 0 c)
  | none, some c => .next (s.endCal 1 c)
  | none, none => .next s

/-- A column's calibration is 2^36 ticks old. -/
def State.expire (s : State) (column : Nat) : State :=
  let c := s.calib column
  if c.v && c.calTick.toNat + 2 ^ 36 ≤ (s.vdie (column / 64)).ticks then s.modCalib column fun c => { c with v := false }
  else s

def execCalibrationExpiry (column : Nat) (s : State) : Out := .next (s.expire column)

/-- The thermal monitor reports a die's temperature: columns calibrated more than 8 °C away become invalid. -/
def execCalibrationTemperatureDrift (die : Nat) (temp : BitVec 8) (s : State) : Out :=
  let s1 := s.modVDie die fun v => { v with temp := temp }
  let far := fun (c : Calib) => temp.toNat + 8 < c.temp.toNat || c.temp.toNat + 8 < temp.toNat
  .next (((List.range 64).map (64 * die + ·)).foldl (fun s k =>
    s.modCalib k fun c => if far c then { c with v := false } else c) s1)

/-! ## Arrival of a request (R257, R266, R273) -/

/-- The values that a run captures: each integrator's initial value and exponent. -/
def State.captured (s : State) (mask : BitVec 16) : List (Nat × Word32 × Int) :=
  (maskGroups mask).flatMap fun g => (List.range 256).map fun p =>
    (256 * g + p, Tbl.get 0 (s.vgroup g).init p, Tbl.get 0 (s.vgroup g).scale p)

/-- Values written to the integrators from `first` on, of the groups that a partition holds. -/
def State.putInteg {α : Type} (s : State) (part first : Nat) (vals : List α) (f : VGroup → Nat → α → VGroup) : State :=
  vals.zipIdx.foldl (fun s x =>
    if (s.part part).vaultGroups.contains ((first + x.2) / 256) then
      s.modVGroup ((first + x.2) / 256) fun v => f v ((first + x.2) % 256) x.1
    else s) s

/-- The groups of a mask that a partition holds. -/
def State.heldMask (s : State) (part : Nat) (mask : BitVec 16) : BitVec 16 :=
  ((maskGroups mask).filter (s.part part).vaultGroups.contains).foldl (fun m g => m ||| (1 : BitVec 16) <<< g) 0

/-- The running `arun` tokens of a partition at a mask's groups. -/
def State.runsAt (s : State) (part : Nat) (mask : BitVec 16) : List (BitVec 32) :=
  (s.allTokens.filter fun t => t.2.state == .running && t.2.part.toNat == part && (match t.2.op with
    | .arun m _ _ _ _ _ _ => m &&& mask != 0
    | _ => false)).map Prod.fst

/-- A vault token has reached its groups. A handle that is stale by then has no effect (R276). -/
def State.reach (s : State) (h : BitVec 32) : State :=
  let t := s.token h
  let op := match t.op with
    | .arun m l th ho ta ti none => TokOp.arun m l th ho ta ti (some (s.captured m))
    | op => op
  let s1 := { s with nextArr := s.nextArr + 1 }.modToken h fun t => { t with op := op, here := true, arr := s.nextArr }
  if t.here || (s.tokenAt h).isNone || t.state != .queued then s else postAll ((t.op.engines (hCourse h)).map .tokenSelect) s1

/-- A die applies a request, to groups that the issuer's partition still holds (R386; DESIGN CHOICE, log entry 74). -/
def State.applyAsk (s : State) (die : Nat) (r : VReq) : State :=
  match r.ask with
  | .dict mask first ws =>
    ((maskGroups (s.heldMask r.part mask)).foldl (fun s g => s.modVGroup g fun v =>
      { v with dict := ws.zipIdx.foldl (fun t x => Tbl.set 0 t (first + x.2) x.1) v.dict }) s).answer r.thr r.who 0
  | .setInit first vals =>
    (s.putInteg r.part first vals fun v p x => { v with init := Tbl.set 0 v.init p x }).answer r.thr r.who 0
  | .setScale first vals =>
    (s.putInteg r.part first vals fun v p x => { v with scale := Tbl.set 0 v.scale p x }).answer r.thr r.who 0
  | .capture h => s.reach h
  | .sample first _ ls =>
    let x := s.takeSamples r.part first ls
    x.2.modVDie die fun v => { v with samples := v.samples ++ [⟨r.thr, r.who, v.ticks, x.1⟩] }
  | .stop mask =>
    let hs := s.runsAt r.part mask
    (hs.foldl State.stopRun s).answer r.thr r.who (BitVec.ofNat 64 hs.length)
  | .calibrate mask =>
    let c : Calibrating := ⟨r.thr, r.who, s.heldMask r.part mask, false, 0, false⟩
    (s.modVDie die fun v => { v with cals := v.cals ++ [c] }).beginCal die c

/-- The groups that n integrators from `first` on lie in. -/
def groupSpan (first n : Nat) : List Nat := (List.range 16).filter fun g => first / 256 ≤ g && g ≤ (first + n - 1) / 256

/-- The groups of a request. -/
def State.askGroups (s : State) (die : Nat) : VAsk → List Nat
  | .dict mask _ _ => maskGroups mask
  | .setInit first vals => groupSpan first vals.length
  | .setScale first vals => groupSpan first vals.length
  | .capture h => ((s.token h).op.engines (hCourse h)).filterMap fun e => match e with
    | .vault g => if vaultDieOf g = die then some g else none
    | _ => none
  | .sample first n _ => groupSpan first n
  | .stop mask => maskGroups mask
  | .calibrate mask => maskGroups mask

/-- A sample of a group that is being calibrated is taken after the calibration (R388). Any request waits behind a calibration of
one of its groups that arrived before it and has yet to begin (R257), but a stop, which lets that calibration begin. -/
def State.askWaits (s : State) (die : Nat) (a : VAsk) : Bool :=
  let gs := s.askGroups die a
  match a with
  | .stop _ => false
  | .calibrate _ => false
  | .sample _ _ _ => gs.any fun g => (s.vgroup g).run == .calibrating ||
      (s.vdie die).cals.any fun c => !c.begun && c.mask.getLsbD g
  | _ => gs.any fun g => (s.vdie die).cals.any fun c => !c.begun && c.mask.getLsbD g

/-- The oldest request reaches a vault die. -/
def execVaultRequestArrival (die : Nat) (s : State) : Out :=
  match (s.vdie die).reqs with
  | [] => .next s
  | r :: rs =>
    if s.askWaits die r.ask then .next s
    else
      let s1 := (s.modVDie die fun v => { v with reqs := rs }).applyAsk die r
      .next (if rs.isEmpty then s1 else s1.post (.vaultRequest die))

/-! ## The tick (R267, R373, R381) -/

/-- A run ends: its groups hold. -/
def State.endRun (s : State) (h : BitVec 32) (gs : List Nat) (last : BitVec 4) (st : TokState) (fin : BitVec 16)
    (fault : Word) : State := (s.endRunGroups gs last).endToken h st fin fault

/-- The enabled integrators of a run, by device number, ascending. -/
def State.runInts (s : State) (gs : List Nat) : List Nat :=
  gs.flatMap fun g => (s.vgroup g).integrators.map (256 * g + ·)

/-- The part of its summer that an integrator moves by in a tick of the run that its group is in: a tick is 10 ns of τ = 2^tau µs
(R265, R380). One that no run integrates holds its value. -/
def State.rate (s : State) (i : Nat) : Rat :=
  let v := s.vgroup (i / 256)
  match v.token.map fun h => (s.token h).op with
  | some (.arun _ _ _ _ tau _ _) =>
    if v.run = .running ∧ v.enabled (i % 256) then 1 / (100 * 2 ^ tau) else 0
  | _ => 0

/-- The integrators of a vault die that runs integrate. -/
def State.moving (s : State) (die : Nat) : List Nat :=
  ((List.range 8).map (8 * die + ·)).flatMap fun g =>
    if (s.vgroup g).run = .running then (s.vgroup g).integrators.map (256 * g + ·) else []

/-- The greatest of numbers that are not negative. -/
def greatest (xs : List Rat) : Rat := xs.foldl max 0

/-- What a summer's output moves by, at most, for a movement of 1 of the integrators: the sum over its paths of coefficient times
the source's slope, with no integrator further than 8 times its rate from its value. -/
def State.slope (s : State) (i : Nat) : Rat :=
  let g := i / 256
  (((s.paths g).filter fun q => q.pos == i % 256).map fun q =>
    let u : Rat := match q.src with
      | .integ _ => 1
      | .one => 0
      | .prod en x y =>
        if en then ratAbs (s.fabricOf x) + ratAbs (s.fabricOf y) + 8 * s.rate x + 8 * s.rate y else 0
    ratAbs ((q.coef : Rat) / 2048) * ratPow2 (Tbl.get 0 (s.vgroup g).eff q.cell) * u).foldl (· + ·) 0

/-- The integrators that the summer of an integrator reads. -/
def State.sourcesOf (s : State) (i : Nat) : List Nat :=
  ((s.paths (i / 256)).filter fun q => q.pos == i % 256).flatMap fun q => match q.src with
    | .integ j => [j]
    | .one => []
    | .prod en x y => if en then [x, y] else []

/-- Integrators with all that move (`ms`) and that their summers read, directly or through others that move. `fuel` bounds the ways
between two. -/
def State.upstream (s : State) (ms : List Nat) : Nat → List Nat → List Nat
  | 0, is => is
  | fuel + 1, is =>
    let more := ((is.flatMap s.sourcesOf).filter fun j => ms.contains j && !is.contains j).eraseDups
    if more.isEmpty then is else s.upstream ms fuel (is ++ more)

/-- The integrators that run and that an integrator depends on, itself among them. -/
def State.coupled (s : State) (i : Nat) : List Nat :=
  let ms := s.moving (i / 2048)
  ms.filter (s.upstream ms ms.length [i]).contains

/-- How far an integrator and those that it depends on may move in a tick, whatever their circuits do that obeys R373: no further than
the fastest of them would at its present summer, times 3 to the power of the steepest summer's growth in the tick (Grönwall's bound,
e < 3). Where the summers of all of them are 0, none moves. -/
def State.reachOf (s : State) (i : Nat) : Rat :=
  greatest ((s.coupled i).map fun j => ratAbs (s.summer (j / 256) (j % 256)) * s.rate j) *
    ((3 ^ (greatest ((s.coupled i).map fun j => s.slope j * s.rate j)).ceil.toNat : Nat) : Rat)

/-- How far an integrator may move in a tick: also no further than a summer clipped at ±8.0 moves it. -/
def State.moves (s : State) (i : Nat) : Rat := min (8 * s.rate i) (s.reachOf i)

/-- How far an input of a summer may move in a tick. -/
def State.drift (s : State) (g : Nat) (q : Path) : Rat :=
  let u : Rat := match q.src with
    | .integ j => s.moves j
    | .one => 0
    | .prod en x y =>
      if en then ratAbs (s.fabricOf x) * s.moves y + ratAbs (s.fabricOf y) * s.moves x + s.moves x * s.moves y else 0
  ratAbs ((q.coef : Rat) / 2048) * ratPow2 (Tbl.get 0 (s.vgroup g).eff q.cell) * u

/-- The mean of a summer's output over the tick that begins: within what its inputs may move it by, of what it is now (R373). The
circuits give the mean and no rule a number for it: a free value (DESIGN CHOICE, log entry 30) in that interval. -/
def State.meanSum (s : State) (i n : Nat) : Rat :=
  let g := i / 256
  let p := i % 256
  let now := s.summer g p
  let d := (((s.paths g).filter fun q => q.pos == p).map (s.drift g)).foldl (· + ·) 0
  between (between (-8) 8 (now - d)) (between (-8) 8 (now + d)) (Config.integrate n)

/-- The values of a run's integrators at the next tick: x_f + (1 / τ) × the mean of s over the tick (R373). -/
def State.nextValues (s : State) (gs : List Nat) (tau : Nat) : List (Nat × Rat) :=
  (s.runInts gs).map fun i => (i, s.fabricOf i + s.meanSum i (s.fresh + i) / (100 * 2 ^ tau))

/-- The integration of a tick: every run's integrators take the values that follow from the state before it (R373, R381). -/
def State.integrate (s : State) (hs : List (BitVec 32)) : State :=
  let vals := hs.flatMap fun h => match (s.token h).op with
    | .arun mask _ _ _ tau _ _ => s.nextValues (maskGroups mask) tau
    | _ => []
  vals.foldl (fun s' x => s'.modVGroup (x.1 / 256) fun v => { v with x := Tbl.set 0 v.x (x.1 % 256) x.2 })
    { s with fresh := s.fresh + 4096 }

/-- One more tick, or none, within the settle bound, for each integrator of the run. -/
def State.countQuiet (s : State) (gs : List Nat) (threshold : BitVec 16) : State :=
  (s.runInts gs).foldl (fun s' i =>
    let still := ratAbs (s.summer (i / 256) (i % 256)) ≤ (threshold.toNat : Rat) / 65536
    s'.modVGroup (i / 256) fun v =>
      { v with quiet := Tbl.set 0 v.quiet (i % 256) (if still then Tbl.get 0 v.quiet (i % 256) + 1 else 0) }) s

/-- The settle time-out, and the time limit, of a running token at its run time. -/
def State.timeUp (s : State) (h : BitVec 32) (settle : Bool) : State :=
  let t := s.token h
  match t.op with
  | .arun mask limit _ _ _ timeout _ =>
    let gs := maskGroups mask
    let now := (s.vgroup (gs.headD 0)).runTime
    let bound := if settle then timeout else limit
    if t.state = .running ∧ bound ≠ 0 ∧ now = bound then
      (if settle then s.endRun h gs 2 .done 2 0 else s.endRun h gs 3 .done 3 0)
    else s
  | _ => s

/-- The end tests of a run at a tick, in order, after the integration. -/
def State.runTick (s : State) (h : BitVec 32) : State :=
  match (s.token h).op with
  | .arun mask _ threshold holdTicks _ _ _ =>
    let gs := maskGroups mask
    let now := (s.vgroup (gs.headD 0)).runTime.toNat
    match (s.runInts gs).find? fun i => 1 < ratAbs (s.fabricOf i) with
    | some i => s.endRun h gs 4 .faulted 0 (asatRecord i now)
    | none =>
      let s2 := if threshold = 0 then s else s.countQuiet gs threshold
      let settled := threshold != 0 && holdTicks.toNat ≤ now &&
        (s2.runInts gs).all fun i => holdTicks.toNat ≤ Tbl.get 0 (s2.vgroup (i / 256)).quiet (i % 256)
      if settled then s2.endRun h gs 1 .done 1 0 else (s2.timeUp h true).timeUp h false
  | _ => s

/-- The events that a tick makes due. -/
def State.tickDue (s : State) (die : Nat) : List Due :=
  let v := s.vdie die
  ((v.samples.filter fun h => h.since + 32 ≤ v.ticks).map fun h => .sampleDone h.thr)
    ++ ((v.cals.filter fun c => c.begun && c.since + 65536 ≤ v.ticks).map fun c => .calibrated c.thr)

/-- A tick of a vault die. No tick passes while the device is frozen (R387). -/
def execVaultTick (die : Nat) (s : State) : Out :=
  if s.fw.frozen then .next s
  else
    let gs := (List.range 8).map (8 * die + ·)
    let s1 := s.modVDie die fun v => { v with ticks := v.ticks + 1 }
    let s2 := gs.foldl (fun s g => s.modVGroup g fun v =>
      if v.counting && v.runTime != 0xFFFF_FFFF then { v with runTime := v.runTime + 1 } else v) s1
    let s3 := (((List.range 64).map (64 * die + ·))).foldl State.expire s2
    let hs := (s3.allTokens.filter fun t => t.2.state == .running && t.2.op.isRun && t.2.op.vaultDie == some die).map Prod.fst
    let s4 := (hs.foldl State.runTick (s3.integrate hs)).beginCals die
    .next (postAll (s4.tickDue die) s4)

def execSettleTimeout (tok : BitVec 32) (s : State) : Out := .next (s.timeUp tok true)
def execRunTimeLimit (tok : BitVec 32) (s : State) : Out := .next (s.timeUp tok false)

end Sys2Proof.Machine
end

