-- ==== Sys2Proof/Machine/Host.lean ====
section
/-! DEFINITION. The host and firmware: host accesses (R401-R403), the command page (R417), attestation (R414), freeze and
readout (R416, R418, R419), debug halts (R420), scrubbing (R355), device reset (R411-R414). -/

namespace Sys2Proof.Machine

/-! ## Host accesses (R401-R403, R417) -/

/-- The running rings whose control block a host write has just set running (R358). -/
def State.startedRings (s t : State) : List (Nat × Nat) :=
  s.parts.flatMap fun p => ((List.range 8).filter fun r =>
    (s.ring p.1 r).cb != 0 && (s.ring p.1 r).state != 1 && (t.ring p.1 r).state == 1).map fun r => (p.1, r)

/-- A byte of a command page as the host reads it (R417). -/
def CmdPage.byte (p : CmdPage) (o : Nat) : Byte :=
  match o with
  | 0 => p.op
  | 1 => p.status
  | 2 => p.reason
  | 3 => 0
  | _ => if o < 8 then (toBytes 4 p.tag).getD (o - 4) 0 else if o < 64 then p.args.getD (o - 8) 0 else 0

/-- A command page from the bytes of its block. -/
def CmdPage.ofBlock (b : Nat → Byte) : CmdPage :=
  { op := b 0, status := b 1, reason := b 2, tag := ofBytes 32 ((List.range 4).map fun i => b (4 + i))
    args := (List.range 56).map fun i => b (8 + i) }

/-- The port and offset of a host access: the offsets of port 1 stand from 2^48 on (DESIGN CHOICE, log entry 46). -/
def portOf (addr : Nat) : Nat := addr / 2 ^ 48 % 2
def offsetOf (addr : Nat) : Nat := addr % 2 ^ 48

/-- Where the command page and the doorbell pages begin (R402). -/
def cmdWindow : Nat := 0xC000_0000_0000
def bellWindow : Nat := 0x8000_0000_0000

/-- A command waits until those before it are executed (R417). -/
def State.later (s : State) (i : Cmd) : State := { s with fw := { s.fw with waiting := s.fw.waiting ++ [i] } }

/-- The command in a block that the host has handed over: its arguments are what `Config.blockArgs` reads in it (DESIGN CHOICE, log
entry 48). -/
def CmdPage.command (p : CmdPage) (port : Nat) : Cmd :=
  let h : CmdHead := ⟨port, p.tag⟩
  match p.op.toNat, Config.blockArgs p.op p.args with
  | 1, _ => .bootstat h
  | 6, _ => .freeze h
  | 7, _ => .thaw h
  | 2, some a => .partset h a.cfg
  | 3, some a => .partdel h a.part
  | 4, some a => .attest h a.addr a.nonce
  | 5, some a => .mgmtq h a.addr
  | 8, some a => .dhalt h a.target a.writes
  | 9, some a => .drun h a.thr a.writes
  | 10, some a => .dstep h a.thr
  | 11, some a => .floor h a.version a.sig
  | op, _ => .refuse port (if 2 ≤ op && op ≤ 11 then 2 else 1)

/-- A host write to its command page: a status byte of 1 hands the block to the firmware, which executes commands one at a time, in the
order that they arrive. The page takes no command but BOOTSTAT before the boot ends. -/
def State.writeCmd (s : State) (port o : Nat) (bytes : List Byte) : State :=
  let old := vget CmdPage.zero s.fw.pages port
  let b := fun k => if o ≤ k && k < o + bytes.length then bytes.getD (k - o) 0 else old.byte k
  let p := CmdPage.ofBlock b
  let s := { s with fw := { s.fw with pages := vset s.fw.pages port p } }
  if !(o ≤ 1 && 1 < o + bytes.length && p.status == 1) || (s.fw.boot != 1 && p.op != 1) then s else s.later (p.command port)

/-- What a host read at a port offset returns (R402): DRAM, a command page, or 0. -/
def State.hostByte (s : State) (addr : Nat) : Byte :=
  let o := offsetOf addr
  if inDram o then (s.physRead o 1).getD 0 0
  else if cmdWindow ≤ o && o < cmdWindow + 4096 then (vget CmdPage.zero s.fw.pages (portOf addr)).byte (o - cmdWindow)
  else 0

/-- A read of the host returns bytes. -/
def State.hostReads (s : State) (bs : List Byte) : State := { s with fw := { s.fw with hostRead := bs } }

/-- A host write to device DRAM: performed at its home, or dropped and reported. -/
def State.writeDram (s : State) (addr : Nat) (bytes : List Byte) : State :=
  let open' := fun (g : Nat) => s.parts.any fun p => p.2.valid && inRanges p.2.writable g
  let gs := (List.range ((addr + bytes.length - 1) / 65536 - addr / 65536 + 1)).map (addr / 65536 + ·)
  if gs.all open' then
    let s1 := (s.hostAccess addr bytes.length true).physWrite addr bytes
    let s2 := (s.startedRings s1).foldl (fun s x => s.clearReason x.1 x.2) s1
    postAll ((s.startedRings s1).map fun x => .packet x.1 x.2) s2
  else s.mgmtReport 5 0 (BitVec.ofNat 32 (addr / 2 ^ 38)) (BitVec.ofNat 64 addr)

/-- Rings whose 8-byte words of a doorbell page a write of n bytes touches are rung, in order (R402, R358), by a flit each. -/
def State.ringBells (s : State) (k o n : Nat) : State :=
  let page := (o - bellWindow) / 4096
  ((List.range 8).filter fun r => o % 4096 < 8 * r + 8 && 8 * r < o % 4096 + n).foldl (fun s r =>
    State.ringBell page r (s.hostBell k (some ((s.ring page r).base / 2 ^ 38 % 8)))) s

/-- A host access through the windows of its ports (R402): the device DRAM window, a doorbell page, a command page; elsewhere a
write has no effect and a read returns 0. No bytes: a read of one byte. -/
def execHostWriteDeviceDram (addr : Nat) (bytes : List Byte) (s : State) : Out :=
  let o := offsetOf addr
  let k := s.upPort (48 + portOf addr)
  if bytes.isEmpty then
    .next ((if inDram o then (s.hostFlits k o 1 false).hostAccess o 1 false else (s.hostBell k none).portOut k 0).hostReads
      [s.hostByte addr])
  else if inDram (o + bytes.length - 1) then .next ((s.hostFlits k o bytes.length true).writeDram o bytes)
  else if bellWindow ≤ o && o < bellWindow + 4096 * 160 then .next (s.ringBells k o bytes.length)
  else if cmdWindow ≤ o && o < cmdWindow + 64 then .next ((s.hostBell k none).writeCmd (portOf addr) (o - cmdWindow) bytes)
  else .next (s.hostBell k none)

/-- A host access to host memory: the device's copy of the sector is recalled or invalidated first. No bytes: a read. -/
def execHostSectorAccess (addr : Nat) (bytes : List Byte) (s : State) : Out :=
  if inHost addr && inHost (addr + max 1 bytes.length - 1) then
    let s0 := s.recallFlits addr (max 1 bytes.length)
    let s1 := (s0.hostAccess addr (max 1 bytes.length) (!bytes.isEmpty)).physWrite addr bytes
    .next (if bytes.isEmpty then s1.hostReads (s.physRead addr 1) else s1)
  else .next s

/-! ## The command page (R417) -/

/-- A command that the firmware executes once the device is ready and no other is executed; `f` answers with the reason of a
refusal. -/
def command (i : Cmd) (cmd : CmdHead) (op : Byte) (f : State → Except Byte State) (s : State) : Out :=
  if s.fw.boot ≠ 1 then .next s
  else if s.heldUp op then .next (s.later i)
  else match f s with
    | .ok s' => .next (s'.setPage cmd op none)
    | .error r => .next (s.setPage cmd op (some r))

/-- A condition on a command's arguments. -/
def arg (ok : Bool) : Except Byte Unit := if ok then .ok () else .error 2

/-- BOOTSTAT: answered in every boot status. -/
def execBootstat (cmd : CmdHead) (s : State) : Out :=
  let p : CmdPage := { op := 1, status := 2, reason := s.fw.boot, tag := cmd.tag
                       args := (vget CmdPage.zero s.fw.pages cmd.port).args }
  if s.busy then .next (s.later (.bootstat cmd)) else .next { s with fw := { s.fw with pages := vset s.fw.pages cmd.port p } }

/-! ### PARTSET and PARTDEL (R12, R35, R45, R196, R343, R357, R364, R386) -/

/-- No two entries of a list are equal. -/
def noRepeats (l : List Nat) : Bool := l.eraseDups.length == l.length

/-- A ring control block lies in DRAM that the partition owns, aligned to 64 bytes; 0 for none. -/
def ringBlockOk (cfg : PartCfg) (cb : Nat) : Bool :=
  cb == 0 || (cb % 64 == 0 && inDram cb && inRanges cfg.owned (cb / 65536))

/-- The arguments of PARTSET that stand in the state of the other partitions: courses, ASIDs and group entries are
theirs alone (R12). -/
def State.partFits (s : State) (cfg : PartCfg) : Bool :=
  s.parts.all fun p =>
    p.1 == cfg.part || !p.2.valid ||
      (!(cfg.courses.any p.2.courses.contains) &&
        (cfg.asidCount == 0 || p.2.asidCount == 0 || cfg.asidFirst + cfg.asidCount ≤ p.2.asidFirst ||
          p.2.asidFirst + p.2.asidCount ≤ cfg.asidFirst) &&
        (cfg.sliceCount == 0 || p.2.sliceCount == 0 || cfg.sliceFirst + cfg.sliceCount ≤ p.2.sliceFirst ||
          p.2.sliceFirst + p.2.sliceCount ≤ cfg.sliceFirst))

/-- The arguments of PARTSET in themselves. -/
def partCfgOk (cfg : PartCfg) : Bool :=
  cfg.part < 160 && !cfg.courses.isEmpty && cfg.courses.all (· < 160) && noRepeats cfg.courses &&
    cfg.asidFirst < 4096 && cfg.asidFirst + cfg.asidCount ≤ 4096 && cfg.sliceFirst + cfg.sliceCount ≤ 256 &&
    cfg.shares.length == 8 && cfg.vaultGroups.all (· < 16) && noRepeats cfg.vaultGroups && cfg.rings.length == 8 &&
    cfg.rings.all (ringBlockOk cfg) && (cfg.faultQueue == 0 || (cfg.faultQueue % 64 == 0 && inHost cfg.faultQueue)) &&
    decide (2 ^ 16 ≤ cfg.quantum) && decide (cfg.quantum ≤ 2 ^ 32)

/-- Some enabled cell of group g, a coefficient or a variable multiplier, names an integrator of group `of`. -/
def State.usesGroup (s : State) (g of : Nat) : Bool :=
  ((s.paths g).any fun p => match p.src with
    | .integ i => i / 256 == of
    | .one => false
    | .prod _ _ _ => false) ||
  ((List.range 896).any fun n =>
    let w := Tbl.get 0 (s.vgroup g).cells n
    96 ≤ n % 112 && w.getLsbD 22 &&
      (8 * vaultDieOf g + (bits w 0 11 : BitVec 11).toNat / 256 == of ||
        8 * vaultDieOf g + (bits w 11 11 : BitVec 11).toNat / 256 == of))

/-- The tokens of vault group g. -/
def State.vaultTokens (s : State) (g : Nat) : List (BitVec 32 × Token) :=
  s.allTokens.filter fun t => t.2.state.live && (t.2.op.engines (hCourse t.1)).contains (.vault g)

/-- The cells of group g that name an integrator of group `of` are switched off: a coefficient multiplier's input, and a variable
multiplier. -/
def VGroup.cutFrom (v : VGroup) (g of : Nat) : VGroup :=
  let reads := fun (w : Word) (o : Nat) => 8 * vaultDieOf g + (bits w o 11 : BitVec 11).toNat / 256 == of
  let cut := fun (n : Nat) (w : Word) =>
    if 32 ≤ n % 112 && n % 112 < 96 && !w.getLsbD 11 && reads w 0 then w &&& ~~~((1 : Word) <<< 34)
    else if 96 ≤ n % 112 && (reads w 0 || reads w 11) then w &&& ~~~((1 : Word) <<< 22) else w
  { v with cells := v.cells.map fun c => (c.1, cut c.1 c.2) }

/-- A group passes to another partition (R386). A group that reads it becomes unconfigured, and its cells that read it are switched off: a
run there goes on without that signal (R388). A calibration that has yet to begin passes the group over (DESIGN CHOICE, log entry 74). -/
def State.reassign (s : State) (g : Nat) : State :=
  let s := (s.vaultTokens g).foldl (fun s t =>
    if (s.token t.1).state = .running then
      (match (s.token t.1).op with
        | .arun _ _ _ _ _ _ _ => s.stopRun t.1
        | .acfg mask _ _ => (s.unconfigure (maskGroups mask)).endToken t.1 .cancelled 0 0
        | _ => s.endToken t.1 .cancelled 0 0)
    else s.endToken t.1 .cancelled 0 0) s
  let users := ((List.range 8).map (8 * vaultDieOf g + ·)).filter fun k =>
    k != g && (s.vgroup k).cfg == .configured && s.usesGroup k g
  let s := s.modVGroup g fun v => { VGroup.zero with last := v.last, cfgGen := v.cfgGen }
  let s := users.foldl (fun s k => s.modVGroup k fun v => { v.cutFrom k g with cfg := .unconfigured }) s
  s.modVDie (vaultDieOf g) fun v => { v with cals := v.cals.map fun c =>
    if c.begun then c else { c with mask := c.mask &&& ~~~((1 : BitVec 16) <<< g) } }

/-- The partition as PARTSET sets it: what it does not name keeps its value, or starts as at creation. -/
def Part.configure (p : Part) (cfg : PartCfg) : Part :=
  { (if p.valid then p else Part.zero) with
    valid := true
    courses := cfg.courses
    trange := BitVec.ofNat 64 (cfg.asidFirst + cfg.asidCount * 65536)
    sliceFirst := cfg.sliceFirst, sliceCount := cfg.sliceCount
    shares := Vector.ofFn fun i => cfg.shares.getD i.val 0
    vaultGroups := cfg.vaultGroups
    rings := Vector.ofFn fun i => cfg.rings.getD i.val 0
    faultQueue := cfg.faultQueue, quantum := cfg.quantum, owned := cfg.owned, writable := cfg.writable }

/-- The courses that a change takes from a partition hold no team and no thread. -/
def State.coursesIdle (s : State) (ks : List Nat) : Bool :=
  ks.all fun k => ((List.range 8).map (8 * k + ·)).all s.coreFree

def execPartset (cmd : CmdHead) (cfg : PartCfg) (s : State) : Out :=
  command (.partset cmd cfg) cmd 2 (fun s => do
    let old := s.part cfg.part
    let gone := old.courses.filter fun k => !cfg.courses.contains k
    let came := cfg.courses.filter fun k => !old.courses.contains k
    arg (partCfgOk cfg && s.partFits cfg && old.deleting.isNone && s.coursesIdle gone)
    let s := (gone ++ came).foldl State.zeroCourse s
    let moved := (List.range 16).filter fun g => cfg.vaultGroups.contains g != old.vaultGroups.contains g
    let s := moved.foldl State.reassign s
    let s := { s with parts := s.parts.map fun (p : Nat × Part) =>
      (p.1, { p.2 with vaultGroups := p.2.vaultGroups.filter fun g => !cfg.vaultGroups.contains g }) }
    -- the cores of mode 0, the groups or the granules change: no line may stay at its old home (R340, R341)
    let same := gone.isEmpty && came.isEmpty && old.sliceFirst == cfg.sliceFirst && old.sliceCount == cfg.sliceCount &&
      old.owned == cfg.owned
    let s := if same then s else s.dropLines fun _ => true
    let s := s.modPart cfg.part fun p => p.configure cfg
    let s := postAll ((List.range 8).map (.packet cfg.part)) s
    return (postAll ((List.range 8).map .permitGrant) s).post (.placement cfg.part)) s

/-- PARTDEL answers when the partition's launches have ended and its cores are cleared. -/
def execPartdel (cmd : CmdHead) (part : Nat) (s : State) : Out :=
  if s.fw.boot ≠ 1 then .next s
  else if s.busy then .next (s.later (.partdel cmd part))
  else if !(s.part part).valid then .next (s.setPage cmd 3 (some 2))
  else
    let ls := (s.launches.filter fun l => l.2.live && l.2.part == part).map Prod.fst
    let s := ls.foldl State.killLaunch s
    let s := (s.part part).vaultGroups.foldl State.reassign s
    .next ((s.modPart part fun p => { p with deleting := some cmd }).finishDelete part)

/-! ### ATTEST, MGMTQ, FLOOR (R413, R414) -/

/-- What the partition table holds of a partition, as numbers. -/
def Part.table (n : Nat) (p : Part) : List Nat :=
  [n, p.trange.toNat, p.sliceFirst, p.sliceCount, p.faultQueue, p.quantum, p.courses.length] ++ p.courses ++
    [p.vaultGroups.length] ++ p.vaultGroups ++ p.shares.toList.map (·.toNat) ++ p.rings.toList ++ [p.owned.length] ++
    (p.owned.flatMap fun r => [r.1, r.2]) ++ (p.writable.flatMap fun r => [r.1, r.2])

/-- The report of R414, before its signature. The bytes that stand for the fuses and for the partition table are free functions of
them (DESIGN CHOICE, log entry 42). -/
def State.report (s : State) (nonce : List Byte) : List Byte :=
  nonce ++ s.fw.imageHash ++ toBytes 4 s.fw.fwver ++ toBytes 4 (BitVec.ofNat 32 s.fw.floor) ++
    sha256 (Config.remapFuses ((List.range 8).map fun d => (s.die d).disabled)) ++
    sha256 (Config.partitionTable ((s.parts.filter fun p => p.2.valid).map fun p => p.2.table p.1)) ++ List.replicate 24 0

/-- The signature of a report with the identity key. -/
def State.signReport (s : State) (r : List Byte) : List Byte :=
  slhSign s.fw.idSecret ((List.range 16).map (Config.signRandom s.fresh)) r

def execAttest (cmd : CmdHead) (addr : Nat) (nonce : List Byte) (s : State) : Out :=
  command (.attest cmd addr nonce) cmd 4 (fun s => do
    arg (nonce.length == 32 && inHost addr && inHost (addr + 160 + 7856 - 1))
    let r := s.report nonce
    return ({ s with fresh := s.fresh + 1 }.hostTouch addr (160 + 7856)).physWrite addr (r ++ s.signReport r)) s

def execMgmtq (cmd : CmdHead) (addr : Nat) (s : State) : Out :=
  command (.mgmtq cmd addr) cmd 5 (fun s => do
    arg (addr == 0 || (addr % 64 == 0 && inHost addr))
    return { s with fw := { s.fw with mgmtQueue := addr } }) s

def execFloor (cmd : CmdHead) (version : Word32) (sig : List Byte) (s : State) : Out :=
  command (.floor cmd version sig) cmd 11 (fun s => do
    arg (version.toNat ≤ 64 && slhVerify s.fw.imageKey (toBytes 4 version) sig)
    return { s with fw := { s.fw with floor := max s.fw.floor version.toNat } }) s

/-! ## Freeze, thaw and readout (R416, R418, R419) -/

def execFreeze (cmd : CmdHead) (s : State) : Out := command (.freeze cmd) cmd 6 (fun s => .ok (s.freeze false 0 0)) s

/-- THAW: refused after a freeze of R394. -/
def execThaw (cmd : CmdHead) (s : State) : Out :=
  command (.thaw cmd) cmd 7 (fun s => do
    arg (!s.fw.frozenHard)
    return s.thaw) s

def execFreezePinAssert (s : State) : Out :=
  .next ({ s with fw := { s.fw with pinLow := true } }.freeze false 0 0)

def execFreezePinRelease (s : State) : Out :=
  .next (if s.fw.pinLow then { s with fw := { s.fw with pinLow := false } }.thaw else s)

/-- A thermal trip (R416): a die at 110 °C or more, or a flow below 1.0 L/min, freezes the device. What the monitors read is a free
value (DESIGN CHOICE, log entry 70). -/
def execThermalTrip (die : Nat) (detail : Byte) (s : State) : Out :=
  let trips := 110 ≤ Config.dieJunction s.fresh die || Config.coolantFlow s.fresh < 10
  let s := { s with fresh := s.fresh + 1 }
  .next (if trips then s.freeze false detail.toNat (BitVec.ofNat 32 die) else s)

/-! ### Readout (R412, R419) -/

/-- The local number of physical course p of a die, if it has one. -/
def localCourse (disabled p : Nat) : Option Nat := if p = disabled then none else if p < disabled then some p else some (p - 1)

/-- Physical course of local course c (R412). -/
def physCourse (disabled c : Nat) : Nat := if c < disabled then c else c + 1

/-- Where a block of an L1 begins. -/
def blockStart (b : Nat) : Nat := lineAt (b / 3) + 64 * (b % 3)

/-- What chain c of compute die d holds. -/
def State.chainOf (s : State) (d c : Nat) : Readout :=
  let x := (s.die d).disabled.toNat
  let coresOf := fun (k : Nat) => (List.range 8).map (8 * k + ·)
  if c ≤ 20 then
    match localCourse x c with
    | none => .course none Course.zero [] [] [] [] [] []
    | some l =>
      let k := 20 * d + l
      let keys := ((threadsOf k).filter fun t => (s.ctx t).live).map fun t => (s.ctx t).inKey
      .course (some l) (s.course k) ((coresOf k).map s.core) ((threadsOf k).map s.ctx)
        (keys.eraseDups.map fun q => (q, s.chan q))
        (s.barriers.filter fun b => b.1 % 2 == 1 && b.1 / 2 % 160 == k)
        ((coresOf k).map fun c => (c, (Tbl.get [] s.caches.l1 c).map fun b =>
          (b, Mem.read s.mem (blockStart b) 64)))
        ((coresOf k).map fun c => Tbl.get [] s.caches.l1i c)
  else if c ≤ 28 then
    .slices (((List.range 21).map (21 * (c - 21) + ·)).map fun j => (j, match localCourse x (j / 8) with
      | none => []
      | some l => (s.caches.slice (8 * (20 * d + l) + j % 8)).map fun x =>
          (x, Mem.read s.mem (lineAt x.line) (lineLen x.line))))
  else match c with
    | 29 => .tokens (((List.range 20).map (20 * d + ·)).map fun k => (k, (s.course k).tokens)) (s.die d).pcount (s.die d).held
        (s.parts.map fun p => (p.1, vget 0 p.2.held d)) (s.die d).waiting
    | 30 => .remap (s.die d).disabled
    | _ => .replay ((s.links.filter fun l => 4 * d ≤ l.1 && l.1 < 4 * d + 4).map fun l => (l.1, l.2.buf))

/-- What chain c of vault die v holds. -/
def State.vaultChain (s : State) (v c : Nat) : Readout :=
  if c = 0 then .columns ((List.range 64).map fun k => s.calib (64 * v + k))
  else .capitals ((List.range 8).map fun g => s.vgroup (8 * v + g)) (s.vdie v).samples

/-- The 28 bytes of a calibration register (R383). -/
def Calib.bytes (c : Calib) : List Byte :=
  toBytes 4 c.cAdc ++ toBytes 4 c.cGain ++ toBytes 4 c.cDrift ++ toBytes 4 c.cOffset ++ [ofBool c.v 8, c.temp, 0, 0] ++
    toBytes 8 c.calTick

end Sys2Proof.Machine

namespace Sys2Proof

/-- What a scan with dbgctl[0] = 1 shifts into a chain, beside what stands there: it comes from outside, and the spec lays out no chain
but the calibration registers, so it is free; none for a scan that shifts in what it reads. DESIGN CHOICE, log entry 43. -/
opaque Config.shiftedIn : Nat → Machine.Readout → Option Machine.Readout

end Sys2Proof

namespace Sys2Proof.Machine

/-- Bytes that a scan shifts into a line of a slice, or into a block of an L1, are what that line has there. -/
def State.scanBytes (s : State) (pa n : Nat) (bs : List Byte) : State :=
  if inDram pa || inHost pa then s.physWrite pa (bs.take n) else s

/-- A content is one that a chain can take: of its kind, with the units and the numbers that stand in it. -/
def Readout.fits : Readout → Readout → Bool
  | .course l _ cs ts qs bs ls is, .course l' _ cs' ts' qs' bs' ls' is' =>
    l == l' && cs.length == cs'.length && ts.length == ts'.length && qs.map Prod.fst == qs'.map Prod.fst &&
      bs.map Prod.fst == bs'.map Prod.fst && ls.map Prod.fst == ls'.map Prod.fst && is.length == is'.length
  | .slices xs, .slices ys => xs.map Prod.fst == ys.map Prod.fst
  | .tokens ts _ _ ps _, .tokens ts' _ _ ps' _ => ts.map Prod.fst == ts'.map Prod.fst && ps.map Prod.fst == ps'.map Prod.fst
  | .remap _, .remap _ => true
  | .replay bs, .replay bs' => bs.map Prod.fst == bs'.map Prod.fst
  | .columns cs, .columns cs' => cs.length == cs'.length
  | .capitals gs _, .capitals gs' _ => gs.length == gs'.length
  | _, _ => false

/-- A chain takes what a scan shifted into it, unit by unit. -/
def State.scanBack (s : State) (die chain : Nat) (r : Readout) : State :=
  let first := 20 * die + (localCourse (s.die die).disabled.toNat chain).getD 0
  match r with
  | .ones => s
  | .course none _ _ _ _ _ _ _ => s
  | .course (some _) k cs ts qs bars bs is =>
    let s := (cs.zipIdx.take 8).foldl (fun s c => s.setCore (8 * first + c.2) c.1) (s.setCourse first k)
    let s := (ts.zipIdx.take 128).foldl (fun s t => s.setCtx (128 * first + t.2) t.1) s
    let s := qs.foldl (fun s q => s.modChan q.1 fun _ => q.2) s
    let s := bars.foldl (fun s b => s.setBarrier b.1 b.2) s
    let s := (is.zipIdx.take 8).foldl (fun s i =>
      { s with caches := { s.caches with l1i := Tbl.set [] s.caches.l1i (8 * first + i.2) i.1 } }) s
    (bs.zipIdx.take 8).foldl (fun s b => (b.1.2.foldl (fun s x => s.scanBytes (blockStart x.1) 64 x.2) s).withCaches
      { s.caches with l1 := Tbl.set [] s.caches.l1 (8 * first + b.2) (b.1.2.map Prod.fst) }) s
  | .slices ls => ls.foldl (fun s x => match localCourse (s.die die).disabled.toNat (x.1 / 8) with
    | none => s
    | some l => (x.2.foldl (fun s y => s.scanBytes (lineAt y.1.line) (lineLen y.1.line) y.2) s).withCaches { s.caches with
        l2 := Tbl.set [] s.caches.l2 (8 * (20 * die + l) + x.1 % 8) (x.2.map Prod.fst) }) s
  | .tokens ts pool held ps waiting =>
    let s := ts.foldl (fun s t => s.modCourse t.1 fun c => { c with tokens := t.2 }) s
    (ps.foldl (fun s p => s.modPart p.1 fun x => { x with held := vset x.held die p.2 }) s).modDie die fun d =>
      { d with pcount := pool, held := held, waiting := waiting }
  | .remap d => s.modDie die fun k => { k with disabled := d }
  | .replay bs => bs.foldl (fun s b => s.modLink b.1 fun l => { l with buf := b.2 }) s
  | .columns cs => (cs.zipIdx.take 64).foldl (fun s c => s.modCalib (64 * (die - 8) + c.2) fun _ => c.1) s
  | .capitals gs hs =>
    ((gs.zipIdx.take 8).foldl (fun s g => s.modVGroup (8 * (die - 8) + g.2) fun _ => g.1) s).modVDie (die - 8) fun v =>
      { v with samples := hs }

/-- A scan: all ones while the die runs; dies 8 and 9 are the vault dies. The bits of a chain other than the calibration registers have
no order in the spec: the bytes are free, beside what they hold (DESIGN CHOICE, log entry 43). A scan writes back only with
dbgctl[0] = 1. -/
def execScanReadout (die chain : Nat) (s : State) : Out :=
  let r := if !s.fw.frozen then .ones else if die < 8 then s.chainOf die chain else s.vaultChain (die - 8) chain
  let bs := match r with
    | .ones => List.replicate (Config.scanLength die chain) 0xFF
    | .columns cs => cs.flatMap Calib.bytes
    | _ => Config.scanBytes s.fresh
  let s1 := { s with fresh := s.fresh + 1, fw := { s.fw with scan := bs, readout := r } }
  .next (if !s.fw.frozen || !s.fw.dbgctl.getLsbD 0 then s1
    else match Config.shiftedIn s.fresh r with
      | some x => if r.fits x then s1.scanBack die chain x else s1
      | none => s1)

/-! ## Debug halts (R420) -/

/-- A loop register with 64 bits of its layout written (R29). -/
def LoopReg.writePart (l : LoopReg) (part : Nat) (v : Word) : LoopReg :=
  match part with
  | 0 => { l with index := bits v 0 32, bound := bits v 32 32 }
  | 1 => { l with step := bits v 0 32, top := setBits l.top 1 (bits v 32 32 : Word32) }
  | _ => { l with top := setBits l.top 33 (bits v 0 24 : BitVec 24), span := bits v 24 10, act := v.getLsbD 34 }

/-- The binding that a debugger's word names: the team in bits [31:8], the thread in [3:0], with bit 63; or none. -/
def bindingOf (v : Word) : Option (Nat × Nat) :=
  if v.getLsbD 63 then some ((bits v 8 24 : BitVec 24).toNat, (bits v 0 4 : BitVec 4).toNat) else none

/-- A register write of the debugger (R420); the places of a tile handle's and a binding's bits are DESIGN CHOICE, log entry 71. -/
def Ctx.debugWrite (c : Ctx) (w : DbgWrite) : Ctx :=
  match w.reg with
  | .g => if w.idx < 16 then c.setG w.idx w.val else c
  | .e => { c with e := vset c.e w.idx w.val }
  | .q => { c with q := vset c.q w.idx (bits w.val 0 32) }
  | .p => { c with p := vset c.p w.idx (bits w.val 0 32) }
  | .sd => { c with sd := vset c.sd w.idx w.val }
  | .pc => { c with pc := bits (w.val &&& ~~~1) 0 57 }
  | .vl => { c with vl := BitVec.ofNat 32 (min 256 (bits w.val 0 32 : Word32).toNat), vlFull := true }
  | .vs => { c with vs := (bits w.val 0 11 : BitVec 11).setWidth 32, vsFull := true }
  | .rk => { c with rk := w.val }
  | .l => { c with
      l := vset c.l (w.idx / 3) ((vget LoopReg.zero c.l (w.idx / 3)).writePart (w.idx % 3) w.val)
      lFull := vset c.lFull (w.idx / 3) true }
  | .t => { c with t := vset c.t w.idx (if w.val.getLsbD 7 then some (bits w.val 0 7) else none) }
  | .status => c.writeStatus w.val
  | .cin => { c with cin := bindingOf w.val }
  | .cout => { c with cout := bindingOf w.val }
  | .i => c
  | .o => c

/-- A window write of the debugger: the register takes the value, full. -/
def State.debugWindow (s : State) (thr : Nat) (w : DbgWrite) : State :=
  let put := fun (code : Nat) => s.modTm (coreOf thr) fun m =>
    m.land ⟨0, winIndex (slotOf thr) (BitVec.ofNat 5 code), some w.val, true⟩
  if 4 ≤ w.idx then s
  else match w.reg with
    | .i => put (16 + w.idx)
    | .o => put (20 + w.idx)
    | _ => s

/-- A debug command needs dbgctl[0] = 1. -/
def debugOn (s : State) : Except Byte Unit := if s.fw.dbgctl.getLsbD 0 then .ok () else .error 3

def Ctx.askHalt (c : Ctx) (ws : List DbgWrite) : Ctx := { c with dbgAsked := true, dbgWrites := c.dbgWrites ++ ws }

/-- The contexts of a team in its image are asked to halt as well. -/
def Team.askHalt (x : Team) (ws : List DbgWrite) : Team :=
  { x with ctxs := x.ctxs.map fun c => (c.1, c.2.askHalt ws)
           image := { x.image with loans := x.image.loans.map fun c => (c.1, c.2.askHalt ws) } }

/-- And those of the team that wait for a context to arrive in, or for theirs to come back. -/
def Core.askHalt (k : Core) (l t : Nat) (ws : List DbgWrite) : Core :=
  let ask := fun (c : Ctx) => if c.ofTeam l t then c.askHalt ws else c
  { k with arrivals := k.arrivals.map fun m => { m with ctx := ask m.ctx, loan := ask m.loan }
           tm := { k.tm with loans := k.tm.loans.map fun c => (c.1, ask c.2) } }

/-- The debugger sees the registers of a thread. -/
def State.viewed (s : State) (thr : Nat) : State :=
  let view : DbgView := ⟨s.ctx thr, (List.range 8).map fun k =>
    (s.winVal thr (BitVec.ofNat 5 (16 + k)), s.winFull thr (BitVec.ofNat 5 (16 + k)))⟩
  { s with fw := { s.fw with dbgView := some view } }

def execDhalt (cmd : CmdHead) (target : DbgTarget) (writes : List DbgWrite) (s : State) : Out :=
  command (.dhalt cmd target writes) cmd 8 (fun s => do
    debugOn s
    match target with
    | .thread thr =>
      arg (s.ctx thr).live
      return (s.viewed thr).modCtx thr fun c => c.askHalt writes
    | .team l t =>
      arg (s.teamOf l t).state.alive
      let s1 := ((s.teamThreads l t).foldl (fun s x => s.modCtx x fun c => c.askHalt writes) s).modTeam l t fun x =>
        x.askHalt writes
      return { s1 with cores := s1.cores.map fun (k : Nat × Core) => (k.1, k.2.askHalt l t writes) }) s

/-- The thread has halted at a boundary: reported with its number. -/
def execDebugHaltReached (thr : Nat) (s : State) : Out :=
  let c := s.ctx thr
  if c.live && c.dbgAsked && !c.dbgHeld && c.wait.boundary then
    .next (((s.modCtx thr fun c => { c with dbgHeld := true }).viewed thr).mgmtReport 6 0 (BitVec.ofNat 32 (dieOfCore (coreOf thr)))
      (BitVec.ofNat 64 thr))
  else .next s

/-- A held thread goes on with the debugger's writes. The instruction that DSTEP lets it issue is issued while nothing holds the
thread, and counts for its watchdog (R137 says what does not; DESIGN CHOICE, log entry 71). -/
def Ctx.debugGo (c : Ctx) (ws : List DbgWrite) (step : Bool) : Ctx :=
  { ((c.dbgWrites ++ ws).foldl Ctx.debugWrite c) with dbgWrites := [], dbgHeld := false, dbgAsked := step, dbgStep := step }

/-- The same with its window registers. -/
def State.debugGo (s : State) (thr : Nat) (ws : List DbgWrite) (step : Bool) : State :=
  (((s.ctx thr).dbgWrites ++ ws).foldl (fun s w => s.debugWindow thr w) s).modCtx thr fun c => c.debugGo ws step

/-- A thread that was halted while it was parked re-issues its instruction from step 1 (R293), as its one instruction. -/
def State.reissue (s : State) (thr : Nat) : State :=
  (s.unwatch thr).modCtx thr fun c => { c with claimParked := false, wait := c.wait.again }

def execDrun (cmd : CmdHead) (thr : Nat) (writes : List DbgWrite) (s : State) : Out :=
  command (.drun cmd thr writes) cmd 9 (fun s => do
    debugOn s
    arg ((s.ctx thr).live && (s.ctx thr).dbgAsked)
    return (s.viewed thr).debugGo thr writes false) s

def execDstep (cmd : CmdHead) (thr : Nat) (s : State) : Out :=
  command (.dstep cmd thr) cmd 10 (fun s => do
    debugOn s
    arg ((s.ctx thr).live && (s.ctx thr).dbgHeld)
    return (s.reissue thr).debugGo thr [] true) s

/-! ## Scrubbing (R355) -/

/-- The scrubber reads a sector: a corrected error is rewritten and counted for the partition that owns it. -/
def execPatrolScrub (sector : Nat) (s : State) : Out :=
  if !s.corrSectors.contains sector then .next s
  else
    let g := sector / 1366
    let s1 := { s with corrSectors := s.corrSectors.filter (· ≠ sector) }
    .next (match s.parts.find? fun p => p.2.valid && inRanges p.2.owned g with
      | some p => s1.countErrors p.1 1
      | none => s1)

/-! ## Device reset (R411-R414) -/

/-- The image verifies (R413). -/
def imageOk (fw : Firmware) (image : List Byte) : Bool :=
  let pk := (image.drop 16).take 32
  let body := (image.drop 7904).take (field image 8 8)
  sha256 pk == fw.keyHash && decide (fw.floor ≤ field image 4 4) &&
    slhVerify pk (image.take 48 ++ body) ((image.drop 48).take 7856)

/-- Firmware at phase 1: what the fuses hold, and the pin, stay; the pin held low freezes the device (R418). -/
def Firmware.powered (fw : Firmware) (image : List Byte) : Firmware :=
  { Firmware.reset with
    boot := 0, phase := 1, image := image, fwver := 0, floor := fw.floor, keyHash := fw.keyHash, secret := fw.secret
    idSecret := [], idPublic := [], pinLow := fw.pinLow, frozen := fw.pinLow }

/-- Phase 1: clocks start at 1.0 GHz; no link is trained, no column calibrated, no permit in a pool. What phase 5 zeroes still stands.
Memory, fuses, temperatures and the numbers that the model counts with go on. -/
def execDeviceReset (image : List Byte) (s : State) : Out :=
  .next { State.reset with
    cores := s.cores.map fun (k : Nat × Core) => (k.1, { Core.zero with tm := { TeamMem.zero with spad := k.2.tm.spad } })
    courses := s.courses.map fun (k : Nat × Course) => (k.1, { Course.zero with
      slots := k.2.slots.map fun (x : Nat × Slot) => (x.1, { Slot.zero with payload := x.2.payload, side := x.2.side }) })
    vgroups := s.vgroups.map fun (g : Nat × VGroup) => (g.1, { VGroup.zero with dict := g.2.dict })
    caches := { s.caches with l1 := [], l1i := [] }
    mem := s.mem, badSectors := s.badSectors, corrSectors := s.corrSectors
    dies := (List.range 8).map fun d => (d, { resetDie d with disabled := (s.die d).disabled, pcount := 0, mhz := 1000 })
    vcols := [], vdies := [(0, { VDie.zero with temp := (s.vdie 0).temp }), (1, { VDie.zero with temp := (s.vdie 1).temp })]
    links := resetLinks.map fun (l : Nat × Link) => (l.1, { l.2 with state := 2 })
    fw := s.fw.powered image
    plan := s.plan, fresh := s.fresh, nextArr := s.nextArr, nextOrder := s.nextOrder, nextLaunch := s.nextLaunch
    writes := s.writes, hist := s.hist }

/-! ### The phases of the boot (R411) -/

/-- A phase is complete. -/
def State.inPhase (s : State) (n : Nat) : State := { s with fw := { s.fw with phase := n } }

/-- The boot ends with a status. -/
def State.bootEnds (s : State) (status : Byte) : State := { s with fw := { s.fw with boot := status } }

/-- Every course is named and passes its test (R412). -/
def State.coursesOk (s : State) : Bool :=
  (List.range 8).all (fun d => decide ((s.die d).disabled.toNat ≤ 20)) && (List.range 160).all (Config.courseWorks s.fresh)

/-- The L2 slices are zeroed: what their dirty lines held is lost, and memory has what lay below them. -/
def State.loseLines (s : State) : State :=
  let ls := s.caches.l2.flatMap fun k => k.2.filter (·.dirty)
  let s := ls.foldl (fun s x => x.below.foldl (fun s b => s.physWrite (lineAt x.line + b.1) [b.2]) s) s
  { s with caches := ⟨[], [], [], 0⟩ }

/-- Phase 5: scratchpads, tile slots, side-stores, dictionaries and slices are zeroed, the keystone sequence is 0. -/
def State.zeroAll (s : State) : State := { s.loseLines with cores := [], courses := [], vgroups := [], keystone := 0 }

/-- Every vault group is calibrated (phase 6), for 2^16 ticks: what its columns measure is free. -/
def State.calibrateAll (s : State) : State :=
  let s := (s.modVDie 0 fun v => { v with ticks := v.ticks + 65536 }).modVDie 1 fun v => { v with ticks := v.ticks + 65536 }
  (List.range 16).foldl (fun s g => (s.calibrateGroup (vaultDieOf g) g false).1) s

/-- Phase 8: the identity key is derived, and the device is ready. -/
def Firmware.ready (fw : Firmware) : Firmware :=
  { fw with
    fwver := BitVec.ofNat 32 (field fw.image 4 4), imageKey := (fw.image.drop 16).take 32, imageHash := sha256 fw.image
    idSecret := (identity fw.secret).1, idPublic := (identity fw.secret).2, boot := 1, phase := 8 }

/-- The next phase of a boot; the first failure ends it. -/
def State.bootPhase (s : State) : State :=
  if s.fw.boot ≠ 0 then s
  else match s.fw.phase with
    | 1 => s.inPhase 2
    | 2 => if imageOk s.fw s.fw.image then s.inPhase 3 else s.bootEnds 2
    | 3 =>
      if s.coursesOk then
        { s with links := s.links.map fun (l : Nat × Link) => (l.1, if l.2.state = 2 then { l.2 with state := 1 } else l.2), fresh := s.fresh + 1 }.inPhase 4
      else { s.bootEnds 3 with fresh := s.fresh + 1 }
    | 4 => s.zeroAll.inPhase 5
    | 5 => s.calibrateAll.inPhase 6
    | 6 => { s with dies := s.dies.map fun (d : Nat × Die) => (d.1, { d.2 with pcount := 28, mhz := 2000 }) }.inPhase 7
    | _ => { s with fw := s.fw.ready }

end Sys2Proof.Machine
end

