-- ==== Sys2Proof/Machine/Dispatch.lean ====
section
/-! DEFINITION. The meaning of each instruction and event: one arm per constructor of `Instr`. -/

namespace Sys2Proof.Machine

def exec (i : Instr) (s : State) : Host.Outcome State Fault Refusal :=
  match i with
  | .add d a b => Sys2Proof.Machine.execAdd d a b s
  | .sub d a b => Sys2Proof.Machine.execSub d a b s
  | .and d a b => Sys2Proof.Machine.execAnd d a b s
  | .or d a b => Sys2Proof.Machine.execOr d a b s
  | .xor d a b => Sys2Proof.Machine.execXor d a b s
  | .andn d a b => Sys2Proof.Machine.execAndn d a b s
  | .sll d a b => Sys2Proof.Machine.execSll d a b s
  | .srl d a b => Sys2Proof.Machine.execSrl d a b s
  | .sra d a b => Sys2Proof.Machine.execSra d a b s
  | .rol d a b => Sys2Proof.Machine.execRol d a b s
  | .ror d a b => Sys2Proof.Machine.execRor d a b s
  | .mul d a b => Sys2Proof.Machine.execMul d a b s
  | .mulh d a b => Sys2Proof.Machine.execMulh d a b s
  | .mulhn d a b => Sys2Proof.Machine.execMulhn d a b s
  | .div d a b => Sys2Proof.Machine.execDiv d a b s
  | .divn d a b => Sys2Proof.Machine.execDivn d a b s
  | .rem d a b => Sys2Proof.Machine.execRem d a b s
  | .remn d a b => Sys2Proof.Machine.execRemn d a b s
  | .min d a b => Sys2Proof.Machine.execMin d a b s
  | .max d a b => Sys2Proof.Machine.execMax d a b s
  | .minn d a b => Sys2Proof.Machine.execMinn d a b s
  | .maxn d a b => Sys2Proof.Machine.execMaxn d a b s
  | .seq d a b => Sys2Proof.Machine.execSeq d a b s
  | .sne d a b => Sys2Proof.Machine.execSne d a b s
  | .slt d a b => Sys2Proof.Machine.execSlt d a b s
  | .sge d a b => Sys2Proof.Machine.execSge d a b s
  | .sltn d a b => Sys2Proof.Machine.execSltn d a b s
  | .sgen d a b => Sys2Proof.Machine.execSgen d a b s
  | .clz d a => Sys2Proof.Machine.execClz d a s
  | .ctz d a => Sys2Proof.Machine.execCtz d a s
  | .popc d a => Sys2Proof.Machine.execPopc d a s
  | .bswap d a => Sys2Proof.Machine.execBswap d a s
  | .leaB8 d a b => Sys2Proof.Machine.execLeaB8 d a b s
  | .leaB16 d a b => Sys2Proof.Machine.execLeaB16 d a b s
  | .leaB32 d a b => Sys2Proof.Machine.execLeaB32 d a b s
  | .leaB64 d a b => Sys2Proof.Machine.execLeaB64 d a b s
  | .hash d a b => Sys2Proof.Machine.execHash d a b s
  | .bank d a => Sys2Proof.Machine.execBank d a s
  | .addi d a imm => Sys2Proof.Machine.execAddi d a imm s
  | .andi d a imm => Sys2Proof.Machine.execAndi d a imm s
  | .ori d a imm => Sys2Proof.Machine.execOri d a imm s
  | .xori d a imm => Sys2Proof.Machine.execXori d a imm s
  | .slli d a sh => Sys2Proof.Machine.execSlli d a sh s
  | .srli d a sh => Sys2Proof.Machine.execSrli d a sh s
  | .srai d a sh => Sys2Proof.Machine.execSrai d a sh s
  | .roli d a sh => Sys2Proof.Machine.execRoli d a sh s
  | .bfxN64 d a pos len => Sys2Proof.Machine.execBfxN64 d a pos len s
  | .bfxI64 d a pos len => Sys2Proof.Machine.execBfxI64 d a pos len s
  | .bfi d a pos len => Sys2Proof.Machine.execBfi d a pos len s
  | .li d imm => Sys2Proof.Machine.execLi d imm s
  | .lis d imm => Sys2Proof.Machine.execLis d imm s
  | .fadd d a b rm ty => Sys2Proof.Machine.execFadd d a b rm ty s
  | .fsub d a b rm ty => Sys2Proof.Machine.execFsub d a b rm ty s
  | .fmul d a b rm ty => Sys2Proof.Machine.execFmul d a b rm ty s
  | .fdiv d a b rm ty => Sys2Proof.Machine.execFdiv d a b rm ty s
  | .fsqrt d a rm ty => Sys2Proof.Machine.execFsqrt d a rm ty s
  | .fmin d a b ty => Sys2Proof.Machine.execFmin d a b ty s
  | .fmax d a b ty => Sys2Proof.Machine.execFmax d a b ty s
  | .fmac d a b rm ty => Sys2Proof.Machine.execFmac d a b rm ty s
  | .fcvtFloatFloat d a src rm ty => Sys2Proof.Machine.execFcvtFloatFloat d a src rm ty s
  | .fcvtFloatInteger d a src rm ty => Sys2Proof.Machine.execFcvtFloatInteger d a src rm ty s
  | .fcvtIntegerFloat d a src rm ty => Sys2Proof.Machine.execFcvtIntegerFloat d a src rm ty s
  | .feq d a b ty => Sys2Proof.Machine.execFeq d a b ty s
  | .flt d a b ty => Sys2Proof.Machine.execFlt d a b ty s
  | .fle d a b ty => Sys2Proof.Machine.execFle d a b ty s
  | .fclass d a ty => Sys2Proof.Machine.execFclass d a ty s
  | .fsgn d a b ty => Sys2Proof.Machine.execFsgn d a b ty s
  | .beq a b disp => Sys2Proof.Machine.execBeq a b disp s
  | .bne a b disp => Sys2Proof.Machine.execBne a b disp s
  | .blt a b disp => Sys2Proof.Machine.execBlt a b disp s
  | .bge a b disp => Sys2Proof.Machine.execBge a b disp s
  | .bltn a b disp => Sys2Proof.Machine.execBltn a b disp s
  | .bgen a b disp => Sys2Proof.Machine.execBgen a b disp s
  | .bany a b disp => Sys2Proof.Machine.execBany a b disp s
  | .bnone a b disp => Sys2Proof.Machine.execBnone a b disp s
  | .jmp disp => Sys2Proof.Machine.execJmp disp s
  | .call disp => Sys2Proof.Machine.execCall disp s
  | .lp l cnt span => Sys2Proof.Machine.execLp l cnt span s
  | .lpx l e span => Sys2Proof.Machine.execLpx l e span s
  | .jr a => Sys2Proof.Machine.execJr a s
  | .callr a => Sys2Proof.Machine.execCallr a s
  | .ret => Sys2Proof.Machine.execRet s
  | .yield => Sys2Proof.Machine.execYield s
  | .halt => Sys2Proof.Machine.execHalt s
  | .brk => Sys2Proof.Machine.execBrk s
  | .nop => Sys2Proof.Machine.execNop s
  | .lpexit l => Sys2Proof.Machine.execLpexit l s
  | .lpidx d l => Sys2Proof.Machine.execLpidx d l s
  | .ldI8 d base q off => Sys2Proof.Machine.execLdI8 d base q off s
  | .ldN8 d base q off => Sys2Proof.Machine.execLdN8 d base q off s
  | .ldI16 d base q off => Sys2Proof.Machine.execLdI16 d base q off s
  | .ldN16 d base q off => Sys2Proof.Machine.execLdN16 d base q off s
  | .ldI32 d base q off => Sys2Proof.Machine.execLdI32 d base q off s
  | .ldN32 d base q off => Sys2Proof.Machine.execLdN32 d base q off s
  | .ldB64 d base q off => Sys2Proof.Machine.execLdB64 d base q off s
  | .stB8 rs base q off => Sys2Proof.Machine.execStB8 rs base q off s
  | .stB16 rs base q off => Sys2Proof.Machine.execStB16 rs base q off s
  | .stB32 rs base q off => Sys2Proof.Machine.execStB32 rs base q off s
  | .stB64 rs base q off => Sys2Proof.Machine.execStB64 rs base q off s
  | .ldF16 d base q off => Sys2Proof.Machine.execLdF16 d base q off s
  | .ldBf16 d base q off => Sys2Proof.Machine.execLdBf16 d base q off s
  | .ldF32 d base q off => Sys2Proof.Machine.execLdF32 d base q off s
  | .ldF64 d base q off => Sys2Proof.Machine.execLdF64 d base q off s
  | .stF16 rs base q off => Sys2Proof.Machine.execStF16 rs base q off s
  | .stBf16 rs base q off => Sys2Proof.Machine.execStBf16 rs base q off s
  | .stF32 rs base q off => Sys2Proof.Machine.execStF32 rs base q off s
  | .stF64 rs base q off => Sys2Proof.Machine.execStF64 rs base q off s
  | .staB8 rs base q aw n1 => Sys2Proof.Machine.execStaB8 rs base q aw n1 s
  | .staB16 rs base q aw n1 => Sys2Proof.Machine.execStaB16 rs base q aw n1 s
  | .staB32 rs base q aw n1 => Sys2Proof.Machine.execStaB32 rs base q aw n1 s
  | .staB64 rs base q aw n1 => Sys2Proof.Machine.execStaB64 rs base q aw n1 s
  | .amoswap d a b q w => Sys2Proof.Machine.execAmoswap d a b q w s
  | .amoadd d a b q w => Sys2Proof.Machine.execAmoadd d a b q w s
  | .amoand d a b q w => Sys2Proof.Machine.execAmoand d a b q w s
  | .amoor d a b q w => Sys2Proof.Machine.execAmoor d a b q w s
  | .amoxor d a b q w => Sys2Proof.Machine.execAmoxor d a b q w s
  | .amominI d a b q w => Sys2Proof.Machine.execAmominI d a b q w s
  | .amomaxI d a b q w => Sys2Proof.Machine.execAmomaxI d a b q w s
  | .amominN d a b q w => Sys2Proof.Machine.execAmominN d a b q w s
  | .amomaxN d a b q w => Sys2Proof.Machine.execAmomaxN d a b q w s
  | .cas d a b q w => Sys2Proof.Machine.execCas d a b q w s
  | .amofadd d a b q w => Sys2Proof.Machine.execAmofadd d a b q w s
  | .fence q => Sys2Proof.Machine.execFence q s
  | .fenceI => Sys2Proof.Machine.execFenceI s
  | .qset q a => Sys2Proof.Machine.execQset q a s
  | .qget d q => Sys2Proof.Machine.execQget d q s
  | .fill r => Sys2Proof.Machine.execFill r s
  | .drain r => Sys2Proof.Machine.execDrain r s
  | .peek d a => Sys2Proof.Machine.execPeek d a s
  | .msend tag a b => Sys2Proof.Machine.execMsend tag a b s
  | .mwait d => Sys2Proof.Machine.execMwait d s
  | .mget d h => Sys2Proof.Machine.execMget d h s
  | .arm a b => Sys2Proof.Machine.execArm a b s
  | .arrive q a b => Sys2Proof.Machine.execArrive q a b s
  | .await d a b => Sys2Proof.Machine.execAwait d a b s
  | .wtadd d a => Sys2Proof.Machine.execWtadd d a s
  | .wtdel d a => Sys2Proof.Machine.execWtdel d a s
  | .start d a b => Sys2Proof.Machine.execStart d a b s
  | .reap d a => Sys2Proof.Machine.execReap d a s
  | .migrate a => Sys2Proof.Machine.execMigrate a s
  | .spawn red a b => Sys2Proof.Machine.execSpawn red a b s
  | .sret a => Sys2Proof.Machine.execSret a s
  | .sync d => Sys2Proof.Machine.execSync d s
  | .chopen a b => Sys2Proof.Machine.execChopen a b s
  | .chaccept a b => Sys2Proof.Machine.execChaccept a b s
  | .chclose port => Sys2Proof.Machine.execChclose port s
  | .chstat d port => Sys2Proof.Machine.execChstat d port s
  | .bar a => Sys2Proof.Machine.execBar a s
  | .allred tok src dst e bar mode => Sys2Proof.Machine.execAllred tok src dst e bar mode s
  | .red tok src dst e bar mode => Sys2Proof.Machine.execRed tok src dst e bar mode s
  | .bcast tok src dst e bar mode => Sys2Proof.Machine.execBcast tok src dst e bar mode s
  | .allgat tok src dst e bar mode => Sys2Proof.Machine.execAllgat tok src dst e bar mode s
  | .vadd d a b rm ty => Sys2Proof.Machine.execVadd d a b rm ty s
  | .vsub d a b rm ty => Sys2Proof.Machine.execVsub d a b rm ty s
  | .vmul d a b rm ty => Sys2Proof.Machine.execVmul d a b rm ty s
  | .vdiv d a b rm ty => Sys2Proof.Machine.execVdiv d a b rm ty s
  | .vsqrt d a rm ty => Sys2Proof.Machine.execVsqrt d a rm ty s
  | .vmin d a b ty => Sys2Proof.Machine.execVmin d a b ty s
  | .vmax d a b ty => Sys2Proof.Machine.execVmax d a b ty s
  | .vmac d a b rm ty => Sys2Proof.Machine.execVmac d a b rm ty s
  | .vceq d a b ty => Sys2Proof.Machine.execVceq d a b ty s
  | .vclt d a b ty => Sys2Proof.Machine.execVclt d a b ty s
  | .vcle d a b ty => Sys2Proof.Machine.execVcle d a b ty s
  | .vsel d a b ty => Sys2Proof.Machine.execVsel d a b ty s
  | .vand d a b ty => Sys2Proof.Machine.execVand d a b ty s
  | .vor d a b ty => Sys2Proof.Machine.execVor d a b ty s
  | .vxor d a b ty => Sys2Proof.Machine.execVxor d a b ty s
  | .vcvt d a src rm ty => Sys2Proof.Machine.execVcvt d a src rm ty s
  | .vectorCompletion thr => Sys2Proof.Machine.execVectorCompletion thr s
  | .vclaim d a => Sys2Proof.Machine.execVclaim d a s
  | .vgrant d => Sys2Proof.Machine.execVgrant d s
  | .vlset d a => Sys2Proof.Machine.execVlset d a s
  | .vlget d => Sys2Proof.Machine.execVlget d s
  | .vsget d => Sys2Proof.Machine.execVsget d s
  | .vsset a => Sys2Proof.Machine.execVsset a s
  | .pset d a => Sys2Proof.Machine.execPset d a s
  | .pget d a => Sys2Proof.Machine.execPget d a s
  | .vredsum d a rm ty => Sys2Proof.Machine.execVredsum d a rm ty s
  | .vredmin d a ty => Sys2Proof.Machine.execVredmin d a ty s
  | .vredmax d a ty => Sys2Proof.Machine.execVredmax d a ty s
  | .vshuf d a b w => Sys2Proof.Machine.execVshuf d a b w s
  | .vgather d a b w => Sys2Proof.Machine.execVgather d a b w s
  | .vpadd d a b sat pt => Sys2Proof.Machine.execVpadd d a b sat pt s
  | .vpsub d a b sat pt => Sys2Proof.Machine.execVpsub d a b sat pt s
  | .vpmul d a b sat pt => Sys2Proof.Machine.execVpmul d a b sat pt s
  | .vpmac d a b sat pt => Sys2Proof.Machine.execVpmac d a b sat pt s
  | .vexp2 d a => Sys2Proof.Machine.execVexp2 d a s
  | .vlog2 d a => Sys2Proof.Machine.execVlog2 d a s
  | .vrcp d a => Sys2Proof.Machine.execVrcp d a s
  | .vrsqrt d a => Sys2Proof.Machine.execVrsqrt d a s
  | .vtanh d a => Sys2Proof.Machine.execVtanh d a s
  | .tclaim t => Sys2Proof.Machine.execTclaim t s
  | .trelease t => Sys2Proof.Machine.execTrelease t s
  | .tshape t e => Sys2Proof.Machine.execTshape t e s
  | .tinfo d t => Sys2Proof.Machine.execTinfo d t s
  | .tld t a b => Sys2Proof.Machine.execTld t a b s
  | .tsave t a b => Sys2Proof.Machine.execTsave t a b s
  | .trowld t a p => Sys2Proof.Machine.execTrowld t a p s
  | .trowst t a p => Sys2Proof.Machine.execTrowst t a p s
  | .tcolld t a p => Sys2Proof.Machine.execTcolld t a p s
  | .tcolst t a p => Sys2Proof.Machine.execTcolst t a p s
  | .cvq d p sat rnd e wide fmt => Sys2Proof.Machine.execCvq d p sat rnd e wide fmt s
  | .cvd p src e wide fmt => Sys2Proof.Machine.execCvd p src e wide fmt s
  | .mmaE2m1 tok a ta tb mode => Sys2Proof.Machine.execMmaE2m1 tok a ta tb mode s
  | .mmaE4m3 tok a ta tb mode => Sys2Proof.Machine.execMmaE4m3 tok a ta tb mode s
  | .mmaE5m2 tok a ta tb mode => Sys2Proof.Machine.execMmaE5m2 tok a ta tb mode s
  | .mmaE4m3e5m2 tok a ta tb mode => Sys2Proof.Machine.execMmaE4m3e5m2 tok a ta tb mode s
  | .mmaI8 tok a ta tb mode => Sys2Proof.Machine.execMmaI8 tok a ta tb mode s
  | .mmaBf16 tok a ta tb mode => Sys2Proof.Machine.execMmaBf16 tok a ta tb mode s
  | .mmaF32 tok a ta tb mode => Sys2Proof.Machine.execMmaF32 tok a ta tb mode s
  | .mmaF64 tok a ta tb mode => Sys2Proof.Machine.execMmaF64 tok a ta tb mode s
  | .twait d a => Sys2Proof.Machine.execTwait d a s
  | .twaitT d a => Sys2Proof.Machine.execTwaitT d a s
  | .ttest d a => Sys2Proof.Machine.execTtest d a s
  | .tcancel d a => Sys2Proof.Machine.execTcancel d a s
  | .tdetach d a => Sys2Proof.Machine.execTdetach d a s
  | .tadopt d a => Sys2Proof.Machine.execTadopt d a s
  | .tprio d a b => Sys2Proof.Machine.execTprio d a b s
  | .tafter d a b => Sys2Proof.Machine.execTafter d a b s
  | .tfault d a => Sys2Proof.Machine.execTfault d a s
  | .tlist d a => Sys2Proof.Machine.execTlist d a s
  | .copy tok src dst e bar mode => Sys2Proof.Machine.execCopy tok src dst e bar mode s
  | .cset tok src dst e bar mode => Sys2Proof.Machine.execCset tok src dst e bar mode s
  | .adict mask a b => Sys2Proof.Machine.execAdict mask a b s
  | .acfg tok a e => Sys2Proof.Machine.execAcfg tok a e s
  | .aset p a b => Sys2Proof.Machine.execAset p a b s
  | .ascale p a b => Sys2Proof.Machine.execAscale p a b s
  | .arun tok a b e => Sys2Proof.Machine.execArun tok a b e s
  | .asample a b e => Sys2Proof.Machine.execAsample a b e s
  | .astop d a => Sys2Proof.Machine.execAstop d a s
  | .acal d a => Sys2Proof.Machine.execAcal d a s
  | .astat d a => Sys2Proof.Machine.execAstat d a s
  | .mfs d n => Sys2Proof.Machine.execMfs d n s
  | .mts rs n => Sys2Proof.Machine.execMts rs n s
  | .epfqRead thr => Sys2Proof.Machine.execEpfqRead thr s
  | .budgetWrite v => Sys2Proof.Machine.execBudgetWrite v s
  | .pfloorWrite v => Sys2Proof.Machine.execPfloorWrite v s
  | .pweightWrite v => Sys2Proof.Machine.execPweightWrite v s
  | .eret => Sys2Proof.Machine.execEret s
  | .trap n => Sys2Proof.Machine.execTrap n s
  | .tlbinv a b => Sys2Proof.Machine.execTlbinv a b s
  | .wdset d a => Sys2Proof.Machine.execWdset d a s
  | .kill a => Sys2Proof.Machine.execKill a s
  | .preempt a => Sys2Proof.Machine.execPreempt a s
  | .ext a e => Sys2Proof.Machine.execExt a e s
  | .exr d e => Sys2Proof.Machine.execExr d e s
  | .exti e h mode imm => Sys2Proof.Machine.execExti e h mode imm s
  | .addMove_16 d a => Sys2Proof.Machine.execAddMove_16 d a s
  | .add_16 d a => Sys2Proof.Machine.execAdd_16 d a s
  | .sub_16 d a => Sys2Proof.Machine.execSub_16 d a s
  | .and_16 d a => Sys2Proof.Machine.execAnd_16 d a s
  | .or_16 d a => Sys2Proof.Machine.execOr_16 d a s
  | .xor_16 d a => Sys2Proof.Machine.execXor_16 d a s
  | .sll_16 d a => Sys2Proof.Machine.execSll_16 d a s
  | .faddF64_16 d a => Sys2Proof.Machine.execFaddF64_16 d a s
  | .fmulF64_16 d a => Sys2Proof.Machine.execFmulF64_16 d a s
  | .faddF32_16 d a => Sys2Proof.Machine.execFaddF32_16 d a s
  | .fmulF32_16 d a => Sys2Proof.Machine.execFmulF32_16 d a s
  | .ldB64_16 d a => Sys2Proof.Machine.execLdB64_16 d a s
  | .stB64_16 d a => Sys2Proof.Machine.execStB64_16 d a s
  | .ldN32_16 d a => Sys2Proof.Machine.execLdN32_16 d a s
  | .stB32_16 d a => Sys2Proof.Machine.execStB32_16 d a s
  | .ldF32_16 d a => Sys2Proof.Machine.execLdF32_16 d a s
  | .stF32_16 d a => Sys2Proof.Machine.execStF32_16 d a s
  | .li_16 d imm => Sys2Proof.Machine.execLi_16 d imm s
  | .addi_16 d imm => Sys2Proof.Machine.execAddi_16 d imm s
  | .slli_16 d imm => Sys2Proof.Machine.execSlli_16 d imm s
  | .srli_16 d imm => Sys2Proof.Machine.execSrli_16 d imm s
  | .srai_16 d imm => Sys2Proof.Machine.execSrai_16 d imm s
  | .ldB64Sp_16 d imm => Sys2Proof.Machine.execLdB64Sp_16 d imm s
  | .stB64Sp_16 d imm => Sys2Proof.Machine.execStB64Sp_16 d imm s
  | .jmp_16 disp => Sys2Proof.Machine.execJmp_16 disp s
  | .call_16 disp => Sys2Proof.Machine.execCall_16 disp s
  | .halt_16 => Sys2Proof.Machine.execHalt_16 s
  | .yield_16 => Sys2Proof.Machine.execYield_16 s
  | .ret_16 => Sys2Proof.Machine.execRet_16 s
  | .brk_16 => Sys2Proof.Machine.execBrk_16 s
  | .nop_16 => Sys2Proof.Machine.execNop_16 s
  | .replyWriteback thr => Sys2Proof.Machine.execReplyWriteback thr s
  | .watchdogExpiry thr => Sys2Proof.Machine.execWatchdogExpiry thr s
  | .threadEnd thr => Sys2Proof.Machine.execThreadEnd thr s
  | .postedWritePerform thr idx => Sys2Proof.Machine.execPostedWritePerform thr idx s
  | .mailboxMessageDelivery core => Sys2Proof.Machine.execMailboxMessageDelivery core s
  | .pendingCompletionDelivery core => Sys2Proof.Machine.execPendingCompletionDelivery core s
  | .channelPushDelivery chan => Sys2Proof.Machine.execChannelPushDelivery chan s
  | .updateApply die => Sys2Proof.Machine.execUpdateApply die s
  | .parkedClaimGrant course => Sys2Proof.Machine.execParkedClaimGrant course s
  | .tokenSelect eng => Sys2Proof.Machine.execTokenSelect eng s
  | .permitGrant die => Sys2Proof.Machine.execPermitGrant die s
  | .mmaPartialReady course => Sys2Proof.Machine.execMmaPartialReady course s
  | .partialRetry course => Sys2Proof.Machine.execPartialRetry course s
  | .mortarMerge acc => Sys2Proof.Machine.execMortarMerge acc s
  | .copyUnit course => Sys2Proof.Machine.execCopyUnit course s
  | .collectiveComplete tok => Sys2Proof.Machine.execCollectiveComplete tok s
  | .acfgComplete tok => Sys2Proof.Machine.execAcfgComplete tok s
  | .vaultRequestArrival die => Sys2Proof.Machine.execVaultRequestArrival die s
  | .vaultTick die => Sys2Proof.Machine.execVaultTick die s
  | .settleTimeout tok => Sys2Proof.Machine.execSettleTimeout tok s
  | .runTimeLimit tok => Sys2Proof.Machine.execRunTimeLimit tok s
  | .sampleConversionDone thr => Sys2Proof.Machine.execSampleConversionDone thr s
  | .calibrationDone thr => Sys2Proof.Machine.execCalibrationDone thr s
  | .calibrationExpiry column => Sys2Proof.Machine.execCalibrationExpiry column s
  | .calibrationTemperatureDrift die temp => Sys2Proof.Machine.execCalibrationTemperatureDrift die temp s
  | .preemptionHalt thr => Sys2Proof.Machine.execPreemptionHalt thr s
  | .swapOut core => Sys2Proof.Machine.execSwapOut core s
  | .swapIn core => Sys2Proof.Machine.execSwapIn core s
  | .quantumExpiry core => Sys2Proof.Machine.execQuantumExpiry core s
  | .doorbell part ring => Sys2Proof.Machine.execDoorbell part ring s
  | .launch part ring => Sys2Proof.Machine.execLaunch part ring s
  | .launchAccept part ring => Sys2Proof.Machine.execLaunchAccept part ring s
  | .nopPacket part ring => Sys2Proof.Machine.execNopPacket part ring s
  | .waitend part ring => Sys2Proof.Machine.execWaitend part ring s
  | .preemptPacket part ring => Sys2Proof.Machine.execPreemptPacket part ring s
  | .resumePacket part ring => Sys2Proof.Machine.execResumePacket part ring s
  | .killPacket part ring => Sys2Proof.Machine.execKillPacket part ring s
  | .teamPlacement part => Sys2Proof.Machine.execTeamPlacement part s
  | .launchEnd launch => Sys2Proof.Machine.execLaunchEnd launch s
  | .contextClaim core => Sys2Proof.Machine.execContextClaim core s
  | .migrationArrival core => Sys2Proof.Machine.execMigrationArrival core s
  | .stealAgent core => Sys2Proof.Machine.execStealAgent core s
  | .thermalRankingRewrite die row => Sys2Proof.Machine.execThermalRankingRewrite die row s
  | .removalLevelChange core level => Sys2Proof.Machine.execRemovalLevelChange core level s
  | .thermalDisplacement thr => Sys2Proof.Machine.execThermalDisplacement thr s
  | .powerWindow die watts => Sys2Proof.Machine.execPowerWindow die watts s
  | .thermalTrip die detail => Sys2Proof.Machine.execThermalTrip die detail s
  | .flitReceive lnk seq good => Sys2Proof.Machine.execFlitReceive lnk seq good s
  | .nakReceive lnk seq => Sys2Proof.Machine.execNakReceive lnk seq s
  | .laneFailure lnk repairable => Sys2Proof.Machine.execLaneFailure lnk repairable s
  | .retrainComplete lnk => Sys2Proof.Machine.execRetrainComplete lnk s
  | .moduleDown lnk sideband => Sys2Proof.Machine.execModuleDown lnk sideband s
  | .ebnanPortDown port => Sys2Proof.Machine.execEbnanPortDown port s
  | .pierFailure part rank => Sys2Proof.Machine.execPierFailure part rank s
  | .hostWriteDeviceDram addr bytes => Sys2Proof.Machine.execHostWriteDeviceDram addr bytes s
  | .hostSectorAccess addr bytes => Sys2Proof.Machine.execHostSectorAccess addr bytes s
  | .bootstat cmd => Sys2Proof.Machine.execBootstat cmd s
  | .partset cmd cfg => Sys2Proof.Machine.execPartset cmd cfg s
  | .partdel cmd part => Sys2Proof.Machine.execPartdel cmd part s
  | .attest cmd addr nonce => Sys2Proof.Machine.execAttest cmd addr nonce s
  | .mgmtq cmd addr => Sys2Proof.Machine.execMgmtq cmd addr s
  | .freeze cmd => Sys2Proof.Machine.execFreeze cmd s
  | .thaw cmd => Sys2Proof.Machine.execThaw cmd s
  | .dhalt cmd target writes => Sys2Proof.Machine.execDhalt cmd target writes s
  | .debugHaltReached thr => Sys2Proof.Machine.execDebugHaltReached thr s
  | .drun cmd thr writes => Sys2Proof.Machine.execDrun cmd thr writes s
  | .dstep cmd thr => Sys2Proof.Machine.execDstep cmd thr s
  | .floor cmd version sig => Sys2Proof.Machine.execFloor cmd version sig s
  | .freezePinAssert => Sys2Proof.Machine.execFreezePinAssert s
  | .freezePinRelease => Sys2Proof.Machine.execFreezePinRelease s
  | .deviceReset image => Sys2Proof.Machine.execDeviceReset image s
  | .scanReadout die chain => Sys2Proof.Machine.execScanReadout die chain s
  | .patrolScrub sector => Sys2Proof.Machine.execPatrolScrub sector s
  | .illegalInstruction bits half => Sys2Proof.Machine.execIllegalInstruction bits half s
  | .instructionFetchFault addr perm => Sys2Proof.Machine.execInstructionFetchFault addr perm s
  | .pierSetConfigure part cfg => Sys2Proof.Machine.execPierSetConfigure part cfg s

end Sys2Proof.Machine
end

