-- ==== Sys2Proof/Machine/Fetch.lean ====
section
/-! DEFINITION. What the device does next: an event, or the issue slot of a core: fetch (R71-R75), the barrel (R367), the
boundaries at which a thread is halted, displaced or swapped (R293, R368, R420). -/

namespace Sys2Proof.Machine

/-! ## Fetch -/

/-- What a fetch of the halfword at pa may return: the present content, then the older ones that stores since the fetching
thread's last `fence.i` have changed (R75), newest first. -/
def State.contents (s : State) (thr pa : Nat) : List Half :=
  ofBytes 16 (s.physRead pa 2) ::
    ((s.hist.filter fun h => (s.ctx thr).fencedAt < h.1 && h.2.1 == pa).map fun h => h.2.2).reverse

/-- One of them: a free choice where there is more than one (DESIGN CHOICE, log entry 20). -/
def State.pickHalf (s : State) (thr pa : Nat) : Half × State :=
  let cs := s.contents thr pa
  if cs.length = 1 then (cs.headD 0, s)
  else (cs.getD (Config.staleFetch s.fresh % cs.length) 0, { s with fresh := s.fresh + 1 })

/-- Why a fetch fails: translation or permission (R73), or an uncorrectable error in memory (R354). -/
inductive FetchStop where
  | fault (addr : BitVec 57) (perm : Bool)
  | bad (unit : Nat × Nat) (addr : BitVec 57)
  deriving DecidableEq, Repr

/-- A fetch from a block of the L1 instruction cache whose parity fails: the block is discarded, to be fetched again, and the error
counted (R354). -/
def State.fetchParity (s : State) (core part pa : Nat) : State :=
  if s.badL1i.contains (core, blockNo pa) then
    { s with
      badL1i := s.badL1i.erase (core, blockNo pa)
      caches := { s.caches with l1i := Tbl.set [] s.caches.l1i core ((Tbl.get [] s.caches.l1i core).erase (blockNo pa)) }
    }.countErrors part 1
  else s

/-- A block that the L1 instruction cache of a core does not hold is read from its home, over the modules (R5, R75, R390), and filled
where the page allocates in an L1 (R145). -/
def State.fetchBlock (s : State) (core part : Nat) (v : Via) (pa : Nat) : State :=
  if (Tbl.get [] s.caches.l1i core).contains (blockNo pa) then s
  else
    let s1 := (s.readLine (dieOfCore core) (dieOfCore v.home) pa).cacheLoad part v (.phys pa) 2
    let c := if v.lvl = 0 then s1.caches.fetchBlock core (blockNo pa) else s1.caches
    { s1 with caches := c, badL1i := s1.badL1i.filter fun x => (Tbl.get [] c.l1i x.1).contains x.2 }

/-- The running thread's fetch of an address finds no translation, or an uncorrectable error: what it met on its way is corrected. -/
def State.fetchSought (s : State) (thr : Nat) (va : BitVec 57) : State :=
  s.lookedUp (coreOf thr) (s.ctx thr).part (s.ctx thr).tasid va

/-- The halfword at an address, for a thread. -/
def State.fetchHalf (s : State) (thr : Nat) (va : BitVec 57) : Except FetchStop (Half × State) :=
  let c := s.ctx thr
  match s.translate (coreOf thr) c.part c.tasid (stPl c.status) va .fetch with
  | .error ⟨_, _, some u⟩ => .error (.bad u va)
  | .error ⟨cls, _, none⟩ => .error (.fault va (cls == .perm))
  | .ok (pa, leaf, s1) => match s1.badUnit (.phys pa) 2 with
    | some u => .error (.bad u va)
    | none =>
      let s2 := s1.fetchParity (coreOf thr) c.part pa
      .ok ((s2.fetchBlock (coreOf thr) c.part (viaOf s none c.part c.tasid leaf 0 va pa) pa).pickHalf thr pa)

/-- The halfwords of the instruction at pc: h0, and h1 where h0 announces it (R71, R73). -/
def State.fetch (s : State) (thr : Nat) : Except FetchStop (List Half × State) := do
  let pc := (s.ctx thr).pc
  let (h0, s1) ← s.fetchHalf thr pc
  if bits h0 14 2 == (3 : BitVec 2) then do
    let (h1, s2) ← s1.fetchHalf thr (pc + 2)
    return ([h0, h1], s2)
  else return ([h0], s1)

/-! ## What a parked thread waits for -/

/-- The condition that a thread parked at step 6 or 7 waits for holds no more. -/
def ParkCond.ended (s : State) (thr : Nat) : ParkCond → Bool
  | .operands fs => fs.all (Field.ready s thr)
  | .postedFull => (s.ctx thr).posted.length < 8
  | .postedAny => (s.ctx thr).posted.isEmpty
  | .scPending => !s.scPending
  | .mailboxFull k => s.mailUsed k < 32
  | .mailboxEmpty => !(s.core (coreOf thr)).tm.mailbox.isEmpty
  | .slotBusy course k => (s.slot course k).uses == 0
  | .slotsBound course => (s.pickSlot course).isSome
  | .tokenLive h => (s.tokenAt h).all fun t => t.state.terminal
  | .contextUsed t => !(s.ctx t).live
  | .noSegment => (s.part (s.ctx thr).part).poolCount == 0 || (s.part (s.ctx thr).part).freeSegment.isSome
  | .acfgPending m => !s.acfgPending m
  | .runPending m => !s.groupRuns m

/-- The thread may issue as far as its wait goes. -/
def State.awake (s : State) (thr : Nat) : Bool :=
  match (s.ctx thr).wait with
  | .ready => true
  | .cond c => c.ended s thr
  | .barrier key gen a => s.barrierOpen thr key gen a
  | .load _ _ _ _ _ _ _ _ _ _ _ => false
  | .storeSc _ _ => false
  | .atomic _ _ _ _ _ _ _ _ _ _ _ _ => false
  | .answered _ _ _ _ _ => false
  | .finish _ => false
  | .vector _ _ _ _ => false
  | .await _ _ _ _ => false
  | .claim _ _ => false
  | .dict m _ _ _ => !s.acfgPending m
  | .attached _ _ => false
  | .halting => false
  | .vault _ _ _ => false
  | .segment _ => false

/-- A thread that was parked at step 6 or 7 re-issues from step 1. -/
def Ctx.awoken (c : Ctx) : Ctx :=
  match c.wait with
  | .cond _ => { c with wait := .ready }
  | _ => c

/-- A swapped-in deterministic team issues nothing before its lanes are claimed (R172). -/
def State.teamHeld (s : State) (thr : Nat) : Bool :=
  let k := s.core (coreOf thr)
  k.teamClaim && k.team == some ((s.ctx thr).ident.launch, (s.ctx thr).ident.team)

/-- The thread issues at this slot (R22, R367). -/
def State.runnable (s : State) (thr : Nat) : Bool :=
  let c := s.ctx thr
  c.live && !c.halted && !c.dbgHeld && decide (c.resumeAt ≤ (s.core (coreOf thr)).cycle) && !s.teamHeld thr && s.awake thr

/-! ## Issue -/

/-- An instruction by its halfwords. -/
def halfWord (hs : List Half) : Word32 :=
  match hs with
  | [h] => h.setWidth 32
  | [h, g] => h ++ g
  | _ => 0

/-- The running thread notes what it issues. -/
def State.noteIr (s : State) (hs : List Half) : State := s.modMe fun c => { c with ir := halfWord hs }

/-- The issue of the running thread: steps 1 to 3 of R80, and the instruction. -/
noncomputable def State.issueNext (s : State) : Out :=
  match s.fetch s.cur with
  | .error (.fault addr perm) => exec (.instructionFetchFault addr perm) (s.fetchSought s.cur addr)
  | .error (.bad u addr) => .next ((s.fetchSought s.cur addr).fetchError u.1 u.2 addr)
  | .ok (hs, s1) => match decode (Sys2Proof.halfBytes hs) with
    | .instr i _ => exec i (s1.noteIr hs)
    | .illegal w half => exec (.illegalInstruction w half) s1
    | .truncated => .next s1

/-- The running thread goes on at its slot: an `adict` that waited with its words asks (R260), any other thread issues. -/
noncomputable def State.goOn (s : State) : Out :=
  match s.me.wait with
  | .dict m first ws srcs => .next (s.askAll (diesOf m fun k => .dict k first ws) srcs none)
  | _ => (s.modMe Ctx.awoken).issueNext

/-! ## Events -/

/-- Posted write i of a thread may be performed now: no earlier one goes before it (R150). -/
def State.mayPerform (s : State) (thr i : Nat) : Bool :=
  let ps := (s.ctx thr).posted
  match ps[i]? with
  | some p => !p.sent && !(ps.take i).any fun a => a.before p
  | none => false

/-- The first posted write of a thread that may be performed now. -/
def State.firstPosted (s : State) (thr : Nat) : Nat :=
  ((List.range (s.ctx thr).posted.length).find? (s.mayPerform thr)).getD (s.ctx thr).posted.length

/-- The opcode of the packet at a ring's tail; 0 for none. -/
def State.opcodeAt (s : State) (part ring : Nat) : Nat :=
  match s.served part ring with
  | .packet p => field p 0 1
  | .idle => 0
  | .bad _ _ => 0

/-- The event that is due: a constructor of `Instr`. -/
noncomputable def Due.event (s : State) : Due → Instr
  | .reply thr => .replyWriteback thr
  | .vectorDone thr => .vectorCompletion thr
  | .threadEnd thr => .threadEnd thr
  | .postedWrite thr => .postedWritePerform thr (s.firstPosted thr)
  | .mailDelivery core => .mailboxMessageDelivery core
  | .pendingDelivery core => .pendingCompletionDelivery core
  | .channelPush chan => .channelPushDelivery chan
  | .updateApply die => .updateApply die
  | .claimGrant course => .parkedClaimGrant course
  | .tokenSelect eng => .tokenSelect eng
  | .permitGrant die => .permitGrant die
  | .mmaReady course => .mmaPartialReady course
  | .partialRetry course => .partialRetry course
  | .mortarMerge acc => .mortarMerge acc
  | .copyUnit course => .copyUnit course
  | .collective tok => .collectiveComplete tok
  | .acfgDone tok => .acfgComplete tok
  | .vaultRequest die => .vaultRequestArrival die
  | .sampleDone thr => .sampleConversionDone thr
  | .calibrated thr => .calibrationDone thr
  | .vaultTick die => .vaultTick die
  | .swapIn core => .swapIn core
  | .packet part ring => match s.opcodeAt part ring with
    | 1 => .launch part ring
    | 2 => .nopPacket part ring
    | 3 => .waitend part ring
    | 4 => .preemptPacket part ring
    | 5 => .resumePacket part ring
    | 6 => .killPacket part ring
    | _ => .doorbell part ring
  | .quantum core => .quantumExpiry core
  | .launchAccept part ring => .launchAccept part ring
  | .placement part => .teamPlacement part
  | .launchEnd l => .launchEnd l
  | .contextClaim core => .contextClaim core
  | .migrationArrival core => .migrationArrival core
  | .stealAgent core => .stealAgent core
  | .displacement thr => .thermalDisplacement thr
  | .nak link seq => .nakReceive link seq
  | .flit link seq => .flitReceive link seq true
  | .retrained link => .retrainComplete link

/-- The event that executes a command. -/
noncomputable def Cmd.event : Cmd → Instr
  | .bootstat c => .bootstat c
  | .partset c cfg => .partset c cfg
  | .partdel c part => .partdel c part
  | .attest c addr nonce => .attest c addr nonce
  | .mgmtq c addr => .mgmtq c addr
  | .freeze c => .freeze c
  | .thaw c => .thaw c
  | .dhalt c target ws => .dhalt c target ws
  | .drun c thr ws => .drun c thr ws
  | .dstep c thr => .dstep c thr
  | .floor c version sig => .floor c version sig
  | .refuse port _ => .bootstat ⟨port, 0⟩

/-- A command of the firmware's queue is executed. -/
noncomputable def State.runCmd (s : State) : Cmd → Out
  | .refuse port reason => .next (s.refusePage port reason)
  | c => exec c.event s

/-- What a frozen device still takes: firmware commands, FREEZE_N, the test access port, a reset, and the host's accesses to a command
page (R417-R419). -/
def reachesFrozen : Instr → Bool
  | .bootstat _ => true
  | .partset _ _ => true
  | .partdel _ _ => true
  | .attest _ _ _ => true
  | .mgmtq _ _ => true
  | .freeze _ => true
  | .thaw _ => true
  | .dhalt _ _ _ => true
  | .drun _ _ _ => true
  | .dstep _ _ => true
  | .floor _ _ _ => true
  | .freezePinAssert => true
  | .freezePinRelease => true
  | .deviceReset _ => true
  | .scanReadout _ _ => true
  | .hostWriteDeviceDram addr _ => cmdWindow ≤ offsetOf addr && offsetOf addr < cmdWindow + 4096
  | _ => false

/-- What the world outside the threads may do at any time: the host and its commands, the pins, the links, the monitors. -/
def external : Instr → Bool
  | .doorbell _ _ => true
  | .thermalRankingRewrite _ _ => true
  | .removalLevelChange _ _ => true
  | .powerWindow _ _ => true
  | .thermalTrip _ _ => true
  | .flitReceive _ _ _ => true
  | .nakReceive lnk _ => (farEnd (linkNo lnk)).isNone
  | .laneFailure _ _ => true
  | .moduleDown _ _ => true
  | .ebnanPortDown _ => true
  | .pierFailure _ _ => true
  | .hostWriteDeviceDram _ _ => true
  | .hostSectorAccess _ _ => true
  | .calibrationTemperatureDrift _ _ => true
  | .pierSetConfigure _ _ => true
  | .patrolScrub _ => true
  | i => reachesFrozen i

/-- The plan may have any of a thread's posted writes performed that may be now, not only the first (R150, R304; log entry 11). -/
def Due.allows (s : State) : Due → Instr → Bool
  | .postedWrite thr, .postedWritePerform t i => t == thr && s.mayPerform thr i
  | _, _ => false

/-- The events that an earlier step made due, with one of them taken out. -/
noncomputable def State.takeDue (s : State) (i : Instr) : List Due → Option State
  | [] => none
  | d :: ds => if d.event s = i || d.allows s i then some { s with agenda := ds } else
    (s.takeDue i ds).map fun s' => { s' with agenda := d :: s'.agenda }

/-! ## The barrel (R367) -/

/-- The core has something to do: a team, a thread, or a write under way. -/
def State.active (s : State) (core : Nat) : Bool :=
  let k := s.core core
  k.team.isSome || !k.wb.isEmpty || !k.pushDue.isEmpty || !k.sysWb.isEmpty || !k.vecDue.isEmpty || (slotsOf core).any fun t => (s.ctx t).live

/-- The least of some numbers. -/
def least : List Nat → Option Nat
  | [] => none
  | x :: xs => some (xs.foldl min x)

def State.activeCores (s : State) : List Nat :=
  (s.cores.map Prod.fst ++ s.threads.map fun t => coreOf t.1).filter s.active

/-- The active core after one, in ascending order, the lowest after the highest. -/
def State.coreAfter (s : State) (core : Nat) : Option Nat :=
  (least (s.activeCores.filter fun k => core < k)).or (least s.activeCores)

/-- A clock of the vault dies passes. -/
def State.vaultTicks (s : State) : State := (s.post (.vaultTick 0)).post (.vaultTick 1)

/-- Accesses to system registers whose cycle has come (R285). -/
def State.landSys (s : State) (core : Nat) : State :=
  let k := s.core core
  (k.sysWb.filter fun w => w.due ≤ k.cycle).foldl State.sysLand
    (s.modCore core fun k => { k with sysWb := k.sysWb.filter fun w => k.cycle < w.due })

/-- Window writes, channel pushes and vector completions whose cycle has come (R24, R177). -/
def State.landWin (s : State) (core : Nat) : State :=
  let k := s.core core
  let s1 := s.modCore core fun k =>
    { k with
      tm := (k.wb.filter fun w => w.due ≤ k.cycle).foldl TeamMem.land k.tm
      wb := k.wb.filter fun w => k.cycle < w.due
      pushDue := k.pushDue.filter fun p => k.cycle < p.1
      vecDue := k.vecDue.filter fun v => k.cycle < v.1 }
  postAll (((k.pushDue.filter fun p => p.1 ≤ k.cycle).map fun p => .channelPush p.2) ++
    (k.vecDue.filter fun v => v.1 ≤ k.cycle).map fun v => .vectorDone v.2) s1

/-- What takes effect in a core's present cycle. -/
def State.land (s : State) (core : Nat) : State := (s.landSys core).landWin core

/-- What comes due as a core's clock passes: the end of a quantum (R364), the steal agent (R246). -/
def State.timers (s : State) (core : Nat) : State :=
  let k := s.core core
  match k.team with
  | none => s
  | some (l, _) =>
    let s1 := if (s.part (s.launch l).part).quantum ≤ k.quantum && !k.preempting then s.post (.quantum core) else s
    if k.cycle % 256 = 0 then s1.post (.stealAgent core) else s1

/-- A cycle of a core has passed. -/
def State.passCycle (s : State) (core : Nat) : State :=
  ((s.modCore core fun k =>
    { k with cycle := k.cycle + 1, quantum := if k.team.isSome then k.quantum + 1 else k.quantum }).land core).timers core

/-- The next active core's turn; the vault dies' clock passes once for each round of the cores (DESIGN CHOICE, log entry 21). -/
def State.passTurn (s : State) (core : Nat) : State :=
  match s.coreAfter core with
  | none => s.vaultTicks
  | some k => if k ≤ core then { s with turn := k }.vaultTicks else { s with turn := k }

/-! ## An issue slot -/

/-- Does something to the next state of a step. -/
def mapNext (f : State → State) : Out → Out
  | .next s => .next (f s)
  | .fault r => .fault r
  | .refused r => .refused r

/-- The team under pre-emption has halted everywhere. -/
def State.readyOut (s : State) (core : Nat) : Bool :=
  let k := s.core core
  k.preempting && (match k.team with
    | some (l, t) => (s.teamThreads l t).all fun x => (s.ctx x).halted
    | none => false)

/-- A debug halt is due at the thread's boundary (R420). -/
def Ctx.debugDue (c : Ctx) : Bool := c.live && c.dbgAsked && !c.dbgHeld && !c.dbgStep && c.wait.boundary

/-- What the thread of the present slot of a core does: first what the core or the thread is due at a boundary. A debugger's step of a
thread that stays parked ends there: it halts parked at its next slot (R420). -/
noncomputable def State.slotWork (s : State) (core : Nat) : Out :=
  let thr := s.cur
  let c := s.ctx thr
  if (s.core core).restoring then exec (.swapIn core) s
  else if c.live && !c.halted && s.preempted thr && c.wait.boundary then exec (.preemptionHalt thr) s
  else if s.readyOut core then exec (.swapOut core) s
  else if c.debugDue then exec (.debugHaltReached thr) s
  else if !c.dbgHeld && (s.displaceable thr).isSome then exec (.thermalDisplacement thr) s
  else if c.live && c.dbgStep && !c.dbgHeld && c.wait.boundary && !s.awake thr then
    .next (s.modCtx thr fun c => { c with dbgStep := false })
  else if s.runnable thr then mapNext (fun t => t.modCtx thr fun c => { c with dbgStep := false }) s.goOn
  else .next s

/-- The thread whose slot a core's cycle is (R367). -/
def State.slotThread (s : State) (core : Nat) : Nat := 16 * core + (s.core core).cycle % 16

/-- The thread of a core's present slot is the one whose step this is. -/
def State.atSlot (s : State) (core : Nat) : State := { s with cur := s.slotThread core }

/-- One cycle of a core. -/
noncomputable def State.slotStep (s : State) (core : Nat) : Out :=
  mapNext (fun t => (t.passCycle core).passTurn core) ((s.atSlot core).slotWork core)

/-- The core whose turn it is. -/
def State.turnCore (s : State) : Option Nat := if s.active s.turn then some s.turn else s.coreAfter s.turn

/-! ## What happens next -/

/-- A choice of the plan is an event that reaches a frozen device. -/
def Turn.reachesFrozen : Turn → Bool
  | .event i => Machine.reachesFrozen i
  | .slot _ => false

/-- Flits come in the order in which they were sent: the plan may say how the next one that is on its way to an end comes, and, where
none is, that a new one comes from outside or of traffic that no rule counts (R390, R392). -/
def State.comes (s : State) : Instr → Bool
  | .flitReceive lnk seq _ => match s.agenda.find? (Due.isFlitTo lnk) with
    | some d => d == .flit lnk seq
    | none => match farEnd (linkNo lnk) with
      | some f => seq.toNat == (s.linkAt f).nextSeq
      | none => true
  | _ => true

/-- An event that the plan chooses: one of the outside world, or one that is due, which is due no more. -/
noncomputable def State.chosen (s : State) (i : Instr) : Out :=
  if external i then (if s.comes i then exec i s else .next s)
  else match s.takeDue i s.agenda with
    | some s' => exec i s'
    | none => .next s

/-- A frozen device takes the first event of the plan that reaches it; all else waits (R418). -/
noncomputable def State.frozenStep (s : State) : Out :=
  match s.plan.find? Turn.reachesFrozen with
  | some (.event i) => exec i { s with plan := s.plan.erase (.event i) }
  | _ => .next s

def Cmd.isThaw : Cmd → Bool
  | .thaw _ => true
  | _ => false

/-- The next command that waits, once the one before it is executed (R417); a THAW while a freeze holds up a PARTDEL. -/
def State.nextCmd (s : State) : Option (Cmd × State) :=
  match s.fw.waiting with
  | c :: cs =>
    if !s.busy then some (c, { s with fw := { s.fw with waiting := cs } })
    else match s.fw.waiting.find? Cmd.isThaw with
      | some t => if s.fw.frozen then some (t, { s with fw := { s.fw with waiting := s.fw.waiting.erase t } }) else none
      | none => none
  | [] => none

/-- The next step: a command that has waited, else what the plan chooses, else the first event that is due, else the slot of the core whose turn it is. -/
noncomputable def State.advanceDevice (s : State) : Out :=
  match s.nextCmd with
  | some (c, s') => s'.runCmd c
  | none => if s.fw.frozen then s.frozenStep
    else match s.plan with
      | .event i :: ts => { s with plan := ts }.chosen i
      | .slot k :: ts => if s.active k then { s with plan := ts }.slotStep k else .next { s with plan := ts }
      | [] => if s.fw.boot = 0 then .next s.bootPhase
        else match s.agenda with
        | d :: ds => exec (d.event s) { s with agenda := ds }
        | [] => match s.turnCore with
          | some k => s.slotStep k
          | none => .next s.vaultTicks

/-! ## The instruction that a state fetches next -/

/-- The leaf entry of a page of 64 KiB at physical address 0 that every privilege reads, writes and runs (R346). -/
def openLeaf : Word := 0xF3

/-- Partition 0 with course 0 and the first granule of memory. -/
def Part.open : Part := { Part.zero with valid := true, courses := [0], owned := [(0, 1)] }

/-- A thread of a launch that fetches at physical address 0. -/
def Ctx.fetching : Ctx := { Ctx.blank with live := true }

end Sys2Proof.Machine
end

