-- ==== Sys2Proof/Machine/Step.lean ====
section
/-! DEFINITION. One step of the device, and a state that fetches a given instruction next. -/

namespace Sys2Proof.Machine

/-- One step. -/
noncomputable def step (s : State) : Host.Outcome State Fault Refusal := s.advanceDevice

/-- The state with the instruction whose bits are w (as spec/opcode_table.json numbers them) where the next step fetches:
physical address 0, which thread 0 of core 0 runs at pc 0. The sill would have placed such a thread (R363, R69; log entry
22): partition 0 holds course 0 and the first granule, the page is in the TLB, the thread's team holds the core. -/
def State.withFetchWord (s : State) (nbits w : Nat) : State :=
  { s with
    mem := Mem.write s.mem 0 ((tableBytes nbits w ++ [0, 0]).take 4)
    hist := []
    threads := Tbl.set Ctx.blank s.threads 0 Ctx.fetching
    cores := Tbl.set Core.zero s.cores 0 { Core.zero with team := some (0, 0), tlb := [(0, 0, openLeaf)] }
    parts := Tbl.set Part.zero s.parts 0 Part.open
    plan := [], agenda := [], turn := 0 }

end Sys2Proof.Machine
end

