-- ==== Sys2Proof/Safety.lean ====
section
/-! DEFINITION. The terms in which claims about the device are stated: when an instruction may issue, what a state is after
it has issued, and what a safe run is.

A run is safe where no step of it stops: with a fault, which nothing of this model raises, or with a refusal, an instruction
without a meaning. A trap is no stop: it is a next state (R280). -/

namespace Sys2Proof.Machine

/-- The step from s does not stop. -/
def SafeStep (s : State) : Prop := ∃ t, step s = .next t

/-- No step of a run from s stops, as far as the run goes. -/
def SafeRun : Nat → State → Prop
  | 0, _ => True
  | k + 1, s => ∃ t, step s = .next t ∧ SafeRun k t

/-- The running thread has issued an instruction and stands at step 7 of R80: the instruction's length and address are
noted, and the watchdog has counted it (R137). -/
def State.issued (s : State) (half : Bool) : State :=
  (s.stamp half).modMe fun c => { c with wd := c.wd + 1 }

/-- Nothing that steps 3 to 6 of R80 check, nor a push, keeps an instruction of the running thread with operand fields fs,
of a privilege level, from going on to step 7: the level is reached, every field is in range, a lent task names no window
or channel (R136), every field is ready (R22, R26), the watchdog's limit is not passed (R137), and a destination cout is
bound to a queue that is not discarded (R26, R250). -/
abbrev MayIssue (s : State) (level : Nat) (fs : List Field) : Prop :=
  level ≤ (stPl s.me.status).toNat ∧
  (∀ f ∈ fs, f.bad = none) ∧
  (s.me.lent = true → ∀ f ∈ fs, f.window = none) ∧
  (∀ f ∈ fs, f.ready s s.cur = true) ∧
  s.me.wd + 1 ≤ s.wdLimit s.cur ∧
  (∀ f ∈ fs, (s.pushCheck s.cur f).isOk = true)

/-- Nothing of the device but one thread's context differs. -/
abbrev OnlyThread (s t : State) (thr : Nat) : Prop :=
  { t with threads := s.threads } = s ∧ ∀ k, k ≠ thr → t.ctx k = s.ctx k

/-- Of a context nothing differs but pc and, where a loop's body ends, the loop registers and status.ld (R140). -/
abbrev SameRegs (c d : Ctx) : Prop :=
  { d with pc := c.pc, l := c.l, status := setLd d.status (stLd c.status) } = { c with status := setLd c.status (stLd c.status) }

/-- A vector instruction of the running thread at step 7: vl is clamped to n, and its earlier writes are performed (R173,
R175). -/
def State.vecStart (s : State) (n : Nat) : State := ((s.issued false).clampVl n).performAll s.cur

/-- A vector instruction with operand fields fs and streams sts of w lanes an element may issue, works on n elements, and
every element passes its checks (R173, R174, R354). -/
abbrev VecReady (s : State) (fs : List Field) (sts : List Strm) (w n : Nat) : Prop :=
  MayIssue s 0 (fs ++ [.vl, .vs]) ∧ n = min s.me.vl.toNat (s.me.grant / w) ∧
  firstOf n sts (s.vecStart n).badElem = none ∧ firstOf n sts (s.vecStart n).badRead = none

/-- Element k of a stream, as the running thread reads it. -/
def State.elem (s : State) (st : Strm) (k : Nat) : Word :=
  ofBytes 64 (s.spadRead (coreOf s.cur) (s.elemAddr st k) st.size)

/-- The thread waits in `adict` with the words that it has read (R260). -/
def Wait.holdsWords : Wait → Bool
  | .dict _ _ _ _ => true
  | _ => false

/-- Nothing comes before the turn of a core: the device has booted and is not frozen, no command waits that could be executed,
the plan names nothing, and nothing is due. -/
abbrev Quiet (s : State) : Prop :=
  s.fw.frozen = false ∧ s.nextCmd = none ∧ s.plan = [] ∧ s.fw.boot ≠ 0 ∧ s.agenda = []

/-- The next step is a cycle of core k, and no boundary of the thread of its slot or of its team asks for anything first (R293,
R295, R368, R420). -/
abbrev SlotComes (s : State) (k : Nat) : Prop :=
  let u := s.atSlot k
  Quiet s ∧ s.turnCore = some k ∧ (s.core k).restoring = false ∧
  (u.me.live && !u.me.halted && u.preempted u.cur && u.me.wait.boundary) = false ∧
  u.readyOut k = false ∧ u.me.debugDue = false ∧ (!u.me.dbgHeld && (u.displaceable u.cur).isSome) = false

/-- The next step is a cycle of core k in which the thread of its slot issues (R367). -/
abbrev IssuesNext (s : State) (k : Nat) : Prop :=
  SlotComes s k ∧ (s.atSlot k).me.wait.holdsWords = false ∧ (s.atSlot k).runnable (s.atSlot k).cur = true

/-- What a core's cycle does besides the work of its slot: the debugger's single step is over, the cycle passes, and the
next core has its turn. -/
def State.afterSlot (k thr : Nat) (t : State) : State :=
  (((t.modCtx thr fun c => { c with dbgStep := false }).passCycle k).passTurn k)

end Sys2Proof.Machine
end

