-- ==== Sys2Proof/Certificates/Slice0/Obligations.lean ====
section
/-! DEFINITION. The statements for the provers: what the numbered rules of the spec say of the instructions, the events and
the machine. Each gives the state that an instruction leaves, under hypotheses on the state before it and its operands. -/

open Sys2Proof Sys2Proof.Machine

/-! ## Encoding -/

/-- Decoding the bytes of an encoded well-formed instruction gives the instruction, whatever follows it (R71, R76, R79). -/
def Obligations.DecodeEncode : Prop :=
  ∀ (i : Instr) (rest : List Byte), i.wf = true → encode i ≠ [] → decode (halfBytes (encode i) ++ rest) = .instr i rest

/-- Only the encoding of a well-formed instruction decodes to it: no word has two meanings, and no reserved bit is dropped
(R76, R91). -/
def Obligations.DecodeSound : Prop :=
  ∀ (bs rest : List Byte) (i : Instr), decode bs = .instr i rest →
    i.wf = true ∧ encode i ≠ [] ∧ bs = halfBytes (encode i) ++ rest

/-- The words that the spec itself gives for an instruction of each family decode to that instruction, in memory order (R83,
R138, R129, R148, R86, R164, R178, R184, R197, R211, R229, R233, R248, R251, R258, R284); the 16-bit words are written out
from R79 and R89; majors 0x00 of both lengths are unassigned (R85, R91). -/
def Obligations.SampleWords : Prop :=
  decode32 0xE64C8000 = some (.exti 2 1 1 0x8000) ∧ decode32 0xCE00C006 = some (.lp 0 3 6) ∧
  decode32 0xCA310A1D = some (.fmac 6 4 5 0 1) ∧ decode32 0xD708C002 = some (.qset 1 3) ∧
  decode32 0xD421D400 = some (.stF32 4 7 1 0) ∧ decode32 0xD80A1607 = some (.arrive 1 8 11) ∧
  decode32 0xDB100201 = some (.vadd 2 0 1 0 1) ∧ decode32 0xDB10021D = some (.vmac 2 0 1 0 1) ∧
  decode32 0xDC094006 = some (.pset 1 5) ∧ decode32 0xDE200042 = some (.tshape 4 1) ∧
  decode32 0xDE218E04 = some (.tld 4 6 7) ∧ decode32 0xDF300040 = some (.cvq 6 0 0 0 1 0 0) ∧ decode32 0xE0498858 = some (.mmaE2m1 9 6 4 5 1) ∧
  decode32 0xE1520000 = some (.twait 10 8) ∧ decode32 0xE2490A81 = some (.copy 9 4 5 2 0 1) ∧
  decode32 0xD9014006 = some (.chopen 5 0) ∧ decode32 0xDA010000 = some (.bar 4) ∧
  decode32 0xE3490A84 = some (.arun 9 4 5 2) ∧ decode32 0xE4600800 = some (.mfs 12 4) ∧
  decode32 0xE4000203 = some (.trap 1) ∧
  decode16 (0b000010#6 ++ 1#5 ++ 2#5) = some (.add_16 1 2) ∧ decode16 (0b011011#6 ++ 0#10) = some .halt_16 ∧
  decode32 0xC0000000 = none ∧ decode16 0 = none ∧
  decode [0x41, 0xDE, 0x00, 0x80, 7] = .illegal 0xDE418000 false

/-! ## The step -/

/-- Where the bytes at pc decode to an instruction, the step of its core's cycle is the instruction, then the end of the
cycle. -/
def Obligations.StepRunsDecoded : Prop :=
  ∀ (s s1 : State) (k : Nat) (hs : List Half) (i : Instr) (rest : List Byte), IssuesNext s k →
    let u := s.atSlot k
    (u.modMe Ctx.awoken).fetch u.cur = .ok (hs, s1) → decode (halfBytes hs) = .instr i rest →
    step s = mapNext (State.afterSlot k u.cur) (exec i (s1.noteIr hs))

/-- What issue cannot run: halfwords that hold no assigned, well-formed instruction trap ILL with their bits in the record; a
fetch that fails traps FETCH, xinfo 1 for a permission and 0 otherwise, xaddr the address of the halfword; one that meets an
error that is not corrected traps MEMERR with that address and logs the unit. Of a failed fetch no instruction is known: bits
and length 0 in its record are the model's choice (log entry 66); the canonical form of that address is log entry 8, the
record of MEMERR log entry 53 (R73, R91, R278, R354, R355). -/
def Obligations.StepTraps : Prop :=
  (∀ (s s1 : State) (k : Nat) (hs : List Half) (w : Word32) (half : Bool), IssuesNext s k →
    let u := s.atSlot k
    (u.modMe Ctx.awoken).fetch u.cur = .ok (hs, s1) → decode (halfBytes hs) = .illegal w half →
    step s = .next (State.afterSlot k u.cur
      ((s1.modMe fun c => { c with ir := w, irHalf := half, irPc := c.pc }).trapAt s1.cur .ill 0 0))) ∧
  (∀ (s : State) (k : Nat) (addr : BitVec 57), IssuesNext s k →
    let u := (s.atSlot k).modMe Ctx.awoken
    let none' := (u.lookedUp (coreOf u.cur) u.me.part u.me.tasid addr).modMe fun c => { c with ir := 0, irHalf := false, irPc := c.pc }
    (∀ perm, u.fetch u.cur = .error (.fault addr perm) →
      step s = .next (State.afterSlot k u.cur (none'.trapAt u.cur .fetch (if perm then 1 else 0) (addr.signExtend 64)))) ∧
    (∀ unit pa, u.fetch u.cur = .error (.bad (unit, pa) addr) →
      step s = .next (State.afterSlot k u.cur ((none'.logError u.me.part (coreOf u.cur) unit pa).trapAt u.cur .memerr 0
        (addr.signExtend 64)))))

/-- The order of what happens next: a command that waits; what the plan names, an event of the outside world or one that is
due, or a core's slot; the phases of a boot; what is due; the slot of the core whose turn it is, which a thread that may not
issue leaves empty, and in which a debugger's step of a thread that stays parked is over (R25, R367, R420). A planned flit
comes only as the next one on its way to its end (R390, R392). This order of turns is the model's own, for the spec leaves it
open (log entry 22), and so is that the vault dies' clocks pass where no core has anything to do (log entry 21). A frozen
device with no command waiting does nothing until something that reaches it is planned: then it takes the first of that, and
all else waits (R418). -/
def Obligations.StepOrder : Prop :=
  (∀ (s : State), s.fw.frozen = false →
    (∀ c u, s.nextCmd = some (c, u) → step s = match c with
      | .refuse port reason => .next (u.refusePage port reason)
      | c => exec c.event u) ∧
    (s.nextCmd = none →
      (∀ (i : Instr) (ts : List Turn), s.plan = .event i :: ts →
        let u := { s with plan := ts }
        (external i = true → (∀ lnk seq good, i ≠ .flitReceive lnk seq good) → step s = exec i u) ∧
        (∀ lnk seq good, i = .flitReceive lnk seq good →
          (∀ d, u.agenda.find? (Due.isFlitTo lnk) = some d → step s = if d = .flit lnk seq then exec i u else .next u) ∧
          (u.agenda.find? (Due.isFlitTo lnk) = none →
            (∀ f, farEnd (linkNo lnk) = some f → step s = if seq.toNat = (u.linkAt f).nextSeq then exec i u else .next u) ∧
            (farEnd (linkNo lnk) = none → step s = exec i u))) ∧
        (external i = false → (∀ v, u.takeDue i s.agenda = some v → step s = exec i v) ∧
          (u.takeDue i s.agenda = none → step s = .next u))) ∧
      (∀ (k : Nat) (ts : List Turn), s.plan = .slot k :: ts →
        step s = if s.active k then { s with plan := ts }.slotStep k else .next { s with plan := ts }) ∧
      (s.plan = [] → s.fw.boot = 0 → step s = .next s.bootPhase) ∧
      (∀ (d : Due) (ds : List Due), s.plan = [] → s.fw.boot ≠ 0 → s.agenda = d :: ds →
        step s = exec (d.event s) { s with agenda := ds })) ∧
    (∀ k, SlotComes s k →
      let c := (s.atSlot k).me
      (c.live = false ∨ c.halted = true ∨ c.dbgHeld = true ∨ (s.core k).cycle < c.resumeAt ∨ (s.atSlot k).teamHeld (s.slotThread k) = true ∨
        (s.atSlot k).awake (s.slotThread k) = false) →
      let ended := c.live = true ∧ c.dbgStep = true ∧ c.dbgHeld = false ∧ c.wait.boundary = true ∧
        (s.atSlot k).awake (s.slotThread k) = false
      (¬ ended → step s = .next (((s.atSlot k).passCycle k).passTurn k)) ∧
      (ended → step s = .next (s.atSlot k |>.afterSlot k (s.slotThread k)))) ∧
    (Quiet s → s.turnCore = none → step s = .next s.vaultTicks)) ∧
  (∀ (s : State), s.fw.frozen = true → s.nextCmd = none →
    ((∀ x ∈ s.plan, x.reachesFrozen = false) → step s = .next s) ∧
    (∀ (ts us : List Turn) (i : Instr), s.plan = ts ++ .event i :: us → reachesFrozen i = true →
      (∀ x ∈ ts, x.reachesFrozen = false) → .event i ∉ ts → step s = exec i { s with plan := ts ++ us }))

/-- In each cycle of a core the thread of slot (cycle mod 16) has the issue slot, and the count of cycles rises by one; where
no access to a system register comes due, the window writes whose cycle has come take effect and no others, a push and a
vector instruction whose cycle has come are due, and nothing else of the threads and no memory changes (R24, R177, R367). -/
def Obligations.CyclePasses : Prop :=
  ∀ (s : State) (k : Nat),
    let now := (s.core k).cycle + 1
    let t := s.passCycle k
    s.slotThread k = 16 * k + (s.core k).cycle % 16 ∧ (t.core k).cycle = now ∧
    ((∀ w ∈ (s.core k).sysWb, now < w.due) →
      (t.core k).wb = (s.core k).wb.filter (fun w => now < w.due) ∧
      (t.core k).tm = ((s.core k).wb.filter fun w => w.due ≤ now).foldl TeamMem.land (s.core k).tm ∧
      (∀ p ∈ (s.core k).pushDue, if p.1 ≤ now then .channelPush p.2 ∈ t.agenda else p ∈ (t.core k).pushDue) ∧
      (∀ p ∈ (s.core k).vecDue, if p.1 ≤ now then .vectorDone p.2 ∈ t.agenda else p ∈ (t.core k).vecDue) ∧
      t.threads = s.threads ∧ t.mem = s.mem)

/-! ## Issue: the order of checks (R80) -/

/-- A word whose fields break a limit of step 3 traps ILL, whatever its operands hold, and changes nothing else. -/
def Obligations.IllFormedTraps : Prop :=
  ∀ (i : Instr) (s : State), i.wf = false → exec i s = .next ((s.stamp false).trapAt s.cur .ill 0 0)

/-- Steps 5 to 7 in order, on every scalar form of three registers: a code out of range traps OPND with the field and the
code; a lent task that names a window or channel register traps CHAN with the port's code; an empty source or a full
destination parks the thread with its operands, and nothing else changes; then the watchdog traps WDOG with its limit; then a
destination cout with no channel traps CHAN, or CLOSED where its queue was discarded (R77, R80, R136, R137, R26, R250). The
state of a park and the place of the traps of a push are the model's reading (log entry 56), so are the place of the watchdog
(log entry 12) and the numbers in a record (log entry 7). -/
def Obligations.IssueOrder : Prop :=
  ∀ (s : State) (d a b : BitVec 5) (rm : BitVec 3) (ty : BitVec 2), rm.toNat < 5 →
    let fs : List Field := [.dst 0 d, .src 1 a, .src 2 b]
    let forms : List (Instr × List Field) :=
      ([.add d a b, .sub d a b, .and d a b, .or d a b, .xor d a b, .andn d a b, .sll d a b, .srl d a b, .sra d a b, .rol d a b,
        .ror d a b, .mul d a b, .mulh d a b, .mulhn d a b, .div d a b, .divn d a b, .rem d a b, .remn d a b, .min d a b,
        .max d a b, .minn d a b, .maxn d a b, .seq d a b, .sne d a b, .slt d a b, .sge d a b, .sltn d a b, .sgen d a b,
        .leaB8 d a b, .leaB16 d a b, .leaB32 d a b, .leaB64 d a b, .hash d a b, .fsgn d a b ty].map fun i => (i, fs)) ++
      ([.fadd d a b rm ty, .fsub d a b rm ty, .fmul d a b rm ty, .fdiv d a b rm ty, .fmin d a b ty, .fmax d a b ty,
        .feq d a b ty, .flt d a b ty, .fle d a b ty].map fun i => (i, fs ++ [.vs])) ++
      [(.fmac d a b rm ty, [.both 0 d, .src 1 a, .src 2 b, .vs])]
    ∀ f ∈ forms,
    let i := f.1
    let fs := f.2
    (∀ info, fs.findSome? Field.bad = some info → exec i s = .next ((s.stamp false).trapAt s.cur .opnd info 0)) ∧
    (fs.findSome? Field.bad = none →
      (∀ c, s.me.lent = true → fs.findSome? Field.window = some c →
        exec i s = .next ((s.stamp false).trapAt s.cur .chan (if c < 20 ∨ c = 24 then 24 else 25) 0)) ∧
      ((s.me.lent = true → fs.findSome? Field.window = none) →
        ((∃ f ∈ fs, f.ready s s.cur = false) →
          exec i s = .next (s.modMe fun x => { x with wait := .cond (.operands fs) })) ∧
        ((∀ f ∈ fs, f.ready s s.cur = true) →
          (s.wdLimit s.cur < s.me.wd + 1 →
            exec i s = .next ((s.stamp false).trapAt s.cur .wdog (BitVec.ofNat 64 (s.wdLimit s.cur)) 0)) ∧
          (s.me.wd + 1 ≤ s.wdLimit s.cur → d = 25 →
            (s.me.outKey = none → exec i s = .next ((s.issued false).trapAt s.cur .chan 25 0)) ∧
            (∀ q, s.me.outKey = some q → (s.chan q).closed = true →
              exec i s = .next ((s.issued false).trapAt s.cur .closed 25 0))))))

/-! ## Operands (R21-R26) -/

/-- Sources: g0 reads 0, g1-g15 their value, a window register its value of 64, cin the oldest value of the queue; cin
without a channel traps CHAN, and at an end or abort mark CLOSED or ABORT; a source is ready where it is full. The o
registers of slot k are the i registers of slot (k + 1) mod 16, and no others coincide (R21-R23, R26). -/
def Obligations.SourceReads : Prop :=
  (∀ (s : State) (c : BitVec 5),
    (c = 0 → rd s c = .ok 0 ∧ s.srcReady s.cur c = true) ∧
    (0 < c.toNat ∧ c.toNat < 16 → rd s c = .ok (vget 0 s.me.g c.toNat) ∧ s.srcReady s.cur c = vget true s.me.gFull c.toNat) ∧
    (16 ≤ c.toNat ∧ c.toNat < 24 →
      let r := winIndex (slotOf s.cur) c
      rd s c = .ok (vget 0 (s.core (coreOf s.cur)).tm.win r) ∧
      s.srcReady s.cur c = vget false (s.core (coreOf s.cur)).tm.winFull r) ∧
    (c = 24 → s.me.cin = none → rd s c = .error (.trap .chan 24 0)) ∧
    (c = 24 → s.me.cin ≠ none →
      (∀ v rest, (s.chan s.me.inKey).q = .val v :: rest → rd s c = .ok v) ∧
      (∀ rest, (s.chan s.me.inKey).q = .mark .endMark :: rest → rd s c = .error (.trap .closed 24 0)) ∧
      (∀ rest, (s.chan s.me.inKey).q = .mark .abortMark :: rest → rd s c = .error (.trap .abort 24 0)) ∧
      ((s.chan s.me.inKey).q = [] → s.srcReady s.cur c = false))) ∧
  ((∀ k, k < 16 → ∀ j, j < 4 → winIndex k (BitVec.ofNat 5 (20 + j)) = winIndex ((k + 1) % 16) (BitVec.ofNat 5 (16 + j))) ∧
  (∀ k, k < 16 → ∀ k', k' < 16 → ∀ j, j < 4 → ∀ j', j' < 4 →
    winIndex k (BitVec.ofNat 5 (20 + j)) = winIndex k' (BitVec.ofNat 5 (20 + j')) → k = k' ∧ j = j'))

/-- Reading an i register puts its emptying under way, 8 cycles from issue; reading cin pops; other sources do nothing
besides; one register named twice is read once. g0 discards a value and stays full; g1-g15 take it and are set full; an o
register takes it, full, 8 cycles from issue; cout puts it under way to its queue (R22, R24, R26, R122). -/
def Obligations.OperandEffects : Prop :=
  (∀ (s : State) (c : BitVec 5),
    (c.toNat < 16 ∨ (20 ≤ c.toNat ∧ c.toNat < 24) → s.consume s.cur [c] = s) ∧
    (16 ≤ c.toNat ∧ c.toNat < 20 → s.consume s.cur [c] = s.modCore (coreOf s.cur) fun k =>
      { k with wb := k.wb ++ [⟨k.cycle + 8, winIndex (slotOf s.cur) c, none, false⟩] }) ∧
    (c = 24 → s.consume s.cur [c] = s.modChan s.me.inKey fun ch => { ch with q := ch.q.drop 1 }) ∧
    s.consume s.cur [c, c] = s.consume s.cur [c]) ∧
  (∀ (s : State) (d : BitVec 5) (v : Word),
    (d = 0 → (s.dest s.cur d v).me = s.me ∧ OnlyThread s (s.dest s.cur d v) s.cur) ∧
    (0 < d.toNat ∧ d.toNat < 16 → OnlyThread s (s.dest s.cur d v) s.cur ∧
      (s.dest s.cur d v).me = { s.me with g := vset s.me.g d.toNat v, gFull := vset s.me.gFull d.toNat true }) ∧
    (20 ≤ d.toNat ∧ d.toNat < 24 → s.dest s.cur d v = s.modCore (coreOf s.cur) fun k =>
      { k with wb := k.wb ++ [⟨k.cycle + 8, winIndex (slotOf s.cur) d, some v, true⟩] }) ∧
    (∀ q, d = 25 → s.me.outKey = some q → s.dest s.cur d v =
      (s.modChan q fun ch => { ch with inFlight := ch.inFlight ++ [.val v] }).modCore (coreOf s.cur) fun k =>
        { k with pushDue := k.pushDue ++ [(k.cycle + 8, q)] }))

/-- pc moves on by the instruction's length; at the end of an active loop's body, outside handlers, the index steps, and the
loop goes on at its top or is deactivated, after which the outer loop is tested; an inner loop that does not end there leaves
the outer one untested (R72, R140, R282). -/
def Obligations.LoopEndTest : Prop :=
  ∀ (c : Ctx),
    let x := c.pc + (if c.irHalf then 2 else 4)
    let ends := fun (l : LoopReg) => l.act = true ∧ x = l.top + 2 * l.span.setWidth 57
    let goes := fun (l : LoopReg) =>
      let v := l.index.toInt + l.step.toInt
      if l.step.toInt = 1 ∨ l.step.toInt = -1 then BitVec.ofInt 32 v ≠ l.bound
      else if 0 < l.step.toInt then v < l.bound.toInt else l.bound.toInt < v
    let at' := fun i => vget LoopReg.zero c.l i
    let stepped := fun (l : LoopReg) (act : Bool) => { l with index := BitVec.ofInt 32 (l.index.toInt + l.step.toInt), act := act }
    (stIh c.status = true ∨ (¬ ends (at' 0) ∧ ¬ ends (at' 1)) → c.advance = { c with pc := x }) ∧
    (stIh c.status = false → ∀ i, i < 2 → ends (at' i) → (at' (1 - i)).act = true → ¬ ends (at' (1 - i)) →
      (at' i).top.toNat < (at' (1 - i)).top.toNat → c.advance = { c with pc := x }) ∧
    (stIh c.status = false → ∀ i, i < 2 → ends (at' i) → ((at' (1 - i)).act = false ∨ (at' (1 - i)).top.toNat < (at' i).top.toNat) →
      (goes (at' i) → c.advance = { c with pc := (at' i).top, l := vset c.l i (stepped (at' i) true) }) ∧
      (¬ goes (at' i) → ¬ ends (at' (1 - i)) → c.advance =
        { c with pc := x, l := vset c.l i (stepped (at' i) false), status := setLd c.status (stLd c.status - 1) }) ∧
      (¬ goes (at' i) → ends (at' (1 - i)) → goes (at' (1 - i)) → c.advance =
        { c with pc := (at' (1 - i)).top
                 l := vset (vset c.l i (stepped (at' i) false)) (1 - i) (stepped (at' (1 - i)) true)
                 status := setLd c.status (stLd c.status - 1) }) ∧
      (¬ goes (at' i) → ends (at' (1 - i)) → ¬ goes (at' (1 - i)) → c.advance =
        { c with pc := x
                 l := vset (vset c.l i (stepped (at' i) false)) (1 - i) (stepped (at' (1 - i)) false)
                 status := setLd (setLd c.status (stLd c.status - 1)) (stLd (setLd c.status (stLd c.status - 1)) - 1) }))

/-! ## Scalar integer instructions (R122-R128) -/

/-- What each two-source integer instruction writes to d, for all operands (R123, R124). What each one-source integer
instruction, shift by an immediate, bit-field and immediate instruction writes to d (R123, R125-R127): the counts by the bits
that they count. `bfi`, `li` and `lis` (R127, R128), and `ext`, `exr` and `exti` (R82, R83): what they write. Bit i of what
`bfi` leaves is bit i − pos of a inside the field, and bit i of d outside. -/
def Obligations.IntegerResults : Prop :=
  (∀ (s : State) (d a b : BitVec 5) (x y : Word), MayIssue s 0 [.dst 0 d, .src 1 a, .src 2 b] →
    rd s a = .ok x → rd s b = .ok y →
    let gives := fun (i : Instr) (v : Word) => exec i s = .next (finish (s.issued false) [a, b] d v)
    let sh := y.toNat % 64
    let b2w := fun (c : Bool) => if c then (1 : Word) else 0
    gives (.add d a b) (x + y) ∧ gives (.sub d a b) (x - y) ∧ gives (.and d a b) (x &&& y) ∧ gives (.or d a b) (x ||| y) ∧
    gives (.xor d a b) (x ^^^ y) ∧ gives (.andn d a b) (x &&& ~~~y) ∧
    gives (.sll d a b) (BitVec.ofNat 64 (x.toNat * 2 ^ sh)) ∧ gives (.srl d a b) (BitVec.ofNat 64 (x.toNat / 2 ^ sh)) ∧
    gives (.sra d a b) (BitVec.ofInt 64 (x.toInt / 2 ^ sh)) ∧
    gives (.rol d a b) ((x <<< sh) ||| (x >>> (64 - sh))) ∧ gives (.ror d a b) ((x >>> sh) ||| (x <<< (64 - sh))) ∧
    gives (.mul d a b) (BitVec.ofInt 64 (x.toInt * y.toInt)) ∧
    gives (.mulh d a b) (BitVec.ofInt 64 (x.toInt * y.toInt / 2 ^ 64)) ∧
    gives (.mulhn d a b) (BitVec.ofNat 64 (x.toNat * y.toNat / 2 ^ 64)) ∧
    gives (.div d a b) (if y = 0 then 0xFFFF_FFFF_FFFF_FFFF else BitVec.ofInt 64 (x.toInt.tdiv y.toInt)) ∧
    gives (.divn d a b) (if y = 0 then 0xFFFF_FFFF_FFFF_FFFF else BitVec.ofNat 64 (x.toNat / y.toNat)) ∧
    gives (.rem d a b) (if y = 0 then x else BitVec.ofInt 64 (x.toInt.tmod y.toInt)) ∧
    gives (.remn d a b) (if y = 0 then x else BitVec.ofNat 64 (x.toNat % y.toNat)) ∧
    gives (.min d a b) (if x.toInt ≤ y.toInt then x else y) ∧ gives (.max d a b) (if x.toInt ≤ y.toInt then y else x) ∧
    gives (.minn d a b) (if x.toNat ≤ y.toNat then x else y) ∧ gives (.maxn d a b) (if x.toNat ≤ y.toNat then y else x) ∧
    gives (.seq d a b) (b2w (x == y)) ∧ gives (.sne d a b) (b2w (x != y)) ∧
    gives (.slt d a b) (b2w (decide (x.toInt < y.toInt))) ∧ gives (.sge d a b) (b2w (decide (y.toInt ≤ x.toInt))) ∧
    gives (.sltn d a b) (b2w (decide (x.toNat < y.toNat))) ∧ gives (.sgen d a b) (b2w (decide (y.toNat ≤ x.toNat))) ∧
    gives (.leaB8 d a b) (x + y) ∧ gives (.leaB16 d a b) (x + 2 * y) ∧ gives (.leaB32 d a b) (x + 4 * y) ∧
    gives (.leaB64 d a b) (x + 8 * y) ∧
    gives (.hash d a b)
      (let z := x ^^^ (y * 0x9C3F_6A17_D2E5_B14B)
       let z := (z ^^^ (z >>> 31)) * 0xE6C3_A84D_1F29_7B5D
       z ^^^ (z >>> 29))) ∧
  (∀ (s : State) (d a : BitVec 5) (x : Word) (imm : BitVec 14) (sh pos len : BitVec 6),
    MayIssue s 0 [.dst 0 d, .src 1 a] → rd s a = .ok x →
    let gives := fun (i : Instr) (v : Word) => exec i s = .next (finish (s.issued false) [a] d v)
    (∃ n, n ≤ 64 ∧ (∀ i, i < n → x.getLsbD (63 - i) = false) ∧ (n < 64 → x.getLsbD (63 - n) = true) ∧
      gives (.clz d a) (BitVec.ofNat 64 n)) ∧
    (∃ n, n ≤ 64 ∧ (∀ i, i < n → x.getLsbD i = false) ∧ (n < 64 → x.getLsbD n = true) ∧
      gives (.ctz d a) (BitVec.ofNat 64 n)) ∧
    gives (.popc d a) (BitVec.ofNat 64 ((List.range 64).countP fun i => x.getLsbD i)) ∧
    gives (.bswap d a) (((List.range 8).map fun k => (x >>> (8 * k) &&& 0xFF) <<< (8 * (7 - k))).foldl (· ||| ·) 0) ∧
    gives (.bank d a) (BitVec.ofNat 64 (x.toNat % 2 ^ 19 / 64 % 3)) ∧
    gives (.addi d a imm) (x + imm.signExtend 64) ∧ gives (.andi d a imm) (x &&& imm.signExtend 64) ∧
    gives (.ori d a imm) (x ||| imm.setWidth 64) ∧ gives (.xori d a imm) (x ^^^ imm.setWidth 64) ∧
    gives (.slli d a sh) (BitVec.ofNat 64 (x.toNat * 2 ^ sh.toNat)) ∧
    gives (.srli d a sh) (BitVec.ofNat 64 (x.toNat / 2 ^ sh.toNat)) ∧
    gives (.srai d a sh) (BitVec.ofInt 64 (x.toInt / 2 ^ sh.toNat)) ∧
    gives (.roli d a sh) ((x <<< sh.toNat) ||| (x >>> (64 - sh.toNat))) ∧
    (pos.toNat + len.toNat + 1 ≤ 64 →
      gives (.bfxN64 d a pos len) (BitVec.ofNat 64 (x.toNat / 2 ^ pos.toNat % 2 ^ (len.toNat + 1))) ∧
      gives (.bfxI64 d a pos len) ((x.extractLsb' pos.toNat (len.toNat + 1)).signExtend 64))) ∧
  (∀ (s : State) (d a : BitVec 5) (x z : Word) (imm : BitVec 19) (pos len : BitVec 6) (e : BitVec 3) (h : BitVec 2)
      (mode : BitVec 1) (k : BitVec 16),
    (MayIssue s 0 [.both 0 d, .src 1 a] → rd s a = .ok x → rd s d = .ok z → pos.toNat + len.toNat + 1 ≤ 64 →
      ∃ v : Word, exec (.bfi d a pos len) s = .next (finish (s.issued false) [a] d v) ∧
        ∀ i, i < 64 → v.getLsbD i =
          if pos.toNat ≤ i ∧ i ≤ pos.toNat + len.toNat then x.getLsbD (i - pos.toNat) else z.getLsbD i) ∧
    (MayIssue s 0 [.dst 0 d] → exec (.li d imm) s = .next (finish (s.issued false) [] d (imm.signExtend 64)) ∧
      exec (.exr d e) s = .next (finish (s.issued false) [] d (vget 0 s.me.e e.toNat))) ∧
    (MayIssue s 0 [.both 0 d] → rd s d = .ok z →
      exec (.lis d imm) s = .next (finish (s.issued false) [] d ((z <<< 19) ||| imm.setWidth 64))) ∧
    (MayIssue s 0 [.src 1 a] → rd s a = .ok x →
      exec (.ext a e) s = .next (finishNo ((s.issued false).modMe fun c => { c with e := vset c.e e.toNat x }) [a])) ∧
    (MayIssue s 0 [] → ∃ v : Word,
      exec (.exti e h mode k) s = .next (finishNo ((s.issued false).modMe fun c => { c with e := vset c.e e.toNat v }) []) ∧
      (mode = 1 → v = k.signExtend 64 <<< (16 * h.toNat)) ∧
      (mode = 0 → ∀ i, i < 64 → v.getLsbD i =
        if 16 * h.toNat ≤ i ∧ i < 16 * h.toNat + 16 then k.getLsbD (i - 16 * h.toNat)
        else (vget 0 s.me.e e.toNat).getLsbD i)))

/-- The 16-bit instructions without memory have the effects of their expansions, on d as source and destination, and are two
bytes long (R79, R89). -/
def Obligations.CompactResults : Prop :=
  ∀ (s : State) (d a imm : BitVec 5) (x z : Word),
    (MayIssue s 0 [.dst 0 d, .src 1 a] → rd s a = .ok x →
      exec (.addMove_16 d a) s = .next (finish (s.issued true) [a] d x)) ∧
    (MayIssue s 0 [.both 0 d, .src 1 a] → rd s d = .ok z → rd s a = .ok x →
      let gives := fun (i : Instr) (v : Word) => exec i s = .next (finish (s.issued true) [a] d v)
      gives (.add_16 d a) (z + x) ∧ gives (.sub_16 d a) (z - x) ∧ gives (.and_16 d a) (z &&& x) ∧
      gives (.or_16 d a) (z ||| x) ∧ gives (.xor_16 d a) (z ^^^ x) ∧
      gives (.sll_16 d a) (BitVec.ofNat 64 (z.toNat * 2 ^ (x.toNat % 64)))) ∧
    (MayIssue s 0 [.dst 0 d] → exec (.li_16 d imm) s = .next (finish (s.issued true) [] d (imm.signExtend 64))) ∧
    (MayIssue s 0 [.both 0 d] → rd s d = .ok z →
      let gives := fun (i : Instr) (v : Word) => exec i s = .next (finish (s.issued true) [] d v)
      gives (.addi_16 d imm) (z + imm.signExtend 64) ∧ gives (.slli_16 d imm) (BitVec.ofNat 64 (z.toNat * 2 ^ imm.toNat)) ∧
      gives (.srli_16 d imm) (BitVec.ofNat 64 (z.toNat / 2 ^ imm.toNat)) ∧
      gives (.srai_16 d imm) (BitVec.ofInt 64 (z.toInt / 2 ^ imm.toNat)))

/-- The frame of the scalar forms that complete: with a general register as destination and sources that are general or o
registers, nothing of the device changes but the thread; of the thread, only d, full, and pc with what the loops' end test
steps; and every byte of memory and of every scratchpad reads as before (R72, R122). -/
def Obligations.ScalarFrame : Prop :=
  ∀ (s t : State) (half : Bool) (srcs : List (BitVec 5)) (d : BitVec 5) (v : Word), d.toNat < 16 →
    (∀ c ∈ srcs, c.toNat < 16 ∨ (20 ≤ c.toNat ∧ c.toNat < 24)) → t = finish (s.issued half) srcs d v →
    OnlyThread s t s.cur ∧
    SameRegs ((s.issued half).me.setG d.toNat v) t.me ∧
    (∀ r, r < 16 → r ≠ d.toNat → vget 0 t.me.g r = vget 0 s.me.g r) ∧
    (d ≠ 0 → vget 0 t.me.g d.toNat = v ∧ vget true t.me.gFull d.toNat = true) ∧
    t.me.vs = s.me.vs ∧ t.me.u = s.me.u ∧ t.me.sv = s.me.sv ∧ t.me.posted = s.me.posted ∧
    (∀ l n, t.read l n = s.read l n) ∧
    (s.me.activeLoops = 0 → t.me.pc = s.me.pc + (if half then 2 else 4) ∧ t.me.l = s.me.l ∧ t.me.status = s.me.status)

/-! ## Scalar floating point (R94-R98, R129-R131) -/

/-- What each floating-point instruction writes to d and raises in vs: the value of R130 in the mode that rm selects, with
the operand order a, b, d for NaNs (R94). -/
def Obligations.FloatResults : Prop :=
  ∀ (s : State) (d a b : BitVec 5) (x y z : Word) (rm : BitVec 3) (ty src : BitVec 2), rm.toNat < 5 →
    rd s a = .ok x →
    let F := fmtOf ty
    let m := modeOf rm s.me.vs
    let m0 := modeOf 0 s.me.vs
    let V := fun (w : Word) => decodeF F (w.toNat % 2 ^ F.width)
    let pat := fun (w : Word) => w.toNat % 2 ^ F.width
    let done := fun (i : Instr) (half : Bool) (srcs : List (BitVec 5)) (r : Nat × BitVec 4) =>
      exec i s = .next (finishFp (s.issued half) srcs d (BitVec.ofNat 64 r.1) r.2)
    (MayIssue s 0 [.dst 0 d, .src 1 a, .src 2 b, .vs] → rd s b = .ok y →
      done (.fadd d a b rm ty) false [a, b] (addV F m false (V x) (V y)) ∧
      done (.fsub d a b rm ty) false [a, b] (addV F m false (V x) (V y).flip) ∧
      done (.fmul d a b rm ty) false [a, b] (mulV F m false (V x) (V y)) ∧
      done (.fdiv d a b rm ty) false [a, b] (divV F m (V x) (V y)) ∧
      done (.fmin d a b ty) false [a, b] (minmaxV F false (pat x) (pat y)) ∧
      done (.fmax d a b ty) false [a, b] (minmaxV F true (pat x) (pat y)) ∧
      done (.feq d a b ty) false [a, b] ((eqV (V x) (V y)).1.toNat, (eqV (V x) (V y)).2) ∧
      done (.flt d a b ty) false [a, b] ((ltV (V x) (V y)).1.toNat, (ltV (V x) (V y)).2) ∧
      done (.fle d a b ty) false [a, b] ((leV (V x) (V y)).1.toNat, (leV (V x) (V y)).2)) ∧
    (MayIssue s 0 [.dst 0 d, .src 1 a, .vs] →
      done (.fsqrt d a rm ty) false [a] (sqrtV F m (V x)) ∧
      (src ≠ ty → done (.fcvtFloatFloat d a src rm ty) false [a]
        (cvtFF F m (decodeF (fmtOf src) (x.toNat % 2 ^ (fmtOf src).width)))) ∧
      done (.fcvtIntegerFloat d a src rm ty) false [a] (cvtIF F m (intValue src x)) ∧
      (let r := cvtFI (intBounds src).1 (intBounds src).2 m (V x)
       exec (.fcvtFloatInteger d a src rm ty) s = .next (finishFp (s.issued false) [a] d (intReg src r.1) r.2))) ∧
    (MayIssue s 0 [.both 0 d, .src 1 a, .src 2 b, .vs] → rd s b = .ok y → rd s d = .ok z →
      done (.fmac d a b rm ty) false [a, b] (fmaV F m false (V x) (V y) (V z))) ∧
    (MayIssue s 0 [.dst 0 d, .src 1 a] → exec (.fclass d a ty) s = .next (finish (s.issued false) [a] d (classV F (V x)))) ∧
    (MayIssue s 0 [.dst 0 d, .src 1 a, .src 2 b] → rd s b = .ok y → exec (.fsgn d a b ty) s = .next (finish (s.issued false) [a, b] d
      (BitVec.ofNat 64 (pat x % 2 ^ (F.width - 1) + pat y / 2 ^ (F.width - 1) * 2 ^ (F.width - 1))))) ∧
    (MayIssue s 0 [.both 0 d, .src 1 a, .vs] → rd s d = .ok z →
      (ty = 0 → done (.faddF64_16 d a) true [a] (addV F m0 false (V z) (V x)) ∧
        done (.fmulF64_16 d a) true [a] (mulV F m0 false (V z) (V x))) ∧
      (ty = 1 → done (.faddF32_16 d a) true [a] (addV F m0 false (V z) (V x)) ∧
        done (.fmulF32_16 d a) true [a] (mulV F m0 false (V z) (V x))))

/-- A floating-point instruction that completes ORs its flags into vs and writes d; an enabled flag then traps FPE with those
flags, at the address of the instruction in canonical form, to resume at the pc that it left (R32, R97, R176, R278, R279).
The canonical form of the address is the model's reading (log entry 8). -/
def Obligations.FlagsAndFpe : Prop :=
  ∀ (s : State) (srcs : List (BitVec 5)) (d : BitVec 5) (v : Word) (f : BitVec 4),
    let done := finish (s.modMe fun c => { c with vs := c.vs ||| f.setWidth 32 }) srcs d v
    let on := f &&& s.me.vs.extractLsb' 5 4
    (on = 0 → finishFp s srcs d v f = done) ∧
    (on ≠ 0 → finishFp s srcs d v f =
      done.trapEntry s.cur 11 (on.setWidth 64) ((done.ctx s.cur).irPc.signExtend 64) (done.ctx s.cur).pc false)

/-- The special cases of R94 and R131, of every format: a signalling NaN raises NV and the result is the first NaN, quiet; a
finite nonzero by zero is a signed infinity and raises nothing; 0/0, ∞/∞, ∞ − ∞, 0 × ∞ and the root of a negative number give
the default NaN with NV; the root of −0 is −0; comparison with a NaN is false. A sum does not depend on the order of its
operands unless both are NaNs (R94, R95). A number that the format holds rounds to itself in every mode and raises nothing
(R95, R97). -/
def Obligations.FloatSpecials : Prop :=
  (∀ (ty : BitVec 2) (m : Mode) (sat n1 n2 q : Bool) (fr mm : Nat) (e1 e2 : Int) (b : FVal),
    let F := fmtOf ty
    let mb := F.p - 1
    let nan := FVal.nan n1 q fr mb
    (fr < 2 ^ mb → q = fr.testBit (mb - 1) → b.isNan = false →
      (addV F m sat nan b).1 = (if n1 then F.signBit else 0) + ((2 ^ (F.width - F.p) - 1) * 2 ^ mb + (fr ||| 2 ^ (mb - 1))) ∧
      (addV F m sat nan b).2 = (if q then 0 else fNV) ∧ addV F m sat b nan = addV F m sat nan b ∧
      mulV F m sat nan b = addV F m sat nan b ∧ divV F m nan b = addV F m sat nan b ∧
      ltV nan b = (false, fNV) ∧ (eqV nan b).1 = false) ∧
    (mm ≠ 0 → divV F m (.fin n1 mm e1) (.fin n2 0 e2) = infOf F (n1 != n2)) ∧
    divV F m (.fin n1 0 e1) (.fin n2 0 e2) = (F.nanMag, fNV) ∧ divV F m (.inf n1) (.inf n2) = (F.nanMag, fNV) ∧
    addV F m sat (.inf n1) (.inf !n1) = (F.nanMag, fNV) ∧ mulV F m sat (.fin n1 0 e1) (.inf n2) = (F.nanMag, fNV) ∧
    sqrtV F m (.fin true 0 e1) = (F.signBit, 0) ∧ (mm ≠ 0 → sqrtV F m (.fin true mm e1) = (F.nanMag, fNV)) ∧
    sqrtV F m (.inf true) = (F.nanMag, fNV)) ∧
  (∀ (F : Fmt) (m : Mode) (sat : Bool) (a b : FVal), (a.isNan && b.isNan) = false → addV F m sat a b = addV F m sat b a) ∧
  (∀ (ty : BitVec 2) (m : Mode) (sat neg : Bool) (x mm : Nat) (e : Int), x < 2 ^ (fmtOf ty).width →
    decodeF (fmtOf ty) x = .fin neg mm e → roundFmt (fmtOf ty) m sat neg mm e false = (x, 0))

/-! ## Branches, jumps and loops (R74, R132-R141) -/

/-- A conditional branch whose condition holds goes to pc + 2 × disp and runs no end test; otherwise it completes (R87, R132,
R140). Jumps and calls: a displacement counts halfwords from the instruction's own address; a call leaves the address after
itself in g15; a target in a register must be even and canonical, ALIGN before ADDR, with the target recorded, and a call
that traps writes no link (R74, R133, R134, R79). The link's canonical form is the model's reading (log entry 8). `nop` does
nothing, `brk` traps BRK, `halt` waits for its replies and then ends, `yield` restarts the watchdog count and completes
(R132, R135-R137, R287). In a free launch it grows the grant of a short thread by the open lanes, or lets a thread that is
not short fall to its share where another is short, after which claims are served (R171). Where an entry is fired, no context
is free and a segment is to be had, the core saves the yielder whole, frees the entry and starts its task in the slot, with
the yielder's identity; a task that is itself lent lends nothing (R136, R20, R39). The model's readings in it: log entries 11
and 64. -/
def Obligations.Transfers : Prop :=
  (∀ (s : State) (a b : BitVec 5) (disp : BitVec 11) (x y : Word), MayIssue s 0 [.src 1 a, .src 2 b] →
    rd s a = .ok x → rd s b = .ok y →
    let gives := fun (i : Instr) (taken : Bool) => exec i s = .next (if taken
      then ((s.issued false).consume s.cur [a, b]).modCtx s.cur fun c => { c with pc := s.me.pc + 2 * disp.signExtend 57 }
      else finishNo (s.issued false) [a, b])
    gives (.beq a b disp) (x == y) ∧ gives (.bne a b disp) (x != y) ∧
    gives (.blt a b disp) (decide (x.toInt < y.toInt)) ∧ gives (.bge a b disp) (decide (y.toInt ≤ x.toInt)) ∧
    gives (.bltn a b disp) (decide (x.toNat < y.toNat)) ∧ gives (.bgen a b disp) (decide (y.toNat ≤ x.toNat)) ∧
    gives (.bany a b disp) ((x &&& y) != 0) ∧ gives (.bnone a b disp) ((x &&& y) == 0)) ∧
  (∀ (s : State),
    let link := fun (half : Bool) (c : Ctx) => c.setG 15 ((s.me.pc + (if half then 2 else 4) : BitVec 57).signExtend 64)
    let goes := fun (u : State) (pc : BitVec 57) => u.modCtx s.cur fun c => { c with pc := pc }
    (MayIssue s 0 [] →
      (∀ disp, exec (.jmp disp) s = .next (goes (s.issued false) (s.me.pc + 2 * disp.signExtend 57))) ∧
      (∀ disp, exec (.call disp) s = .next (goes ((s.issued false).modMe (link false)) (s.me.pc + 2 * disp.signExtend 57))) ∧
      (∀ disp, exec (.jmp_16 disp) s = .next (goes (s.issued true) (s.me.pc + 2 * disp.signExtend 57))) ∧
      (∀ disp, exec (.call_16 disp) s = .next (goes ((s.issued true).modMe (link true)) (s.me.pc + 2 * disp.signExtend 57)))) ∧
    (∀ (a : BitVec 5) (t : Word), MayIssue s 0 [.src 1 a] → rd s a = .ok t →
      let jr : List (Instr × Bool × Bool) := [(.jr a, false, false), (.callr a, false, true)] ++
        (if a = 15 then [(.ret, false, false), (.ret_16, true, false)] else [])
      (t.getLsbD 0 = false → canonical t = true → ∀ i ∈ jr, exec i.1 s = .next
        (let u := (s.issued i.2.1).consume s.cur [a]
         goes (if i.2.2 then u.modMe (link i.2.1) else u) (t.extractLsb' 0 57))) ∧
      (t.getLsbD 0 = true → ∀ i ∈ jr, exec i.1 s = .next ((s.issued i.2.1).trapAt s.cur .align 3 t)) ∧
      (t.getLsbD 0 = false → canonical t = false → ∀ i ∈ jr, exec i.1 s = .next ((s.issued i.2.1).trapAt s.cur .addr 3 t)))) ∧
  ((∀ (u : State) (thr : Nat),
    let c := u.ctx thr
    let k := coreOf thr
    let holders := u.laneHolders (courseOf thr)
    (stDet c.status = true → u.yieldLanes thr = u) ∧
    (stDet c.status = false →
      (c.grant < c.want →
        u.yieldLanes thr = u.setCtx thr { c with grant := min c.want (c.grant + u.openLanes (courseOf thr)) }) ∧
      (c.want ≤ c.grant → (∃ h ∈ holders, h.1 < h.2) → u.yieldLanes thr = (u.setCtx thr
        { c with grant := min c.grant (16 * (16 / (holders.filter fun h => 0 < h.2).length)) }).post (.claimGrant (courseOf thr))) ∧
      (c.want ≤ c.grant → (∀ h ∈ holders, h.2 ≤ h.1) → u.yieldLanes thr = u)) ∧
    let lends := c.lent = false ∧ u.freeContext k = none ∧ ((u.part c.part).poolCount = 0 ∨ (u.part c.part).freeSegment ≠ none)
    (u.firedEntry k = none ∨ ¬ lends → u.lend thr = u) ∧
    (∀ i e, u.firedEntry k = some (i, e) → lends →
      let v := u.performAll thr
      u.lend thr = (((v.modTm k fun m => { m with
          loans := Tbl.set Ctx.blank m.loans (slotOf thr) { v.ctx thr with dbgStep := false }
          wt := Tbl.set WtEntry.zero m.wt i WtEntry.zero }).startThread thr c.ident true e.entry e.arg e.tasid 2).giveUp k))) ∧
  ∀ (s : State), MayIssue s 0 [] → ∀ half,
    let pick := fun (long short : Instr) => if half then short else long
    let u := s.issued half
    exec (pick .nop .nop_16) s = .next (finishNo u []) ∧
    exec (pick .brk .brk_16) s = .next (u.trapAt s.cur .brk 0 0) ∧
    exec (pick .halt .halt_16) s = .next ((u.modMe fun c => { c with wait := .halting }).post (.threadEnd s.cur)) ∧
    exec (pick .yield .yield_16) s =
      .next ((finishNo ((u.modMe fun c => { c with wd := 0 }).yieldLanes s.cur) []).lend s.cur))

/-- `lp` and `lpx`: the body runs from pc + 4 for span halfwords; entering it sets the loop register and counts it in
status.ld; a loop that makes no iteration goes to its end; a step of 0 and set bits above the step trap (R138, R139). A loop
instruction in a handler, on an active loop register, or at depth 2, or whose body does not lie within the other loop's,
traps LOOP for its nesting and reads no count. `lpidx` reads the index; `lpexit` deactivates its loop, and an inner one with
it, and counts them out of status.ld; on an inactive loop, and in a handler, it has no effect (R139, R141, R282). -/
def Obligations.Loops : Prop :=
  (∀ (s : State) (l a : BitVec 5) (span : BitVec 11) (x : Word), 0 < span.toNat → span.toNat < 1024 →
    let top := s.me.pc + 4
    let o := s.me.loopReg (1 - l)
    stIh s.me.status = false → (s.me.loopReg l).act = false →
    (stLd s.me.status = 0 ∨ (stLd s.me.status = 1 ∧ o.top.toNat ≤ s.me.pc.toNat + 4 ∧
      s.me.pc.toNat + 4 + 2 * span.toNat ≤ o.top.toNat + 2 * o.span.toNat)) →
    let enters := fun (u : State) (i b st : Word32) => u.modMe fun c =>
      { c with l := vset c.l l.toNat ⟨i, b, st, top, span.setWidth 10, true⟩, lFull := vset c.lFull l.toNat true
               status := setLd c.status (stLd s.me.status + 1), pc := top }
    let skips := fun (u : State) => u.modMe fun c => { c with pc := top + 2 * span.setWidth 57 }
    (MayIssue s 0 [.file 1 l 1, .src 2 a] → rd s a = .ok x →
      let u := (s.issued false).consume s.cur [a]
      exec (.lp l a span) s = .next (if x.setWidth 32 = (0 : Word32) then skips u else enters u 0 (x.setWidth 32) 1)) ∧
    (MayIssue s 0 [.file 1 l 1, .ext a.toNat 2] →
      let start : Word32 := (vget 0 s.me.e a.toNat).setWidth 32
      let bound : Word32 := (vget 0 s.me.e a.toNat).extractLsb' 32 32
      let step : Word32 := (vget 0 s.me.e (a.toNat + 1)).setWidth 32
      let above : Word32 := (vget 0 s.me.e (a.toNat + 1)).extractLsb' 32 32
      (above = 0 → step ≠ 0 → exec (.lpx l a span) s = .next
        (if (if 0 < step.toInt then start.toInt < bound.toInt else bound.toInt < start.toInt)
         then enters (s.issued false) start bound step else skips (s.issued false))) ∧
      (above = 0 → step = 0 → exec (.lpx l a span) s = .next ((s.issued false).trapAt s.cur .loop 2 0)) ∧
      (above ≠ 0 →
        exec (.lpx l a span) s = .next ((s.issued false).trapAt s.cur .opnd (BitVec.ofNat 64 (3 + 256 * (a.toNat + 1))) 0)))) ∧
  ((∀ (s : State) (l a : BitVec 5) (span : BitVec 11) (x : Word), 0 < span.toNat → span.toNat < 1024 →
    let o := s.me.loopReg (1 - l)
    let top := s.me.pc.toNat + 4
    (stIh s.me.status = true ∨ (s.me.loopReg l).act = true ∨ stLd s.me.status = 2 ∨
      (stLd s.me.status = 1 ∧ ¬ (o.top.toNat ≤ top ∧ top + 2 * span.toNat ≤ o.top.toNat + 2 * o.span.toNat))) →
    (MayIssue s 0 [.file 1 l 1, .src 2 a] → rd s a = .ok x →
      exec (.lp l a span) s = .next ((s.issued false).trapAt s.cur .loop 1 0)) ∧
    (MayIssue s 0 [.file 1 l 1, .ext a.toNat 2] → (vget 0 s.me.e (a.toNat + 1)).toNat / 2 ^ 32 = 0 →
      exec (.lpx l a span) s = .next ((s.issued false).trapAt s.cur .loop 1 0))) ∧
  (∀ (s : State) (d l : BitVec 5),
    (MayIssue s 0 [.dst 0 d, .file 1 l 1, .loop l] →
      exec (.lpidx d l) s = .next (finish (s.issued false) [] d ((s.me.loopReg l).index.setWidth 64))) ∧
    (MayIssue s 0 [.file 1 l 1] →
      let u := s.issued false
      let off := fun (v : Vector LoopReg 2) (i : Nat) => vset v i { vget LoopReg.zero v i with act := false }
      (stIh s.me.status = true ∨ (s.me.loopReg l).act = false → exec (.lpexit l) s = .next (finishNo u [])) ∧
      (stIh s.me.status = false → (s.me.loopReg l).act = true → (s.me.loopReg (1 - l)).act = false →
        exec (.lpexit l) s = .next (finishNo (u.modMe fun c => { c with l := off c.l l.toNat, status := setLd c.status (stLd c.status - 1) }) [])) ∧
      (stIh s.me.status = false → (s.me.loopReg l).act = true → (s.me.loopReg (1 - l)).act = true →
        ((s.me.loopReg l).top.toNat < (s.me.loopReg (1 - l)).top.toNat →
          exec (.lpexit l) s = .next (finishNo
            (u.modMe fun c => { c with l := off (off c.l l.toNat) (1 - l.toNat), status := setLd c.status (stLd c.status - 2) }) [])) ∧
        ((s.me.loopReg (1 - l)).top.toNat < (s.me.loopReg l).top.toNat →
          exec (.lpexit l) s = .next (finishNo (u.modMe fun c => { c with l := off c.l l.toNat, status := setLd c.status (stLd c.status - 1) }) []))))))

/-! ## Memory (R142-R167) -/

/-- The checks of an access in order, the first that fails deciding: a reserved or forbidden policy traps OPND; an address
outside its space ADDR; a misaligned one ALIGN; one past the scratchpad SPAD; another partition's core PERM; in global space
a failed translation its own class with its reason in bits 43:40, or MEMERR for an uncorrectable error of its tables. An
access that passes lands where R142 says, and an access to a scratchpad changes nothing (R143). An instruction that a
translation stops takes that trap, and what the lookup and the walk met on their way stays corrected (R354, R355). The OPND
record is the model's reading (log entry 7). A translation: TLB entries with bad parity are dropped; where no TLB holds a
translation, the walk's reason traps PAGE; then the granules must belong to the partition and the page must allow the access,
or PERM with reason 0; then the address lies in the frame at the page's offset, and nothing but the TLBs and, where tables
were read, the caches, the links and what was corrected and counted changes (R340, R346-R348, R354, R355). -/
def Obligations.AccessChecks : Prop :=
  (∀ (s : State) (thr : Nat) (q : BitVec 2) (ea : Word) (size : Nat) (acc : Acc) (allow : Nat → Order → Bool),
    let w := vget 0 (s.ctx thr).q q.toNat
    let order := w.toNat % 8
    let scope := w.toNat / 8 % 8
    let space := w.toNat / 64 % 4
    let lvl := w.toNat / 256 % 4
    let ok := order < 6 ∧ scope < 6 ∧ space < 3 ∧ lvl < 3 ∧ allow space (orderOf (BitVec.ofNat 3 order)) = true
    let code : Word := match acc with
      | .load => 0
      | .store => 1
      | .atomic => 2
      | .fetch => 0
    let core := ea.toNat / 2 ^ 19 % 2048
    let inSpace := (space = 0 ∧ canonical ea = true) ∨ (space = 1 ∧ ea.toNat < 2 ^ 19) ∨
      (space = 2 ∧ ea.toNat < 2 ^ 30 ∧ core < 1280)
    let here := if space = 2 then core else coreOf thr
    (¬ ok → s.access thr q ea size acc allow = .error (.trap .opnd (BitVec.ofNat 64 (4 + 256 * q.toNat)) 0)) ∧
    (ok → ¬ inSpace → s.access thr q ea size acc allow = .error (.trap .addr code ea)) ∧
    (ok → inSpace → ea.toNat % size ≠ 0 → s.access thr q ea size acc allow = .error (.trap .align code ea)) ∧
    (ok → inSpace → ea.toNat % size = 0 → space ≠ 0 →
      (0x60000 < ea.toNat % 2 ^ 19 + size → s.access thr q ea size acc allow = .error (.trap .spad code ea)) ∧
      (ea.toNat % 2 ^ 19 + size ≤ 0x60000 →
        (space = 2 → (s.part (s.ctx thr).part).hasCore core = false →
          s.access thr q ea size acc allow = .error (.trap .perm code ea)) ∧
        ((space = 2 → (s.part (s.ctx thr).part).hasCore core = true) →
          s.access thr q ea size acc allow = .ok ⟨.spad here (ea.toNat % 2 ^ 19), Via.spad here, s⟩))) ∧
    (ok → inSpace → ea.toNat % size = 0 → space = 0 →
      let answer := s.translate (coreOf thr) (s.ctx thr).part (s.ctx thr).tasid (stPl (s.ctx thr).status) (ea.setWidth 57) acc
      (∀ cls r, answer = .error ⟨cls, r, none⟩ →
        s.access thr q ea size acc allow = .error (.lost cls (code ||| (BitVec.ofNat 64 r <<< 40)) ea)) ∧
      (∀ cls r e, answer = .error ⟨cls, r, some e⟩ → s.access thr q ea size acc allow = .error (.bad e.1 e.2 code ea)) ∧
      (∀ pa leaf u, answer = .ok (pa, leaf, u) →
        s.access thr q ea size acc allow = .ok ⟨.phys pa,
          viaOf s (some (coreOf thr)) (s.ctx thr).part (s.ctx thr).tasid leaf w (ea.setWidth 57) pa, u⟩)) ∧
    (∀ (u : State) (half ok : Bool) (level : Nat) (fs : List Field) (body : State → Except Stop State), MayIssue u level fs →
      let i := u.issued half
      let after := fun (va : Word) => i.lookedUp (coreOf u.cur) u.me.part u.me.tasid (va.setWidth 57)
      (∀ cls info va, body i = .error (.lost cls info va) →
        issue half true level fs body u = .next ((after va).trapAt u.cur cls info va)) ∧
      (∀ unit pa info va, unit < 2 → body i = .error (.bad unit pa info va) →
        issue half true level fs body u = .next (((after va).logError u.me.part (coreOf u.cur) unit pa).trapAt u.cur .memerr info va)))) ∧
  (∀ (s : State) (core part : Nat) (asid : BitVec 12) (pl : BitVec 2) (va : BitVec 57) (acc : Acc),
    let p := s.part part
    let c := s.tlbCheck core part asid.toNat va.toNat
    let answer := s.translate core part asid pl va acc
    let judge := fun (first : Nat) (leaf : Word) =>
      let n := match (leaf.toNat / 4 % 4) with
        | 0 => 1
        | 1 => 32
        | 2 => 1024
        | _ => 32768
      let frame := leaf.toNat / 2 ^ 16 % 2 ^ 32
      let may := (pl ≠ 0 ∨ leaf.getLsbD 7 = true) ∧ (match acc with
        | .load => leaf.getLsbD 4 = true
        | .store => leaf.getLsbD 5 = true
        | .atomic => leaf.getLsbD 4 = true ∧ leaf.getLsbD 5 = true
        | .fetch => leaf.getLsbD 6 = true)
      (¬ (p.ownsRange frame n = true ∧ may) → answer = .error ⟨.perm, 0, none⟩) ∧
      (p.ownsRange frame n = true ∧ may → ∃ u, answer = .ok (65536 * frame + (va.toNat - 65536 * first), leaf, u) ∧
        { u with cores := s.cores, courses := s.courses, dies := s.dies, caches := s.caches, badSectors := s.badSectors
                 badWords := s.badWords, corrSectors := s.corrSectors, corrWords := s.corrWords, badL1 := s.badL1
                 badTlb := s.badTlb, parts := s.parts, links := s.links, agenda := s.agenda } = s ∧
        (∀ k, { u.core k with tlb := (s.core k).tlb } = s.core k ∧ { u.course k with tlb := (s.course k).tlb } = s.course k ∧
          { u.die k with tlb := (s.die k).tlb } = s.die k ∧ { u.part k with cecount := (s.part k).cecount } = s.part k))
    (s.badTlb = [] → c = s) ∧
    (∀ e, c.tlbHit core asid.toNat va.toNat = some e → judge e.2.1 e.2.2) ∧
    (c.tlbHit core asid.toNat va.toNat = none →
      (∀ w, c.walk p asid va.toNat = .error w → answer = .error w) ∧
      (∀ leaf, c.walk p asid va.toNat = .ok leaf →
        judge (va.toNat / 65536 / pageGranules (lfSize leaf) * pageGranules (lfSize leaf)) leaf)))

/-- The caches change no value (R144). An access takes its class by the thresholds and the hash of its address, or its
page's, and its allocation and write policy from its q register, or its page's (R28, R144, R145). A line filled or touched
leads its slice; a set keeps at most 16 lines and 12 of class keep; the victim is the least recently used stream line, or
normal, or keep (R339, R356). A block with a parity error is discarded and counted (R338). A write takes its block from every
other L1 (R338); dropped lines are in no slice (R341); a host access invalidates or recalls sectors (R401); an error that is
written back lies in DRAM (R355). What DRAM holds below a line stays under a write-back store, and a write-through store
reaches it (R342). An access meets the home that its line has as it is performed (R341). An L1 instruction cache holds at
most 512 blocks (R5). The form of the caches is the model's (log entry 4). The model's readings in it: log entry 53. -/
def Obligations.CacheLines : Prop :=
  ∀ (s : State) (c : Caches) (v : Via) (l : Loc) (pa home n : Nat) (x : L2Line) (p : L2Line → Bool) (out : List Nat)
      (now : List Byte),
    (∀ u ∈ [s.cacheRead v l n, s.cacheWrite v l n, s.cacheAtomic v l n, s.dropLines p, s.hostAccess pa n true, s.hostAccess pa n false],
      { u with caches := s.caches, badSectors := s.badSectors, badWords := s.badWords, corrSectors := s.corrSectors
               corrWords := s.corrWords, badL1 := s.badL1, links := s.links, agenda := s.agenda } = s) ∧
    (∀ core part asid leaf q va, let z := viaOf s core part asid leaf q va pa
      let m := lineNo va.toNat
      let h := (m ^^^ m / 2 ^ 10 ^^^ m / 2 ^ 20 ^^^ m / 2 ^ 30 ^^^ m / 2 ^ 40) % 2 ^ 10
      let t2 := if q.toNat / 2 ^ 22 = 0 then 1024 else q.toNat / 2 ^ 22
      let lvl := q.toNat / 2 ^ 8 % 4
      let wovr := q.toNat / 2 ^ 10 % 4
      z.cls = (match leaf.toNat / 2 ^ 13 % 4 with
        | 1 => .keep
        | 2 => .normal
        | 3 => .stream
        | _ => if h < q.toNat / 2 ^ 12 % 2 ^ 10 then .keep else if h < t2 then .normal else .stream) ∧
      z.lvl = (if lvl = 0 then leaf.toNat / 2 ^ 8 % 4 else lvl) ∧
      z.wp = (if wovr = 0 then leaf.toNat / 2 ^ 10 % 4 else wovr - 1)) ∧
    (let ways := fun (k : Nat) (ws : List L2Line) => ws.filter fun y => Config.l2Set y.line == k
     let fits := fun (ws : List L2Line) => ∀ k, (ways k ws).length ≤ 16 ∧ ((ways k ws).filter fun y => y.cls == .keep).length ≤ 12
     (fits (c.slice home) → fits ((c.put home x).1.slice home)) ∧ ((c.put home x).1.slice home).head? = some x ∧
     (∀ k, k ≠ home → (c.put home x).1.slice k = c.slice k)) ∧
    (∀ (cls : EvClass) (ws : List L2Line), let keeps := (ws.filter fun y => y.cls == .keep).length
      (¬ (cls = .keep ∧ 12 ≤ keeps) → (ws.length < 16 → victims cls ws = []) ∧
        (16 ≤ ws.length → ∃ a y b, ws = a ++ y :: b ∧ victims cls ws = [y.line] ∧ (∀ z ∈ b, z.cls ≠ y.cls) ∧
          (y.cls = .normal → ∀ z ∈ ws, z.cls ≠ .stream) ∧ (y.cls = .keep → ∀ z ∈ ws, z.cls = .keep))) ∧
      (cls = .keep → 12 ≤ keeps → ∃ a y b, ws = a ++ y :: b ∧ y.line ∈ victims cls ws ∧ y.cls = .keep ∧ (∀ z ∈ b, z.cls ≠ .keep) ∧
        ((∀ z ∈ ws, z.cls ≠ .stream) → victims cls ws = [y.line])) ∧
      (cls = .keep → 12 ≤ keeps → (∃ z ∈ ws, z.cls = .stream) →
        ∃ a y b, ws = a ++ y :: b ∧ y.line ∈ victims cls ws ∧ y.cls = .stream ∧ ∀ z ∈ b, z.cls ≠ .stream)) ∧
    (let found := c.find v.home (lineNo pa)
     (found = none → v.lvl = 2 → c.read v pa = (c, [])) ∧
     (found = none → (v.lvl = 2 ∨ v.wp = 2) → (c.write v pa now).1.l2 = c.l2) ∧
     (found.isSome = true ∨ v.lvl ≠ 2 → ∃ y, ((c.read v pa).1.slice v.home).head? = some y ∧ y.line = lineNo pa ∧ y.cls = v.cls ∧
       (∀ k, v.core = some k → v.lvl = 0 → blockNo pa ∈ Tbl.get [] (c.read v pa).1.l1 k)) ∧
     (found.isSome = true ∨ (v.lvl ≠ 2 ∧ v.wp ≠ 2) → ∃ y, ((c.write v pa now).1.slice v.home).head? = some y ∧ y.line = lineNo pa ∧
       y.cls = v.cls ∧ (v.wp = 0 → y.dirty = true) ∧ (∀ b : Nat × Byte,
         let under := (found.map L2Line.below).getD []
         let at' := pa - (lineNo pa / 342 * 65536 + lineNo pa % 342 * 192)
         b ∈ y.below ↔ if v.wp = 0 then b ∈ under ∨ ((∃ k, now[k]? = some b.2 ∧ b.1 = at' + k) ∧ ∀ e ∈ under, e.1 ≠ b.1)
           else b ∈ under ∧ (b.1 < at' ∨ at' + now.length ≤ b.1))) ∧
     (found.isSome = true ∨ v.lvl ≠ 2 → ∃ y, ((c.atomic v pa now).1.slice v.home).head? = some y ∧ y.line = lineNo pa ∧
       y.cls = v.cls ∧ (∀ k, v.core = some k → v.lvl = 0 → blockNo pa ∈ Tbl.get [] (c.atomic v pa now).1.l1 k)) ∧
     (∀ k, v.core ≠ some k → blockNo pa ∉ Tbl.get [] (c.write v pa now).1.l1 k ∧
       blockNo pa ∉ Tbl.get [] (c.atomic v pa now).1.l1 k)) ∧
    (∀ h, s.cacheRead { v with home := h } l n = s.cacheRead v l n ∧ s.cacheWrite { v with home := h } l n = s.cacheWrite v l n ∧
      s.cacheAtomic { v with home := h } l n = s.cacheAtomic v l n) ∧
    (∀ k b, (Tbl.get [] c.l1i k).length ≤ 512 → let f := c.fetchBlock k b
      b ∈ Tbl.get [] f.l1i k ∧ (Tbl.get [] f.l1i k).length ≤ 512 ∧ f.l1 = c.l1 ∧ f.l2 = c.l2 ∧
      ∀ j, j ≠ k → Tbl.get [] f.l1i j = Tbl.get [] c.l1i j) ∧
    (∀ part k, v.core = some k → (k, blockNo pa) ∈ s.badL1 → let u := s.refetch part v (.phys pa)
      blockNo pa ∉ Tbl.get [] u.caches.l1 k ∧ (k, blockNo pa) ∉ u.badL1 ∧
      (u.part part).cecount = BitVec.ofNat 64 (Nat.min (2 ^ 32 - 1) ((s.part part).cecount.toNat + 1))) ∧
    (∀ k, ∀ y ∈ (s.dropLines p).caches.slice k, p y = false) ∧
    (∀ w ∈ s.badWords, if lineNo (8 * w) ∈ out then sectorNo (8 * w) ∈ (s.cached (c, out)).badSectors
      else w ∈ (s.cached (c, out)).badWords) ∧
    (∀ e ∈ s.badSectors, e ∈ (s.cached (c, out)).badSectors) ∧
    (inHost pa = true → ∀ k i : Nat, let first := fun (y : L2Line) => y.line / 342 * 65536 + y.line % 342 * 192 + 48 * i
      (∀ y ∈ (s.hostAccess pa n true).caches.slice k, first y < pa + n → pa < first y + 48 → y.secs.getD i .invalid = .invalid) ∧
      (∀ y ∈ (s.hostAccess pa n false).caches.slice k, first y < pa + n → pa < first y + 48 → y.secs.getD i .invalid ≠ .owned))

/-- Loads of every kind and length: the address is base + offset × size; after the checks the base is read, an sc load takes
the next keystone number, the destination is empty, and the thread waits for its reply, which consumes the base; the request
goes over the links where the home is on another die and the core's L1 cannot answer, an sc load's by way of the keystone on
die 0; what leaves no die is due at once (R46, R142, R147, R149, R79, R352, R390). That the base is consumed then, and that
the leg to the keystone sends flits, are the model's choices (log entries 47, 62). The event of a load at its home, an sc
load's in the sequence of keystone numbers: with no uncorrectable error the thread's answer is the little-endian bytes at the
location, under the thread's own posted writes, extended by the kind; a posted write that touches the bytes and cannot give
them all goes first. The answer comes at once, or back over the links with a line; then d takes it and the instruction
completes; for an error MEMERR is trapped with the destination as it was before issue (R17, R56, R143, R147, R149, R311,
R355, R390, R391). The sources are consumed with the answer (log entry 62). A posted write of the thread that a strong load
reads is strong from then on, and one that an acquire reads or follows goes before all later ones (R304). The model's
readings in it: log entries 11, 47, 53. -/
def Obligations.Loads : Prop :=
  ((∀ (s : State) (d base : BitVec 5) (q : BitVec 2) (off : BitVec 9) (imm : BitVec 5) (x : Word),
    MayIssue s 0 [.dst 0 d, .src 1 base] → rd s base = .ok x →
    let at' := fun (n : Int) => x + BitVec.ofInt 64 (off.toInt * n)
    let forms : List (Instr × LdKind × Bool × BitVec 2 × Word) :=
      [(.ldI8 d base q off, .i8, false, q, at' 1), (.ldN8 d base q off, .n8, false, q, at' 1),
       (.ldI16 d base q off, .i16, false, q, at' 2), (.ldN16 d base q off, .n16, false, q, at' 2),
       (.ldI32 d base q off, .i32, false, q, at' 4), (.ldN32 d base q off, .n32, false, q, at' 4),
       (.ldB64 d base q off, .b64, false, q, at' 8), (.ldF16 d base q off, .f16, false, q, at' 2),
       (.ldBf16 d base q off, .bf16, false, q, at' 2), (.ldF32 d base q off, .f32, false, q, at' 4),
       (.ldF64 d base q off, .f64, false, q, at' 8), (.ldB64_16 d base, .b64, true, 0, x),
       (.ldN32_16 d base, .n32, true, 0, x), (.ldF32_16 d base, .f32, true, 0, x)] ++
      (if base = 14 then [(.ldB64Sp_16 d imm, .b64, true, 0, x + 8 * imm.setWidth 64)] else [])
    ∀ f ∈ forms, ∀ a, (s.issued f.2.2.1).access s.cur f.2.2.2.1 f.2.2.2.2 f.2.1.size .load anySpace = .ok a →
      let i := s.issued f.2.2.1
      let o := i.qOrd f.2.2.2.1
      let acq := o == .sc || ((o == .acquire || o == .acqRel) && i.qScp f.2.2.2.1 != .thread)
      let far := crossesDie s.cur a.via.home && (match a.loc with
        | .phys pa => o == .sc || a.via.lvl != 0 || !(Tbl.get [] s.caches.l1 (coreOf s.cur)).contains (blockNo pa)
        | .spad _ _ => true)
      let u := ((a.st.keystoneIf (o == .sc)).emptyDest s.cur d).modMe fun c =>
        { c with wait := .load a.loc a.via f.2.2.2.2 f.2.1 d (i.wasFull s.cur d) (o != .loose) acq far
                           (if o = .sc then some (s.keystone + 1) else none) [base] }
      exec f.1 s = .next (u.callHome far (o == .sc) s.cur a.via.home a.loc)) ∧
  (∀ (u : State) (far sc : Bool) (thr home : Nat) (l : Loc),
    let d := dieOfCore (coreOf thr)
    let h := dieOfCore home
    let path := if sc then pathTo d 0 l.vert ++ pathTo 0 h l.vert else if far then pathTo d h l.vert else []
    (path = [] → u.callHome far sc thr home l = u.post (.reply thr)) ∧
    (path ≠ [] → u.callHome far sc thr home l = u.sendOn ⟨if path = pathTo d h l.vert then .request else .ordered, thr, (u.ctx thr).ident,
      path, backPath (pathTo d h l.vert), l.vert, 0⟩))) ∧
  (∀ (s : State) (thr : Nat) (l : Loc) (via : Via) (ea : Word) (k : LdKind) (d : BitVec 5) (was strong acq far : Bool)
      (sc : Option (BitVec 64)) (srcs : List (BitVec 5)),
    let gets := fun (t : State) (a : Answer) => match a.bad with
      | some e => t.memErr thr e d was 0 ea
      | none => ((t.consumeLate thr srcs).reply thr d a.old).resume thr
    let n := match k with
      | .i8 => 1
      | .n8 => 1
      | .i16 => 2
      | .n16 => 2
      | .f16 => 2
      | .bf16 => 2
      | .i32 => 4
      | .n32 => 4
      | .f32 => 4
      | .b64 => 8
      | .f64 => 8
    (∀ a, (s.ctx thr).wait = .answered a ea d was srcs → a.code = 0 → exec (.replyWriteback thr) s = .next (gets s a)) ∧
    ((s.ctx thr).wait = .load l via ea k d was strong acq far sc srcs →
      let answers := fun (t : State) (a : Answer) => exec (.replyWriteback thr) s = .next
        (if far then (t.modCtx thr fun c => { c with wait := .answered a ea d was srcs }).callBack thr via.home l 192 else gets t a)
      let u := if sc.isSome then s.performAll thr else s
      let comes := sc.all s.inSequence = true ∧ (sc = none → s.forwards thr l n = true)
      (¬ comes → exec (.replyWriteback thr) s = .next (s.post (.reply thr))) ∧
      (comes → ∀ e, u.badUnit l n = some e → answers u ⟨0, some e, 0, 0⟩) ∧
      (comes → u.badUnit l n = none →
        let c := u.cacheLoad (u.ctx thr).part via l n
        let raw := ofBytesNat (c.readOwn thr l n)
        let v : Word := match k with
          | .i8 => (BitVec.ofNat 8 raw).signExtend 64
          | .i16 => (BitVec.ofNat 16 raw).signExtend 64
          | .i32 => (BitVec.ofNat 32 raw).signExtend 64
          | .n8 => BitVec.ofNat 64 raw
          | .n16 => BitVec.ofNat 64 raw
          | .n32 => BitVec.ofNat 64 raw
          | .b64 => BitVec.ofNat 64 raw
          | .f16 => BitVec.ofNat 64 raw
          | .bf16 => BitVec.ofNat 64 raw
          | .f32 => BitVec.ofNat 64 raw
          | .f64 => BitVec.ofNat 64 raw
        answers (c.joinOwn thr l n strong acq) ⟨0, none, v, 0⟩)) ∧
    ((∀ p ∈ (s.ctx thr).posted, p.meets l n = false) → s.forwards thr l n = true) ∧
    (∀ ps p qs, (s.ctx thr).posted = ps ++ p :: qs → p.meets l n = true → (∀ q ∈ qs, q.meets l n = false) →
      (s.forwards thr l n = true ↔ p.covers l n = true ∧
        ∀ w m, p.arrival = some (w, m) → ∀ x ∈ wordsOf w 16, x ∉ wordsOf l n)) ∧
    (∀ p : Posted, let q := p.readBy l n strong acq
      (q.joined = true ↔ p.joined = true ∨ (strong = true ∧ p.meets l n = true)) ∧
      (q.led = true ↔ p.led = true ∨ p.meets l n = true ∨ (strong = true ∧ p.strong = true)) ∧
      (q.kept = true ↔ p.kept = true ∨ (acq = true ∧ (p.meets l n = true ∨ p.strong = true)))))

/-- Stores of every kind and length: after the checks and the reads, an sc store takes the next keystone number and waits for
its reply, over the links by die 0 to its home; any other parks while eight posted writes are outstanding, else posts the low
bytes of the value at the address and completes. Nothing of any memory has changed then (R142, R147, R150, R79, R352). The
model's readings in it: log entries 11, 47. A remote store with arrival: both addresses in one core's scratchpad, or ADDR
with the arrival word's address; then one posted write carries value and arrivals, and the thread parks while eight are
outstanding (R150, R152, R153). The access code of the arrival word's record: log entry 79. A posted write is performed at
its home, or, strong and for another die, leaves as an update while that die has room for it, each once no flit of it would
wait (R393); not before an earlier one of its thread to one of its words, nor, both strong, before an earlier one, nor a
release of a scope beyond the thread before any, nor any before one that an acquire of its thread keeps; a write is strong
too that a strong load of its thread has read. What it performs is its bytes at its location, then its arrival; to another
die a message goes with it (R146, R150, R153, R304, R305, R351, R390, R393). Its line's home is the one at that moment
(R341). The model's readings in it: log entries 11, 47. Events of memory: an sc store's reply performs it in the sequence of
keystone numbers, as an update that its die's clock covers; a long instruction's last write frees its thread, and its enabled
flags trap; a message is delivered after what precedes it of its sender's writes while the mailbox has room; a push reaches
its queue in order, after the writes that precede it, unless the queue is discarded; an update is applied after those that it
depends on, and is then no posted write of its thread (R24, R36, R147, R150, R176, R249, R250, R304, R351). -/
def Obligations.Stores : Prop :=
  ((∀ (s : State) (v base : BitVec 5) (q : BitVec 2) (off : BitVec 9) (imm : BitVec 5) (x y : Word),
    MayIssue s 0 [.src 0 v, .src 1 base] → rd s v = .ok y → rd s base = .ok x →
    let at' := fun (n : Int) => x + BitVec.ofInt 64 (off.toInt * n)
    let forms : List (Instr × Nat × Bool × BitVec 2 × Word) :=
      [(.stB8 v base q off, 1, false, q, at' 1), (.stB16 v base q off, 2, false, q, at' 2),
       (.stB32 v base q off, 4, false, q, at' 4), (.stB64 v base q off, 8, false, q, at' 8),
       (.stF16 v base q off, 2, false, q, at' 2), (.stBf16 v base q off, 2, false, q, at' 2),
       (.stF32 v base q off, 4, false, q, at' 4), (.stF64 v base q off, 8, false, q, at' 8),
       (.stB64_16 v base, 8, true, 0, x), (.stB32_16 v base, 4, true, 0, x), (.stF32_16 v base, 4, true, 0, x)] ++
      (if base = 14 then [(.stB64Sp_16 v imm, 8, true, 0, x + 8 * imm.setWidth 64)] else [])
    ∀ f ∈ forms, ∀ a, (s.issued f.2.2.1).access s.cur f.2.2.2.1 f.2.2.2.2 f.2.1 .store anySpace = .ok a →
      let i := s.issued f.2.2.1
      let p : Posted := { loc := a.loc, bytes := toBytes f.2.1 y, arrival := none, order := i.qOrd f.2.2.2.1
                          scope := i.qScp f.2.2.2.1, via := a.via, sent := false, joined := false, led := false, kept := false }
      let u := a.st.consume s.cur [v, base]
      (i.qOrd f.2.2.2.1 = .sc →
        let w := (u.keystoneIf true).modMe fun c => { c with wait := .storeSc p (s.keystone + 1) }
        exec f.1 s = .next (w.callHome (crossesDie s.cur a.via.home) true s.cur a.via.home a.loc)) ∧
      (i.qOrd f.2.2.2.1 ≠ .sc → s.me.posted.length < 8 → exec f.1 s = .next ((u.postWrite p).advance s.cur)) ∧
      (i.qOrd f.2.2.2.1 ≠ .sc → 8 ≤ s.me.posted.length →
        exec f.1 s = .next (i.modMe fun c => { c with wait := .cond .postedFull }))) ∧
  (∀ (s : State) (v base w : BitVec 5) (q : BitVec 2) (n1 : BitVec 4) (x y z : Word),
    MayIssue s 0 [.src 0 v, .src 1 base, .src 5 w] → rd s v = .ok y → rd s base = .ok x → rd s w = .ok z →
    let i := s.issued false
    ∀ f ∈ [(Instr.staB8 v base q w n1, 1), (.staB16 v base q w n1, 2), (.staB32 v base q w n1, 4), (.staB64 v base q w n1, 8)],
    ∀ a b, i.access s.cur q x f.2 .store spadSpace = .ok a → a.st.access s.cur q z 16 .store spadSpace = .ok b →
      let p : Posted := { loc := a.loc, bytes := toBytes f.2 y, arrival := some (b.loc, n1.setWidth 32 + 1)
                          order := i.qOrd q, scope := i.qScp q, via := a.via, sent := false, joined := false, led := false, kept := false }
      (a.via.home ≠ b.via.home → exec f.1 s = .next (i.trapAt s.cur .addr 1 z)) ∧
      (a.via.home = b.via.home → s.me.posted.length < 8 →
        exec f.1 s = .next (((b.st.consume s.cur [v, base, w]).postWrite p).advance s.cur)) ∧
      (a.via.home = b.via.home → 8 ≤ s.me.posted.length →
        exec f.1 s = .next (i.modMe fun c => { c with wait := .cond .postedFull })))) ∧
  ((∀ (s : State) (thr idx : Nat) (p : Posted), (s.ctx thr).posted[idx]? = some p → p.sent = false →
    let waits := ((s.ctx thr).posted.take idx).any fun a => a.before p
    let strong := fun (a : Posted) => a.order ≠ .loose ∨ a.joined = true
    let away := strong p ∧ dieOfCore (coreOf thr) ≠ dieOfCore p.via.home
    let full := s.stalls (dieOfCore (coreOf thr)) (dieOfCore p.via.home)
    let held := s.linksWait (dieOfCore (coreOf thr)) (dieOfCore p.via.home) p.loc.vert
    (waits = true → exec (.postedWritePerform thr idx) s = .next s) ∧
    (waits = false → away → exec (.postedWritePerform thr idx) s =
      .next (if held = true ∨ full = true then s.post (.postedWrite thr) else s.sendUpdate thr idx p)) ∧
    (waits = false → ¬ away → exec (.postedWritePerform thr idx) s =
      .next (if held then s.post (.postedWrite thr) else
        (((s.modCtx thr fun c => { c with posted := c.posted.eraseIdx idx }).cargo (dieOfCore (coreOf thr))
          (dieOfCore p.via.home) p.loc.vert p.bytes.length).perform p).afterPosted thr)) ∧
    (∀ (u : State) (a b v : Nat), u.linksWait a b v = true ↔ a ≠ b ∧ ∃ k ∈ pathTo a b v,
      ∃ j ∈ (if (u.linkAt k).detour then detourOf k v else [k]),
        (u.linkAt j).state = 2 ∨ ((u.linkAt j).state = 1 ∧ (u.linkAt j).queue ≠ [])) ∧
    (∀ a : Posted, a.before p = true ↔ (∃ w, w ∈ a.words ∧ w ∈ p.words) ∨ (strong a ∧ strong p) ∨
      ((p.order = .release ∨ p.order = .acqRel ∨ p.order = .sc) ∧ p.scope ≠ .thread) ∨ a.kept = true) ∧
    (∀ (u : State) (die v n : Nat), u.cargo die die v n = u) ∧
    (∀ u : State, u.perform p = match p.arrival with
      | none => (u.cacheWrite p.via p.loc p.bytes.length).write p.loc p.bytes
      | some (l, n) => ((u.cacheWrite p.via p.loc p.bytes.length).write p.loc p.bytes).arriveAt l n)) ∧
  (∀ (s : State) (thr core key die : Nat),
    (∀ p n, (s.ctx thr).wait = .storeSc p n →
      let t := ((s.performAll thr).crossDie (dieOfCore (coreOf thr)) (dieOfCore p.via.home)).perform p
      exec (.replyWriteback thr) s = .next
        (if s.inSequence n = false then s.post (.reply thr)
         else if crossesDie thr p.via.home then
           (t.modCtx thr fun c => { c with wait := .answered ⟨1, none, 0, 0⟩ 0 0 false [] }).callBack thr p.via.home p.loc 0
         else t.resume thr)) ∧
    (∀ a ea d was srcs, (s.ctx thr).wait = .answered a ea d was srcs → a.code = 1 → a.bad = none →
      exec (.replyWriteback thr) s = .next (s.resume thr)) ∧
    (∀ f, (s.ctx thr).wait = .finish f →
      exec (.replyWriteback thr) s = .next ((s.modCtx thr fun c => { c with wait := .ready }).fpeTrap thr f)) ∧
    (∀ f, s.flights.find? (fun f => f.core == core) = some f → (s.core core).tm.mailbox.length < 32 →
      let u := s.performCausal (f.msg.extractLsb' 64 32).toNat
      exec (.mailboxMessageDelivery core) s = .next
        ({ u with flights := u.flights.eraseP fun g => g.core == core }.modTm core fun m => { m with mailbox := m.mailbox ++ [f.msg] })) ∧
    (∀ x rest, (s.chan key).inFlight = x :: rest →
      exec (.channelPushDelivery key) s = .next ((s.beforePush key).modChan key fun ch =>
        { ch with inFlight := rest, q := if ch.closed then ch.q else ch.q ++ [x] })) ∧
    (∀ k u, nextUpdate (s.die die).updates = some (k, u) →
      let t := (((s.modDie die fun d => { d with updates := d.updates.eraseIdx k, clock := clockMax d.clock u.clock }).modCtx u.thr
        fun c => { c with posted := c.posted.eraseP fun p => p.sent && p.loc == u.write.loc && p.bytes == u.write.bytes &&
          p.arrival == u.write.arrival }).perform u.write).afterPosted u.thr
      exec (.updateApply die) s = .next (if (t.die die).updates.isEmpty then t else t.post (.updateApply die))) ∧
    (∀ us k u, nextUpdate us = some (k, u) → us[k]? = some u ∧ ∀ j v, us[j]? = some v → j ≠ k →
      2 ^ 31 ≤ (vget 0 u.clock v.origin - vget 0 v.clock v.origin).toNat)))

/-- Writing physical memory or a scratchpad: the bytes read back at their addresses, every other byte reads as before, the
memory keeps its canonical form, and no thread changes; in a scratchpad that holds while no thread of the core waits for an
arrival word (R17, R35, R165, R336). -/
def Obligations.MemoryWrites : Prop :=
  (∀ (s : State) (pa : Nat) (bs : List Byte),
    (s.physWrite pa bs).physRead pa bs.length = bs ∧
    (∀ a n, (a + n ≤ pa ∨ pa + bs.length ≤ a) → (s.physWrite pa bs).physRead a n = s.physRead a n) ∧
    (∀ a, a < pa ∨ pa + bs.length ≤ a → Tbl.get 0 (s.physWrite pa bs).mem a = Tbl.get 0 s.mem a) ∧
    (Memory.wf s.mem = true → Memory.wf (s.physWrite pa bs).mem = true) ∧
    (∀ core a k n, (s.physWrite pa bs).spadRead core a n = s.spadRead core a n ∧ (s.physWrite pa bs).ctx k = s.ctx k)) ∧
  (∀ (s : State) (core a : Nat) (bs : List Byte),
    (∀ t ∈ slotsOf core, ∀ w g d srcs, (s.ctx t).wait ≠ .await w g d srcs) →
    (s.spadWrite core a bs).spadRead core a bs.length = bs ∧
    (∀ b n, (b + n ≤ a ∨ a + bs.length ≤ b) → (s.spadWrite core a bs).spadRead core b n = s.spadRead core b n) ∧
    (∀ k b n, k ≠ core → (s.spadWrite core a bs).spadRead k b n = s.spadRead k b n) ∧
    (s.spadWrite core a bs).mem = s.mem ∧ (s.spadWrite core a bs).threads = s.threads)

/-- Atomics: after the checks an sc atomic takes the next keystone number, the destination is empty, and the thread waits; at
a home on its own die the atomic is due, to another die its request goes, an sc atomic's by way of the keystone; `amofadd` in
a deterministic launch traps ORDER after the checks (R154, R155, R147, R14, R352, R434). The model's readings in it: log
entry 47. The event of an atomic at its home, in the sequence of keystone numbers: memory takes m′ of R154, and the thread's
answer is the old value, extended, with the flags of `amofadd`; the answer comes at once, or back over the links. With it d
takes the old value, the flags reach vs, and an enabled one traps after the instruction; an uncorrectable error traps MEMERR
with the destination as it was (R56, R143, R147, R154, R155, R355, R434). All posted writes of the thread are performed
first, and the sources are consumed with the answer: the model's choices (log entries 11, 62). -/
def Obligations.Atomics : Prop :=
  (∀ (s : State) (d a b : BitVec 5) (q : BitVec 2) (w : BitVec 1) (x y z : Word), rd s a = .ok x → rd s b = .ok y →
    let n := if w = 1 then 8 else 4
    let cut := fun (v : Word) => if w = 1 then v else (v.setWidth 32).setWidth 64
    let i := s.issued false
    let o := i.qOrd q
    let waits := fun (f : Instr) (op : AmoOp) (c : Word) => ∀ acc, i.access s.cur q x n .atomic anySpace = .ok acc →
      let u := ((acc.st.keystoneIf (o == .sc)).emptyDest s.cur d).modMe fun k =>
        { k with wait := .atomic acc.loc acc.via x op (w == 1) d (cut y) (cut c) (i.wasFull s.cur d) (o != .loose)
                           (if o = .sc then some (s.keystone + 1) else none) [a, b] }
      exec f s = .next (u.callHome (crossesDie s.cur acc.via.home) (o == .sc) s.cur acc.via.home acc.loc)
    (MayIssue s 0 [.dst 0 d, .src 1 a, .src 2 b] →
      waits (.amoswap d a b q w) .swap 0 ∧ waits (.amoadd d a b q w) .add 0 ∧ waits (.amoand d a b q w) .and 0 ∧
      waits (.amoor d a b q w) .or 0 ∧ waits (.amoxor d a b q w) .xor 0 ∧ waits (.amominI d a b q w) .minI 0 ∧
      waits (.amomaxI d a b q w) .maxI 0 ∧ waits (.amominN d a b q w) .minN 0 ∧ waits (.amomaxN d a b q w) .maxN 0 ∧
      (stDet s.me.status = false → waits (.amofadd d a b q w) .fadd 0) ∧
      (stDet s.me.status = true → ∀ acc, i.access s.cur q x n .atomic anySpace = .ok acc →
        exec (.amofadd d a b q w) s = .next (i.trapAt s.cur .order 0 0))) ∧
    (MayIssue s 0 [.both 0 d, .src 1 a, .src 2 b] → rd s d = .ok z → waits (.cas d a b q w) .cas z)) ∧
  (∀ (s : State) (thr : Nat) (l : Loc) (via : Via) (ea : Word) (op : AmoOp) (wide : Bool) (d : BitVec 5) (v c : Word)
      (was strong : Bool) (sc : Option (BitVec 64)) (srcs : List (BitVec 5)),
    (wide = false → v.toNat < 2 ^ 32 ∧ c.toNat < 2 ^ 32) →
    let n := if wide then 8 else 4
    let w := 8 * n
    let gets := fun (t : State) (a : Answer) => match a.bad with
      | some e => t.memErr thr e d was 2 ea
      | none => (((((t.modCtx thr fun k => { k with vs := k.vs ||| a.flags.setWidth 32 }).consumeLate thr srcs).reply thr d
          a.old).resume thr)).fpeTrap thr ((t.ctx thr).fpe a.flags)
    (∀ a, (s.ctx thr).wait = .answered a ea d was srcs → a.code = 2 → exec (.replyWriteback thr) s = .next (gets s a)) ∧
    ((s.ctx thr).wait = .atomic l via ea op wide d v c was strong sc srcs →
      let answers := fun (t : State) (a : Answer) => exec (.replyWriteback thr) s = .next
        (if crossesDie thr via.home then (t.modCtx thr fun k => { k with wait := .answered a ea d was srcs }).callBack thr via.home l 0
         else gets t a)
      let u1 := s.performAll thr
      let u0 := if strong then u1.crossDie (dieOfCore (coreOf thr)) (dieOfCore via.home) else u1
      (sc.all s.inSequence = false → exec (.replyWriteback thr) s = .next (s.post (.reply thr))) ∧
      (sc.all s.inSequence = true → ∀ e, u0.badUnit l n = some e → answers u0 ⟨2, some e, 0, 0⟩) ∧
      (sc.all s.inSequence = true → u0.badUnit l n = none →
        let u := u0.correct (u0.ctx thr).part l n
        let m := ofBytesNat (u.read l n)
        let sg := fun (k : Nat) => if k < 2 ^ (w - 1) then (k : Int) else (k : Int) - 2 ^ w
        let F := if wide then Fmt.f64 else Fmt.f32
        let sum := addV F .ne false (decodeF F m) (decodeF F v.toNat)
        let new := match op with
          | .swap => v.toNat
          | .add => (m + v.toNat) % 2 ^ w
          | .and => m &&& v.toNat
          | .or => m ||| v.toNat
          | .xor => m ^^^ v.toNat
          | .minI => if sg v.toNat < sg m then v.toNat else m
          | .maxI => if sg m < sg v.toNat then v.toNat else m
          | .minN => Nat.min m v.toNat
          | .maxN => Nat.max m v.toNat
          | .cas => if m = c.toNat then v.toNat else m
          | .fadd => sum.1
        let f : BitVec 4 := if op = .fadd then sum.2 else 0
        let old : Word := if op = .minI ∨ op = .maxI then BitVec.ofInt 64 (sg m) else BitVec.ofNat 64 m
        answers ((u.cacheAtomic via l n).write l (toBytes n (BitVec.ofNat 64 new))) ⟨2, none, old, f⟩)))

/-- Policy registers move 32 bits; a fence of an order that releases parks while the thread has posted writes, unless its
scope is the thread, and otherwise completes, an sc fence taking the next keystone number once every sc access that took one
before is performed; one that acquires keeps the posted writes that loads before it have read before all later ones;
`fence.i` parks likewise, and then the thread's fetches see no older content, and no block is left in the core's instruction
cache (R46, R75, R147, R148, R156, R157, R304, R315, R352, R354). The messages of an sc fence go to the keystone and back.
The model's readings in it: log entries 11, 47. -/
def Obligations.FencesAndPolicies : Prop :=
  ∀ (s : State) (d q a : BitVec 5) (x : Word),
    let i := s.issued false
    let w := vget 0 s.me.q q.toNat
    let o := w.toNat % 8
    let sc := w.toNat / 8 % 8
    (MayIssue s 0 [.file 4 q 3, .src 1 a] → rd s a = .ok x → exec (.qset q a) s =
      .next (finishNo (i.modMe fun c => { c with q := vset c.q q.toNat (x.setWidth 32) }) [a])) ∧
    (MayIssue s 0 [.dst 0 d, .file 4 q 3] → exec (.qget d q) s = .next (finish i [] d (w.setWidth 64))) ∧
    (MayIssue s 0 [.file 4 q 3] →
      (6 ≤ o ∨ 6 ≤ sc → exec (.fence q) s = .next (i.trapAt s.cur .opnd (BitVec.ofNat 64 (4 + 256 * q.toNat)) 0)) ∧
      (o < 6 → sc < 6 → (o < 3 ∨ s.me.posted = [] ∨ (o ≠ 5 ∧ sc = 0)) → (o = 5 → i.scPending = false) →
        let u := if (o = 2 ∨ o = 4 ∨ o = 5) ∧ (o = 5 ∨ sc ≠ 0) then
          i.modMe fun c => { c with posted := c.posted.map fun p => { p with kept := p.kept || p.led } } else i
        exec (.fence q) s = .next (finishNo (if o = 5 then
          ({ u with keystone := s.keystone + 1 }.cargo (dieOfCore (coreOf s.cur)) 0 2 0).cargo 0 (dieOfCore (coreOf s.cur)) 2 0
          else u) [])) ∧
      (o = 5 → sc < 6 → s.me.posted = [] → i.scPending = true →
        exec (.fence q) s = .next (i.modMe fun c => { c with wait := .cond .scPending })) ∧
      (i.scPending = true ↔ ∃ x ∈ i.threads, x.2.live = true ∧ x.2.wait.number ≠ none) ∧
      (o < 6 → sc < 6 → 3 ≤ o → s.me.posted ≠ [] → (o = 5 ∨ sc ≠ 0) →
        exec (.fence q) s = .next (i.modMe fun c => { c with wait := .cond .postedAny }))) ∧
    (MayIssue s 0 [] →
      (s.me.posted = [] → exec .fenceI s = .next (finishNo
        ({ i with
            badL1i := s.badL1i.filter fun x => x.1 != coreOf s.cur
            caches := { s.caches with l1i := Tbl.set [] s.caches.l1i (coreOf s.cur) [] } }.modMe fun c =>
          { c with fencedAt := s.writes }) [])) ∧
      (s.me.posted ≠ [] → exec .fenceI s = .next (i.modMe fun c => { c with wait := .cond .postedAny })))

/-- `fill`, `drain` and `peek`: a general register's state changes at once and its value stays; a window register's state
changes at the writeback, whatever it is then or was at issue (the model's reading, log entry 65); g0 stays full; `peek`
reads 1 for full and 0 for empty, the values in the queue of `cin`, the free entries downstream of `cout`, or all ones
without a channel, changes no state, and traps ORDER in a deterministic launch (R158, R159). -/
def Obligations.FullEmpty : Prop :=
  ∀ (s : State) (r d a : BitVec 5),
    let i := s.issued false
    let sets := fun (f : Instr) (full : Bool) =>
      (r = 0 → exec f s = .next (finishNo i [])) ∧
      (0 < r.toNat ∧ r.toNat < 16 → exec f s =
        .next (finishNo (i.modMe fun c => { c with gFull := vset c.gFull r.toNat full }) [])) ∧
      (16 ≤ r.toNat → exec f s = .next (finishNo
        (i.modCore (coreOf s.cur) fun k => { k with wb := k.wb ++ [⟨k.cycle + 8, winIndex (slotOf s.cur) r, none, full⟩] }) []))
    (MayIssue s 0 [.state 0 r] → sets (.fill r) true ∧ sets (.drain r) false) ∧
    (MayIssue s 0 [.dst 0 d, .peek 1 a] → stDet s.me.status = true → exec (.peek d a) s = .next (i.trapAt s.cur .order 0 0)) ∧
    (MayIssue s 0 [.dst 0 d, .peek 1 a] → stDet s.me.status = false →
      exec (.peek d a) s = .next (finish i [] d (i.peekVal s.cur a)) ∧
      (a = 0 → i.peekVal s.cur a = 1) ∧
      (0 < a.toNat ∧ a.toNat < 16 → i.peekVal s.cur a = if vget true s.me.gFull a.toNat = true then 1 else 0) ∧
      (16 ≤ a.toNat ∧ a.toNat < 24 → i.peekVal s.cur a =
        if vget false (s.core (coreOf s.cur)).tm.winFull (winIndex (slotOf s.cur) a) = true then 1 else 0) ∧
      (a = 24 → i.peekVal s.cur a = if s.me.cin = none then BitVec.allOnes 64
        else BitVec.ofNat 64 ((s.chan s.me.inKey).q.countP fun x => x.isVal)) ∧
      (a = 25 → s.me.outKey = none → i.peekVal s.cur a = BitVec.allOnes 64) ∧
      (∀ k, a = 25 → s.me.outKey = some k → i.peekVal s.cur a = BitVec.ofNat 64 (8 - (s.chan k).used)))

/-- The mailbox: `msend` traps ADDR for a core that does not exist, PERM for another partition's, parks while the mailbox is
full, and otherwise a message of kind 1 with the sender is on its way; `mwait` and `mget` park while the own mailbox is
empty; `mget` takes the oldest message: payload to d, header to h (R36, R160-R162). The access code 0 of the traps of `msend`
and the field that an `mget` with d and h alike names are the model's choices (log entry 79). In a deterministic launch the
mailbox instructions trap ORDER (R160-R162, R14). -/
def Obligations.Mailbox : Prop :=
  (∀ (s : State) (tag a b d h : BitVec 5) (t x y : Word), stDet s.me.status = false →
    let i := s.issued false
    let box := (s.core (coreOf s.cur)).tm.mailbox
    (MayIssue s 0 [.gsrc 0 tag, .src 1 a, .src 2 b] → rd s tag = .ok t → rd s a = .ok x → rd s b = .ok y →
      (1280 ≤ x.toNat → exec (.msend tag a b) s = .next (i.trapAt s.cur .addr 0 x)) ∧
      (x.toNat < 1280 → i.myPart.hasCore x.toNat = false → exec (.msend tag a b) s = .next (i.trapAt s.cur .perm 0 x)) ∧
      (x.toNat < 1280 → i.myPart.hasCore x.toNat = true → 32 ≤ s.mailUsed x.toNat →
        exec (.msend tag a b) s = .next (i.modMe fun c => { c with wait := .cond (.mailboxFull x.toNat) })) ∧
      (x.toNat < 1280 → i.myPart.hasCore x.toNat = true → s.mailUsed x.toNat < 32 →
        exec (.msend tag a b) s = .next (finishNo (({ i.cargo (dieOfCore (coreOf s.cur)) (dieOfCore x.toNat) 2 0 with flights := s.flights ++
          [(⟨x.toNat, 1#8 ++ 0#8 ++ t.setWidth 16 ++ BitVec.ofNat 32 s.cur ++ y⟩ : Flight)] }).post (.mailDelivery x.toNat)) [tag, a, b]))) ∧
    (MayIssue s 0 [.dst 0 d] →
      (box = [] → exec (.mwait d) s = .next (i.modMe fun c => { c with wait := .cond .mailboxEmpty })) ∧
      (box ≠ [] → exec (.mwait d) s = .next (finish i [] d (BitVec.ofNat 64 box.length)))) ∧
    (MayIssue s 0 [.dst 0 d, .dst 1 h, .differ 1 d h] →
      (box = [] → exec (.mget d h) s = .next (i.modMe fun c => { c with wait := .cond .mailboxEmpty })) ∧
      (∀ m rest, box = m :: rest →
        let u := ((i.modTm (coreOf s.cur) fun k => { k with mailbox := rest }).post (.mailDelivery (coreOf s.cur))).post
          (.pendingDelivery (coreOf s.cur))
        exec (.mget d h) s = .next (((u.dest s.cur d (m.setWidth 64)).dest s.cur h (m.extractLsb' 64 64)).advance s.cur)))) ∧
  (∀ (s : State) (tag a b d h : BitVec 5), stDet s.me.status = true →
    (MayIssue s 0 [.gsrc 0 tag, .src 1 a, .src 2 b] → exec (.msend tag a b) s = .next ((s.issued false).trapAt s.cur .order 0 0)) ∧
    (MayIssue s 0 [.dst 0 d] → exec (.mwait d) s = .next ((s.issued false).trapAt s.cur .order 0 0)) ∧
    (MayIssue s 0 [.dst 0 d, .dst 1 h, .differ 1 d h] → exec (.mget d h) s = .next ((s.issued false).trapAt s.cur .order 0 0)))

/-- Arrival words: `arm` sets target and count and clears the mark bits of a wait of old; `arrive` posts n arrivals, and
parks while eight writes are outstanding; `await` completes with the generation if it differs from the one given, and
otherwise sets the thread's watcher bit and waits, until the generation has changed; the checks come as for any access (R37,
R143, R163-R165). The access code of `arrive` is the model's choice (log entry 79). That `arm` and `await` first perform the
thread's posted writes, and that an `await` that waits consumes its sources when it wakes, and their MEMERR, are too (log
entries 11, 53, 62). arrival(w, n): the count rises by n; each time it reaches the target, the target is taken off, the
generation steps, and the watcher bits clear; an amount of 0 changes no field (R38, R164). The waiting-task table: `wtadd`
fills the lowest free entry from the 32-byte block that a names, fired at once where the count has reached the threshold, and
gives its index, or all ones with no free entry; `wtdel` frees an entry and gives the state it had, after which a core of
which nothing is left gives its team up (R363); the checks come in the order of R166 (R39, R166, R167). The model's choices:
the OPND records have 0 in bits 15:8 (log entry 7), `wtadd` first performs the thread's posted writes (log entry 11), and its
MEMERR (log entry 53). -/
def Obligations.ArrivalWords : Prop :=
  (∀ (s : State) (d q a b : BitVec 5) (x y : Word), rd s a = .ok x → rd s b = .ok y →
    let i := s.issued false
    let core := coreOf s.cur
    let inside := x.toNat < 2 ^ 19 ∧ x.toNat % 16 = 0 ∧ x.toNat + 16 ≤ 0x60000
    let u := i.performAll s.cur
    let outside := fun (f : Instr) (code : Word) =>
      (2 ^ 19 ≤ x.toNat → exec f s = .next (i.trapAt s.cur .addr code x)) ∧
      (x.toNat < 2 ^ 19 → x.toNat % 16 ≠ 0 → exec f s = .next (i.trapAt s.cur .align code x)) ∧
      (x.toNat < 2 ^ 19 → x.toNat % 16 = 0 → 0x60000 < x.toNat + 16 → exec f s = .next (i.trapAt s.cur .spad code x))
    (MayIssue s 0 [.src 1 a, .src 2 b] → outside (.arm a b) 1 ∧ (inside → exec (.arm a b) s = .next (finishNo
      ((u.spadWrite core x.toNat (toBytes 4 y ++ [0, 0, 0, 0])).spadWrite core (x.toNat + 14) [0, 0]) [a, b]))) ∧
    (MayIssue s 0 [.file 4 q 3, .src 1 a, .src 2 b] → ∀ l v st,
      i.access s.cur (q.setWidth 2) x 16 .store spadSpace = .ok ⟨l, v, st⟩ →
      (s.me.posted.length < 8 → exec (.arrive q a b) s = .next (((st.consume s.cur [a, b]).postWrite
        { loc := l, bytes := [], arrival := some (l, y.setWidth 32), order := i.qOrd (q.setWidth 2)
          scope := i.qScp (q.setWidth 2), via := v, sent := false, joined := false, led := false, kept := false }).advance s.cur)) ∧
      (8 ≤ s.me.posted.length → exec (.arrive q a b) s = .next (i.modMe fun c => { c with wait := .cond .postedFull }))) ∧
    (MayIssue s 0 [.dst 0 d, .src 1 a, .src 2 b] → outside (.await d a b) 0 ∧ (inside →
      (∀ e, u.badUnit (.spad core x.toNat) 16 = some e →
        exec (.await d a b) s = .next ((i.logError s.me.part core e.1 e.2).trapAt s.cur .memerr 0 x)) ∧
      (u.badUnit (.spad core x.toNat) 16 = none →
        let v := u.correct s.me.part (.spad core x.toNat) 16
        let gen : Word32 := BitVec.ofNat 32 (ofBytesNat (u.spadRead core (x.toNat + 8) 4))
        (gen ≠ y.setWidth 32 → exec (.await d a b) s = .next (finish v [a, b] d (gen.setWidth 64))) ∧
        (gen = y.setWidth 32 → exec (.await d a b) s = .next ((v.setWatcher core x.toNat (slotOf s.cur)).modMe fun c =>
          { c with wait := .await x.toNat gen d [a, b] }))))) ∧
    (∀ (thr w : Nat) (g : Word32) (srcs : List (BitVec 5)), (s.ctx thr).wait = .await w g d srcs →
      let now : Word32 := BitVec.ofNat 32 (ofBytesNat (s.spadRead (coreOf thr) (w + 8) 4))
      (now = g → s.awaitWake thr = s) ∧
      (now ≠ g → s.awaitWake thr = ((((s.spadPut (coreOf thr) (w + 12) [0, 0]).consumeLate thr srcs).destLate thr d
        (now.setWidth 64)).resume thr)))) ∧
  (∀ (s : State) (core a : Nat) (n : Word32), (∀ t ∈ slotsOf core, ∀ w g d srcs, (s.ctx t).wait ≠ .await w g d srcs) →
    let target := ofBytesNat (s.spadRead core a 4)
    let count := (ofBytesNat (s.spadRead core (a + 4) 4) + n.toNat) % 2 ^ 32
    let gen := ofBytesNat (s.spadRead core (a + 8) 4)
    let t := s.arrival core a n
    ofBytesNat (t.spadRead core a 4) = target ∧
    (n = 0 ∨ target = 0 ∨ count < target → ofBytesNat (t.spadRead core (a + 4) 4) = count ∧
      ofBytesNat (t.spadRead core (a + 8) 4) = gen ∧ t.spadRead core (a + 12) 2 = s.spadRead core (a + 12) 2) ∧
    (n ≠ 0 → 0 < target ∧ target ≤ count → ofBytesNat (t.spadRead core (a + 4) 4) = count % target ∧
      ofBytesNat (t.spadRead core (a + 8) 4) = (gen + count / target) % 2 ^ 32 ∧ t.spadRead core (a + 12) 2 = [0, 0])) ∧
  (∀ (s : State) (d a : BitVec 5) (x : Word), MayIssue s 0 [.dst 0 d, .src 1 a] → rd s a = .ok x →
    let i := s.issued false
    let core := coreOf s.cur
    let u0 := i.performAll s.cur
    let u := u0.correct s.me.part (.spad core x.toNat) 32
    let f := fun o n => ofBytesNat (u.spadRead core (x.toNat + o) n)
    let word : Word := BitVec.ofNat 64 (f 0 4)
    let entry : Word := BitVec.ofNat 64 (f 8 8)
    let fails := fun (cls : TrapClass) (info ea : Word) => exec (.wtadd d a) s = .next (i.trapAt s.cur cls info ea)
    (2 ^ 19 ≤ x.toNat → fails .addr 0 x) ∧
    (x.toNat < 2 ^ 19 → x.toNat % 32 ≠ 0 → fails .align 0 x) ∧
    (x.toNat < 2 ^ 19 → x.toNat % 32 = 0 → 0x60000 < x.toNat + 32 → fails .spad 0 x) ∧
    (x.toNat < 2 ^ 19 → x.toNat % 32 = 0 → x.toNat + 32 ≤ 0x60000 →
      (∀ e, u0.badUnit (.spad core x.toNat) 32 = some e →
        exec (.wtadd d a) s = .next ((i.logError s.me.part core e.1 e.2).trapAt s.cur .memerr 0 x)) ∧
      (u0.badUnit (.spad core x.toNat) 32 = none →
        (f 0 4 % 16 ≠ 0 → fails .align 0 word) ∧
        (f 0 4 % 16 = 0 → 0x60000 < f 0 4 + 16 → fails .spad 0 word) ∧
        (f 0 4 % 16 = 0 → f 0 4 + 16 ≤ 0x60000 →
          (entry.getLsbD 0 = true → fails .align 3 entry) ∧
          (entry.getLsbD 0 = false → canonical entry = false → fails .addr 3 entry) ∧
          (entry.getLsbD 0 = false → canonical entry = true → f 24 8 ≠ 0 → fails .opnd 1 0) ∧
          (entry.getLsbD 0 = false → canonical entry = true → f 24 8 = 0 →
            (∀ k, (List.range 64).find? (fun k => (Tbl.get WtEntry.zero (u.core core).tm.wt k).state == .free) = some k →
              exec (.wtadd d a) s = .next (finish (u.addEntry core k
                { state := .armed, word := BitVec.ofNat 15 (f 0 4 / 16), threshold := BitVec.ofNat 32 (f 4 4)
                  gen := BitVec.ofNat 32 (ofBytesNat (u.spadRead core (f 0 4 + 8) 4)), entry := entry.setWidth 57
                  arg := BitVec.ofNat 64 (f 16 8), tasid := s.me.tasid }) [a] d (BitVec.ofNat 64 k))) ∧
            ((List.range 64).find? (fun k => (Tbl.get WtEntry.zero (u.core core).tm.wt k).state == .free) = none →
              exec (.wtadd d a) s = .next (finish u [a] d (BitVec.allOnes 64))))))) ∧
    (∀ (v : State) (k : Nat) (e : WtEntry), e.state = .armed →
      let fires := e.threshold ≠ 0 ∧ e.threshold.toNat ≤ ofBytesNat (v.spadRead core (16 * e.word.toNat + 4) 4)
      let fill := fun (e : WtEntry) => v.modTm core fun m => { m with wt := Tbl.set WtEntry.zero m.wt k e }
      (fires → v.addEntry core k e = (fill { e with state := .fired }).post (.contextClaim core)) ∧
      (¬ fires → v.addEntry core k e = fill e)) ∧
    (x.toNat < 64 → exec (.wtdel d a) s = .next ((finish
      (i.modTm core fun m => { m with wt := Tbl.set WtEntry.zero m.wt x.toNat WtEntry.zero }) [a] d
      (match (Tbl.get WtEntry.zero (s.core core).tm.wt x.toNat).state with
        | .free => 0
        | .armed => 1
        | .fired => 2)).giveUp core)) ∧
    (64 ≤ x.toNat → exec (.wtdel d a) s = .next (i.trapAt s.cur .opnd 1 0)))

/-! ## Vector instructions (R169-R193) -/

/-- What each element-wise vector instruction computes (R173, R175-R181, R188-R191): n = min(vl, lanes div width) elements,
all read before any is written; with n = 0 it completes at once and only vl changes. The model's choices: the thread's posted
writes are all performed first (log entry 11), the effect stands at issue (log entry 16), and `vtanh` follows the steps of
R192 where they leave the bound of R193 (log entry 80). Reductions take the elements from the first on, one after the other;
shuffle and gather pick by the index elements; what they give for no elements is R185's (R185-R187). The model's readings in
it: log entries 10, 11, 16 and 50. -/
def Obligations.VectorResults : Prop :=
  (∀ (s : State) (d a b : BitVec 5) (n : Nat) (rm : BitVec 3) (ty sat : BitVec 2) (ft : BitVec 1), rm.toNat < 5 →
    let u := s.vecStart n
    let does := fun (i : Instr) (fs : List Field) (sts : List Strm) (size cost : Nat) (f : Nat → Word × BitVec 4) =>
      VecReady s fs sts (size / 4) n →
      (0 < n → exec i s = .next (vecEffect sts n size (size / 4) cost 0
        { elems := (List.range n).map fun k => (f k).1, result := 0
          flags := ((List.range n).map fun k => (f k).2).foldl (· ||| ·) 0 } (u.correctStream n sts))) ∧
      (n = 0 → exec i s = .next (finish ((s.issued false).clampVl 0) [] 0 0))
    let three := fun (i : Instr) (rdD : Bool) (z cost : Nat) (f : Word → Word → Word → Word × BitVec 4) =>
      let sts := [dstStrm d z rdD, srcStrm a z, srcStrm b z]
      does i [.file 0 d 7, .file 1 a 7, .file 2 b 7] sts z cost fun k =>
        f (if rdD then u.elem (dstStrm d z rdD) k else 0) (u.elem (srcStrm a z) k) (u.elem (srcStrm b z) k)
    let two := fun (i : Instr) (dz z cost : Nat) (f : Word → Word × BitVec 4) =>
      does i [.file 0 d 7, .file 1 a 7] [dstStrm d dz false, srcStrm a z] (max dz z) cost fun k => f (u.elem (srcStrm a z) k)
    let z := if ty = 0 then 8 else 4
    let F := fmtOf ty
    let V := fun (x : Word) => decodeF F (x.toNat % 2 ^ F.width)
    let m := modeOf rm s.me.vs
    let low := fun (x : Word) => ((x.setWidth 32).setWidth 64, (0 : BitVec 4))
    let num := fun (x : Word) => if ty = 2 then (x.setWidth 32).toInt else ((x.setWidth 32).toNat : Int)
    let mask := fun (c : Bool) => if c then (if ty = 0 then BitVec.allOnes 64 else 0xFFFF_FFFF) else (0 : Word)
    (ty.toNat < 2 →
      three (.vadd d a b rm ty) false z 1 (fun _ x y => fpReg (addV F m false (V x) (V y))) ∧
      three (.vsub d a b rm ty) false z 1 (fun _ x y => fpReg (addV F m false (V x) (V y).flip)) ∧
      three (.vmul d a b rm ty) false z 1 (fun _ x y => fpReg (mulV F m false (V x) (V y))) ∧
      three (.vmac d a b rm ty) true z 1 (fun w x y => fpReg (fmaV F m false (V x) (V y) (V w))) ∧
      three (.vmin d a b ty) false z 1 (fun _ x y => fpReg (minmaxV F false (fpBits F x) (fpBits F y))) ∧
      three (.vmax d a b ty) false z 1 (fun _ x y => fpReg (minmaxV F true (fpBits F x) (fpBits F y))) ∧
      three (.vceq d a b ty) false z 1 (fun _ x y => (mask (eqV (V x) (V y)).1, (eqV (V x) (V y)).2)) ∧
      three (.vclt d a b ty) false z 1 (fun _ x y => (mask (ltV (V x) (V y)).1, (ltV (V x) (V y)).2)) ∧
      three (.vcle d a b ty) false z 1 (fun _ x y => (mask (leV (V x) (V y)).1, (leV (V x) (V y)).2))) ∧
    (2 ≤ ty.toNat →
      three (.vadd d a b 0 ty) false 4 1 (fun _ x y => low (x + y)) ∧
      three (.vsub d a b 0 ty) false 4 1 (fun _ x y => low (x - y)) ∧
      three (.vmul d a b 0 ty) false 4 1 (fun _ x y => low (x * y)) ∧
      three (.vmac d a b 0 ty) true 4 1 (fun w x y => low (x * y + w)) ∧
      three (.vmin d a b ty) false 4 1 (fun _ x y => low (if num x ≤ num y then x else y)) ∧
      three (.vmax d a b ty) false 4 1 (fun _ x y => low (if num x ≤ num y then y else x)) ∧
      three (.vceq d a b ty) false 4 1 (fun _ x y => (mask (num x == num y), 0)) ∧
      three (.vclt d a b ty) false 4 1 (fun _ x y => (mask (decide (num x < num y)), 0)) ∧
      three (.vcle d a b ty) false 4 1 (fun _ x y => (mask (decide (num x ≤ num y)), 0))) ∧
    three (.vsel d a b ty) true z 1 (fun w x y => (if w ≠ 0 then x else y, 0)) ∧
    three (.vand d a b ft) false 4 1 (fun _ x y => (x &&& y, 0)) ∧
    three (.vor d a b ft) false 4 1 (fun _ x y => (x ||| y, 0)) ∧
    three (.vxor d a b ft) false 4 1 (fun _ x y => (x ^^^ y, 0)) ∧
    (ft.setWidth 2 = ty →
      three (.vdiv d a b rm ft) false z 4 (fun _ x y => fpReg (divV F m (V x) (V y))) ∧
      two (.vsqrt d a rm ft) z z 4 (fun x => fpReg (sqrtV F m (V x)))) ∧
    (∀ src : BitVec 2, src ≠ ty → (src.toNat < 2 ∨ ty.toNat < 2) →
      two (.vcvt d a src rm ty) z (if src = 0 then 8 else 4) 1 (fun x => vconvert src ty m x)) ∧
    (sat.toNat < 3 → ty.toNat < 3 → (ty.toNat < 2 ∨ sat = 0) →
      let P : Fmt := if ty = 0 then .e4m3 else if ty = 1 then .e5m2 else .bf16
      let m := modeOf 0 s.me.vs
      let st := decide (ty.toNat < 2) && (if sat = 0 then s.me.vs.getLsbD 4 else sat == 1)
      three (.vpadd d a b sat ty) false 4 1 (packLane P fun _ x y => addV P m st x y) ∧
      three (.vpsub d a b sat ty) false 4 1 (packLane P fun _ x y => addV P m st x y.flip) ∧
      three (.vpmul d a b sat ty) false 4 1 (packLane P fun _ x y => mulV P m st x y) ∧
      three (.vpmac d a b sat ty) true 4 1 (packLane P fun w x y => fmaV P m st x y w)) ∧
    two (.vexp2 d a) 4 4 8 (fun x => fpReg (exp2V (fpBits .f32 x))) ∧
    two (.vlog2 d a) 4 4 8 (fun x => fpReg (log2V (fpBits .f32 x))) ∧
    two (.vrcp d a) 4 4 8 (fun x => fpReg (rcpV (fpBits .f32 x))) ∧
    two (.vrsqrt d a) 4 4 8 (fun x => fpReg (rsqrtV (fpBits .f32 x))) ∧
    two (.vtanh d a) 4 4 8 (fun x => fpReg (tanhV (fpBits .f32 x)))) ∧
  (∀ (s : State) (d a b : BitVec 5) (n : Nat) (rm : BitVec 3) (ty : BitVec 2) (w : BitVec 1), rm.toNat < 5 →
    let u := s.vecStart n
    let z := if ty = 0 then 8 else 4
    let F := fmtOf ty
    let V := fun (x : Word) => decodeF F (x.toNat % 2 ^ F.width)
    let m := modeOf rm s.me.vs
    let reg := fun (x : Word) => if ty = 2 then (x.setWidth 32).signExtend 64 else x
    let reduces := fun (i : Instr) (none' : Word) (f : Word → Word → Word × BitVec 4) =>
      VecReady s [.dst 0 d, .file 1 a 7] [srcStrm a z] (z / 4) n →
      (n = 0 → exec i s = .next (finish ((s.issued false).clampVl 0) [] d (reg none'))) ∧
      (0 < n → exec i s = .next (
        let r := (List.range (n - 1)).foldl (fun (r : Word × BitVec 4) k =>
          let x := f r.1 (u.elem (srcStrm a z) (k + 1))
          (x.1, r.2 ||| x.2)) (u.elem (srcStrm a z) 0, 0)
        vecEffect [srcStrm a z] n z (z / 4) 0 d { elems := [], result := reg r.1, flags := r.2 }
          (u.correctStream n [srcStrm a z])))
    let low := fun (x : Word) => ((x.setWidth 32).setWidth 64, (0 : BitVec 4))
    let num := fun (x : Word) => if ty = 2 then (x.setWidth 32).toInt else ((x.setWidth 32).toNat : Int)
    (ty.toNat < 2 →
      reduces (.vredsum d a rm ty) 0 (fun x y => fpReg (addV F m false (V x) (V y))) ∧
      reduces (.vredmin d a ty) (if ty = 0 then 0x7FF0_0000_0000_0000 else 0x7F80_0000)
        (fun x y => fpReg (minmaxV F false (fpBits F x) (fpBits F y))) ∧
      reduces (.vredmax d a ty) (if ty = 0 then 0xFFF0_0000_0000_0000 else 0xFF80_0000)
        (fun x y => fpReg (minmaxV F true (fpBits F x) (fpBits F y)))) ∧
    (2 ≤ ty.toNat →
      reduces (.vredsum d a rm ty) 0 (fun x y => low (x + y)) ∧
      reduces (.vredmin d a ty) (if ty = 2 then 0x7FFF_FFFF else 0xFFFF_FFFF) (fun x y => low (if num x ≤ num y then x else y)) ∧
      reduces (.vredmax d a ty) (if ty = 2 then 0x8000_0000 else 0) (fun x y => low (if num x ≤ num y then y else x))) ∧
    (let z := if w = 1 then 8 else 4
     let fs : List Field := [.file 0 d 7, .file 1 a 7, .file 2 b 7]
     let win := [dstStrm d z false, srcStrm a z, srcStrm b 4]
     let far := [dstStrm d z false, srcStrm b 4, (⟨a.toNat, z, true, false, some b.toNat⟩ : Strm)]
     (VecReady s fs win (z / 4) n → 0 < n → exec (.vshuf d a b w) s = .next (vecEffect win n z (z / 4) 1 0
       { elems := (List.range n).map fun k =>
           if (u.elem (srcStrm b 4) k).toNat < n then u.elem (srcStrm a z) (u.elem (srcStrm b 4) k).toNat else 0
         result := 0, flags := 0 } (u.correctStream n win))) ∧
     (VecReady s fs far (z / 4) n → 0 < n → exec (.vgather d a b w) s = .next (vecEffect far n z (z / 4) 1 0
       { elems := (List.range n).map fun k => u.elem ⟨a.toNat, z, true, false, some b.toNat⟩ k, result := 0, flags := 0 }
       (u.correctStream n far)))))

/-- What a vector instruction's effect on n elements leaves: each element of the destination stream at its address, wherever
they do not overlap, and every other byte of the core's scratchpad, every other scratchpad and all physical memory as before;
an instruction that writes no stream leaves all scratchpads as they are; each pointer past n elements of the first of the
fields d, a, b that names it (the base of a `vgather` is no such field); the flags in vs; the destination register empty; pc
moved on; the thread waiting, and completing after T cycles, no fewer than 8; nothing else of the thread, the core or the
device (R30, R173, R175-R177, R185, R187). The case of a pointer named twice is the model's reading (log entry 51). The
model's readings in it: log entries 16 and 58. Element checks of every vector instruction, in ascending element, and within
an element in the order of its streams: a pointer that is not a multiple of the size traps ALIGN, an element past the
scratchpad SPAD, an uncorrectable error MEMERR; vl is clamped then, and nothing is written (R174, R175, R277, R354). That an
element which is read and written is recorded as a store is the model's choice (log entry 82), and so are MEMERR of an
element (log entry 53) and that the thread's writes are performed first (log entry 11). -/
def Obligations.VectorEffect : Prop :=
  (∀ (s : State) (sts : List Strm) (n size w cost : Nat) (d : BitVec 5) (out : VecOut),
    (∀ t ∈ slotsOf (coreOf s.cur), ∀ a g d srcs, (s.ctx t).wait ≠ .await a g d srcs) → d.toNat < 24 →
    let t := vecEffect sts n size w cost d out s
    let core := coreOf s.cur
    (∀ st, sts.filter (·.writes) = [st] → 0 < st.size → st.size ≤ 8 →
      (∀ k, (hk : k < out.elems.length) →
        (∀ j, j < out.elems.length → j ≠ k →
          s.elemAddr st j + st.size ≤ s.elemAddr st k ∨ s.elemAddr st k + st.size ≤ s.elemAddr st j) →
        t.spadRead core (s.elemAddr st k) st.size = toBytes st.size out.elems[k]) ∧
      (∀ a, (∀ k, k < out.elems.length → a < s.elemAddr st k ∨ s.elemAddr st k + st.size ≤ a) →
        t.spadRead core a 1 = s.spadRead core a 1)) ∧
    (sts.filter (·.writes) = [] → ∀ a m, t.spadRead core a m = s.spadRead core a m) ∧
    (∀ k a m, k ≠ core → t.spadRead k a m = s.spadRead k a m) ∧ t.mem = s.mem ∧
    { t with threads := s.threads, cores := s.cores, badSpad := s.badSpad, corrSpad := s.corrSpad } = s ∧
    (∀ k, k ≠ s.cur → t.ctx k = s.ctx k) ∧ (∀ k, k ≠ core → t.core k = s.core k) ∧
    { (t.core core).tm with spad := (s.core core).tm.spad } = (s.core core).tm ∧
    { t.me with p := s.me.p, vs := s.me.vs, gFull := s.me.gFull, pc := s.me.pc, l := s.me.l, status := s.me.status
                wait := s.me.wait, resumeAt := s.me.resumeAt } = s.me ∧
    t.me.vs = s.me.vs ||| out.flags.setWidth 32 ∧
    t.me.gFull = (if 0 < d.toNat ∧ d.toNat < 16 then vset s.me.gFull d.toNat false else s.me.gFull) ∧
    t.me.pc = s.me.advance.pc ∧ t.me.l = s.me.advance.l ∧ t.me.status = s.me.advance.status ∧
    8 ≤ s.vecTime sts n size w cost ∧
    t.me.resumeAt = (s.core core).cycle + s.vecTime sts n size w cost ∧ (t.me.resumeAt, s.cur) ∈ (t.core core).vecDue ∧
    t.me.wait = .vector (out.flags &&& s.me.vs.extractLsb' 5 4) (s.vecTime sts n size w cost) d out.result ∧
    (∀ j, j < 8 → vget 0 t.me.p j = match sts.find? (fun x => x.via.isNone && x.ptr == j) with
      | some x => setBits (vget 0 s.me.p j) 0
          (BitVec.ofNat 19 (((ptrAddr (vget 0 s.me.p j) : Int) + n * ptrStride (vget 0 s.me.p j) * x.size) % 2 ^ 19).toNat)
      | none => vget 0 s.me.p j)) ∧
  (∀ (s : State) (d a b : BitVec 5) (n : Nat) (rm : BitVec 3) (ty src sat pt : BitVec 2) (ft w : BitVec 1) (cls : TrapClass)
      (info ea : Word), rm.toNat < 5 → (2 ≤ ty.toNat → rm = 0) → src ≠ ty → (src.toNat < 2 ∨ ty.toNat < 2) →
    sat.toNat < 3 → pt.toNat < 3 → (pt.toNat < 2 ∨ sat = 0) →
    let size := fun (ty : BitVec 2) => if ty = 0 then 8 else 4
    let z := size ty
    let y := size (ft.setWidth 2)
    let x := if w = 1 then 8 else 4
    let three := fun (z : Nat) (rdD : Bool) (i : Instr) =>
      (i, ([.file 0 d 7, .file 1 a 7, .file 2 b 7] : List Field), [dstStrm d z rdD, srcStrm a z, srcStrm b z], z / 4)
    let two := fun (dz z : Nat) (i : Instr) =>
      (i, ([.file 0 d 7, .file 1 a 7] : List Field), [dstStrm d dz false, srcStrm a z], max dz z / 4)
    let forms : List (Instr × List Field × List Strm × Nat) :=
      ([.vadd d a b rm ty, .vsub d a b rm ty, .vmul d a b rm ty, .vmin d a b ty, .vmax d a b ty, .vceq d a b ty, .vclt d a b ty,
        .vcle d a b ty].map (three z false)) ++ ([.vmac d a b rm ty, .vsel d a b ty].map (three z true)) ++
      ([.vand d a b ft, .vor d a b ft, .vxor d a b ft, .vpadd d a b sat pt, .vpsub d a b sat pt, .vpmul d a b sat pt].map
        (three 4 false)) ++ [three 4 true (.vpmac d a b sat pt), three y false (.vdiv d a b rm ft), two y y (.vsqrt d a rm ft),
        two z (size src) (.vcvt d a src rm ty)] ++
      ([.vexp2 d a, .vlog2 d a, .vrcp d a, .vrsqrt d a, .vtanh d a].map (two 4 4)) ++
      ([.vredsum d a rm ty, .vredmin d a ty, .vredmax d a ty].map fun i => (i, [.dst 0 d, .file 1 a 7], [srcStrm a z], z / 4)) ++
      [(.vshuf d a b w, [.file 0 d 7, .file 1 a 7, .file 2 b 7], [dstStrm d x false, srcStrm a x, srcStrm b 4], x / 4),
       (.vgather d a b w, [.file 0 d 7, .file 1 a 7, .file 2 b 7],
        [dstStrm d x false, srcStrm b 4, ⟨a.toNat, x, true, false, some b.toNat⟩], x / 4)]
    let v := s.vecStart n
    (∀ f ∈ forms, MayIssue s 0 (f.2.1 ++ [.vl, .vs]) → n = min s.me.vl.toNat (s.me.grant / f.2.2.2) →
      (firstOf n f.2.2.1 v.badElem = some (cls, info, ea) →
        exec f.1 s = .next (((s.issued false).clampVl n).trapAt s.cur cls info ea)) ∧
      (firstOf n f.2.2.1 v.badElem = none → ∀ u, firstOf n f.2.2.1 v.badRead = some (u, info, ea) → exec f.1 s = .next
        ((((s.issued false).clampVl n).logError s.me.part (coreOf s.cur) u.1 u.2).trapAt s.cur .memerr info ea))) ∧
    (∀ (sts : List Strm) (g : Nat → Strm → Option (TrapClass × Word × Word)) (r : TrapClass × Word × Word),
      (firstOf n sts g = none ↔ ∀ k, k < n → ∀ st ∈ sts, g k st = none) ∧
      (firstOf n sts g = some r ↔ ∃ k ps st qs, k < n ∧ sts = ps ++ st :: qs ∧ g k st = some r ∧
        (∀ i, i < k → ∀ st ∈ sts, g i st = none) ∧ ∀ st ∈ ps, g k st = none)) ∧
    (∀ k st, v.badElem k st = none ↔
      ptrAddr (vget 0 v.me.p st.ptr) % st.size = 0 ∧ v.elemAddr st k + st.size ≤ 0x60000) ∧
    (∀ k st, ptrAddr (vget 0 v.me.p st.ptr) % st.size ≠ 0 →
      v.badElem k st = some (.align, BitVec.ofNat 64 ((if st.writes then 1 else 0) + 16 * st.ptr + 256 * k),
        BitVec.ofNat 64 (v.elemAddr st k))) ∧
    (∀ k st, ptrAddr (vget 0 v.me.p st.ptr) % st.size = 0 → 0x60000 < v.elemAddr st k + st.size →
      v.badElem k st = some (.spad, BitVec.ofNat 64 ((if st.writes then 1 else 0) + 16 * st.ptr + 256 * k),
        BitVec.ofNat 64 (v.elemAddr st k))) ∧
    (∀ k st, v.badRead k st = none ↔
      (st.reads = true → v.badUnit (.spad (coreOf s.cur) (v.elemAddr st k)) st.size = none)))

/-- Claims and state moves: `vlset` and `vsset` set vl and vs full, clamped and cut; `vlget`, `vsget`, `vgrant`, `pget` read;
`pset` writes 32 bits; `vclaim` in a free launch gives back the grant and takes what is open; in a deterministic one it takes
all that it wants, or parks with its want. A course's claims are those of parked threads and of swapped-in teams, each team's
at its lowest thread there, served from the lowest thread on while the whole want is free; what the lowest reserves is not
open (R31, R32, R170, R172, R183, R184). The model's readings in it: log entry 57. -/
def Obligations.VectorState : Prop :=
  ∀ (s : State) (d a : BitVec 5) (x : Word),
    let i := s.issued false
    (MayIssue s 0 [.dst 0 d, .src 1 a] → rd s a = .ok x →
      exec (.vlset d a) s = .next (finish (i.modMe fun c => { c with vl := BitVec.ofNat 32 (min x.toNat 256), vlFull := true })
        [a] d (BitVec.ofNat 64 (min x.toNat 256))) ∧
      (let want := min 256 ((x.toNat + 15) / 16 * 16)
       let k := courseOf s.cur
       let u := (i.modMe fun c => { c with grant := 0, want := want }).serveClaims k
       (stDet u.me.status = false → exec (.vclaim d a) s = .next (finish
         (u.modMe fun c => { c with grant := min want (u.openLanes k) }) [a] d (BitVec.ofNat 64 (min want (u.openLanes k))))) ∧
       (stDet u.me.status = true →
         ((want = 0 ∨ (want ≤ u.freeLanes k ∧ ∀ c, u.firstClaim k = some c → u.cur < c.1) →
           exec (.vclaim d a) s = .next (finish (u.modMe fun c => { c with grant := want }) [a] d (BitVec.ofNat 64 want))) ∧
          (0 < want → (u.freeLanes k < want ∨ ∃ c, u.firstClaim k = some c ∧ c.1 ≤ u.cur) →
           exec (.vclaim d a) s = .next (u.modMe fun c => { c with claimParked := true, wait := .claim d a })))))) ∧
    (MayIssue s 0 [.dst 0 d] → exec (.vgrant d) s = .next (finish i [] d (BitVec.ofNat 64 s.me.grant))) ∧
    (MayIssue s 0 [.dst 0 d, .vl] → exec (.vlget d) s = .next (finish i [] d (s.me.vl.setWidth 64))) ∧
    (MayIssue s 0 [.dst 0 d, .vs] → exec (.vsget d) s = .next (finish i [] d (s.me.vs.setWidth 64))) ∧
    (MayIssue s 0 [.src 1 a] → rd s a = .ok x → exec (.vsset a) s = .next (finishNo
      (i.modMe fun c => { c with vs := BitVec.ofNat 32 (x.toNat % 2 ^ 11), vsFull := true }) [a])) ∧
    (MayIssue s 0 [.file 0 d 7, .src 1 a] → rd s a = .ok x → exec (.pset d a) s = .next (finishNo
      (i.modMe fun c => { c with p := vset c.p d.toNat (x.setWidth 32) }) [a])) ∧
    (MayIssue s 0 [.dst 0 d, .file 1 a 7] → exec (.pget d a) s = .next (finish i [] d ((vget 0 s.me.p a.toNat).setWidth 64))) ∧
    (∀ thr f cyc r v, (s.ctx thr).wait = .vector f cyc r v → exec (.vectorCompletion thr) s =
      .next (((s.reply thr r v).modCtx thr fun c => { c with wait := .ready }).fpeTrap thr f)) ∧
    (∀ course, exec (.parkedClaimGrant course) s = .next (s.serveClaims course)) ∧
    (∀ (u : State) (k : Nat),
      let team := fun (t : Nat) => (u.core (coreOf t)).teamClaim = true ∧
        ((slotsOf (coreOf t)).find? fun j => (u.core (coreOf t)).owns (u.ctx j)).getD (16 * coreOf t) = t
      let asks := fun (t w : Nat) => (team t ∧ w = u.teamWant (coreOf t)) ∨
        (¬ team t ∧ (u.ctx t).claimParked = true ∧ w = (u.ctx t).want)
      (∀ t w, u.firstClaim k = some (t, w) ↔ ∃ ps qs, threadsOf k = ps ++ t :: qs ∧ asks t w ∧ ∀ j ∈ ps, ∀ v, ¬ asks j v) ∧
      u.openLanes k = u.freeLanes k - ((u.firstClaim k).map Prod.snd).getD 0 ∧
      u.serveClaims k = (List.range 128).foldl (fun v _ => v.serveClaim k) u ∧
      (u.firstClaim k = none → u.serveClaim k = u) ∧
      (∀ t w, u.firstClaim k = some (t, w) →
        (u.freeLanes k < w → u.serveClaim k = u) ∧
        (w ≤ u.freeLanes k → ¬ team t → ∀ r x, (u.ctx t).wait = .claim r x → u.serveClaim k =
          (((u.modCtx t fun c => { c with grant := w, claimParked := false }).consumeLate t [x]).destLate t r (BitVec.ofNat 64 w)).resume t) ∧
        (w ≤ u.freeLanes k → team t →
          let all := fun (c : Ctx) => if (u.core (coreOf t)).owns c then { c with grant := c.want } else c
          u.serveClaim k = ((slotsOf (coreOf t)).foldl (fun v j => v.modCtx j all) u).modCore (coreOf t) fun m => { m with
            teamClaim := false
            tm := { m.tm with loans := m.tm.loans.map fun c => (c.1, all c.2) }
            arrivals := m.arrivals.map fun a => ⟨all a.ctx, all a.loan⟩ })))

/-! ## Tile slots and conversion (R194-R210) -/

/-- Handles and slots: `tclaim` binds a free handle to the lowest free slot of the course, clean, unshaped; an owed slot only
where none is free, saved first; it parks where all are bound, and traps TILE on a bound handle. `trelease` frees the slot;
`tshape` writes [47:0] of a shape that meets R201, or traps OPND; `tinfo` reads the shape with dy, ow, bd, and 0 for an
unbound handle. The other instructions on a slot trap TILE for an unbound handle, park while an engine uses the slot, and,
where they need a shape, trap TILE for a slot without one, before they read a source (R42, R198-R205). The model's choices:
the place of a source's traps (log entry 56); that a row's record names the index in reading order, and what else log entry
17 says of records. `tld` and `tsave` on a bound, shaped slot that no engine uses: after the checks of the bytes' places, and
of every ashlar's bytes for `tld`, the slot takes the payload and the scales and is dirty, or its ashlars are written and it
is clean; the thread waits for the last byte. An ashlar that fails traps its class with its index; an uncorrectable error in
a word of the slot that `tsave` reads is logged and traps MEMERR (R198, R203, R204, R354, R355). The model's choices: where
MEMERR stands (log entry 53), that all posted writes are performed first (log entry 11), the index in a record (log entry
17), ALIGN before ADDR (log entry 83). Row and column moves of a raw slot: an index past the slot traps SHAPE, an ashlar
format FMT; element j of the stream and element j of the row or column are one value; a write makes the slot dirty; the
pointer advances; an uncorrectable error in a word that is read is logged and traps MEMERR, where log entry 53 says (R205,
R354, R355); all posted writes are performed first, and a record names the index (log entries 11, 17). -/
def Obligations.Tiles : Prop :=
  (∀ (s : State) (t d : BitVec 5) (e : BitVec 3) (k : Nat),
    let i := s.issued false
    let course := courseOf s.cur
    let hnd := vget none s.me.t t.toNat
    (MayIssue s 0 [] →
      (hnd ≠ none → exec (.tclaim t) s = .next (i.trapAt s.cur .tile (t.setWidth 64) 0)) ∧
      (hnd = none → k < 128 → (s.slot course k).bd = false → (s.slot course k).ow = false →
        (∀ j, j < k → (s.slot course j).bd = true ∨ (s.slot course j).ow = true) →
        exec (.tclaim t) s = .next (finishNo
          (((i.modTeam s.me.ident.launch s.me.ident.team fun m =>
              { m with slots := m.slots.filter fun r => !r.isFor s.me.ident.thr t }).modSlot course k fun x =>
            { x with bd := true, ow := false, dy := false, shape := 0, holder := s.me.ident, handle := t, onReturn := 0 }).modMe
              fun c => { c with t := vset c.t t.toNat (some (BitVec.ofNat 7 k)) }) [])) ∧
      (hnd = none → k < 128 → (s.slot course k).ow = true → (∀ j, j < 128 → (s.slot course j).bd = true ∨ (s.slot course j).ow = true) →
        (∀ j, j < k → (s.slot course j).ow = false) →
        exec (.tclaim t) s = .next (finishNo
          ((((i.modTeam s.me.ident.launch s.me.ident.team fun m =>
              { m with slots := m.slots.filter fun r => !r.isFor s.me.ident.thr t }).saveSlot course k).modSlot course k fun x =>
            { x with bd := true, ow := false, dy := false, shape := 0, holder := s.me.ident, handle := t, onReturn := 0 }).modMe
              fun c => { c with t := vset c.t t.toNat (some (BitVec.ofNat 7 k)) }) [])) ∧
      (hnd = none → (∀ j, j < 128 → (s.slot course j).bd = true ∧ (s.slot course j).ow = false) →
        exec (.tclaim t) s = .next (i.modMe fun c => { c with wait := .cond (.slotsBound course) })) ∧
      (hnd = some (BitVec.ofNat 7 k) → k < 128 →
        ((s.slot course k).uses ≠ 0 →
          exec (.trelease t) s = .next (i.modMe fun c => { c with wait := .cond (.slotBusy course k) })) ∧
        ((s.slot course k).uses = 0 → exec (.trelease t) s = .next (finishNo
          ((i.modSlot course k fun x => { x with bd := false, dy := false }).modMe fun c =>
            { c with t := vset c.t t.toNat none }) []))) ∧
      (hnd = none → exec (.trelease t) s = .next (i.trapAt s.cur .tile (t.setWidth 64) 0))) ∧
    (MayIssue s 0 [.ext e.toNat 1] → hnd = some (BitVec.ofNat 7 k) → k < 128 → (s.slot course k).uses = 0 →
      let v := vget 0 s.me.e e.toNat
      (shapeOk v = true → exec (.tshape t e) s =
        .next (finishNo (i.modSlot course k fun x => { x with shape := v.setWidth 48 }) [])) ∧
      (shapeOk v = false → exec (.tshape t e) s = .next (i.trapAt s.cur .opnd (BitVec.ofNat 64 (3 + 256 * e.toNat)) 0))) ∧
    (∀ v : Word, let (r, c, f) := (v.toNat % 2 ^ 9, v.toNat / 2 ^ 9 % 2 ^ 9, v.toNat / 2 ^ 18 % 2 ^ 4)
      let tag := v.toNat / 2 ^ 22 % 2 ^ 8
      let half := match f with
        | 1 => 1
        | 2 => 2
        | 3 => 2
        | 4 => 2
        | 5 => 4
        | 6 => 8
        | _ => 16
      shapeOk v = true ↔ v.toNat / 2 ^ 48 = 0 ∧ v.toNat / 2 ^ 30 % 4 = 0 ∧ tag % 2 ^ 4 = 0 ∧ tag / 2 ^ 4 % 4 < 2 ∧
        (2 ^ 7 ≤ tag ∨ (tag = 0 ∧ v.toNat / 2 ^ 32 % 2 ^ 16 = 0)) ∧ 0 < f ∧ f < 8 ∧ r ≤ 256 ∧ c ≤ 256 ∧ (r = 0 ∨ c ≠ 0) ∧
        (f = 1 → c % 2 = 0) ∧ r * c * half ≤ 2 ^ 15) ∧
    (let bound := fun (f : Instr) =>
       (hnd = none → exec f s = .next (i.trapAt s.cur .tile (t.setWidth 64) 0)) ∧
       (hnd = some (BitVec.ofNat 7 k) → k < 128 → (s.slot course k).uses ≠ 0 →
         exec f s = .next (i.modMe fun c => { c with wait := .cond (.slotBusy course k) }))
     let shaped := fun (f : Instr) => bound f ∧
       (hnd = some (BitVec.ofNat 7 k) → k < 128 → (s.slot course k).uses = 0 → (s.slot course k).shape.toNat % 2 ^ 9 = 0 →
         exec f s = .next (i.trapAt s.cur .tile (t.setWidth 64) 0))
     (MayIssue s 0 [.ext e.toNat 1] → bound (.tshape t e)) ∧
     (∀ a b, MayIssue s 0 [.src 1 a, .src 2 b] → shaped (.tld t a b) ∧ shaped (.tsave t a b)) ∧
     (∀ a p, MayIssue s 0 [.src 1 a, .file 2 p 7] →
       shaped (.trowld t a p) ∧ shaped (.trowst t a p) ∧ shaped (.tcolld t a p) ∧ shaped (.tcolst t a p))) ∧
    (MayIssue s 0 [.dst 0 d] →
      (hnd = none → exec (.tinfo d t) s = .next (finish i [] d 0)) ∧
      (hnd = some (BitVec.ofNat 7 k) → k < 128 →
        let x := s.slot course k
        ∃ v : Word, exec (.tinfo d t) s = .next (finish i [] d v) ∧ v.setWidth 48 = x.shape ∧ v.getLsbD 48 = x.dy ∧
          v.getLsbD 49 = x.ow ∧ v.getLsbD 50 = x.bd ∧ v.extractLsb' 51 13 = 0))) ∧
  (∀ (s s1 : State) (t a b : BitVec 5) (x y : Word) (k : Nat) (ps : List Piece) (ls : List Loc), MayIssue s 0 [.src 1 a, .src 2 b] →
    rd s a = .ok x → rd s b = .ok y →
    let i := s.issued false
    let course := courseOf s.cur
    let z := s.slot course k
    let n := pieceBytes z.shape
    vget none s.me.t t.toNat = some (BitVec.ofNat 7 k) → k < 128 → z.uses = 0 → 0 < shRows z.shape →
    let bs := ls.map fun l => s1.read l n
    let bad := match slotElem (shFmt z.shape) with
      | some el => firstBad (ashlarBad el z.shape) ((ps.map Piece.addr).zip bs)
      | none => none
    (tilePieces z.shape t x y .load = .ok ps →
      State.blocks (pieceAlign z.shape) n .load (ps.map Piece.addr) (i.performAll s.cur) = .ok (ls, s1) →
      (bad = none → exec (.tld t a b) s = .next
        (((s1.modSlot course k fun w => (fillSlot w (ps.zip bs)).mended).consume s.cur [a, b]).finishing s.cur 0)) ∧
      (∀ j ea cls, bad = some (j, ea, cls) → exec (.tld t a b) s = .next (i.trapAt s.cur cls (tileInfo t j) ea))) ∧
    (tilePieces z.shape t x y .store = .ok ps →
      State.blocks (pieceAlign z.shape) n .store (ps.map Piece.addr) (i.performAll s.cur) = .ok (ls, s1) →
      let worn := z.badWord 0 (payloadLen z.shape) (sideLen z.shape)
      (worn = none → exec (.tsave t a b) s = .next (((((s1.correctSlot s.me.part course k 0 (payloadLen z.shape)
          (sideLen z.shape)).putPieces (ls.zip (ps.map fun p => match slotElem (shFmt z.shape) with
          | some el => saveAshlar el z p
          | none => Mem.read z.payload p.off n))).modSlot course k fun w => { w with dy := false }).consume s.cur
            [a, b]).finishing s.cur 0)) ∧
      (∀ w, worn = some w → let at_ := Config.operandAddr (128 * course + k) w
        exec (.tsave t a b) s = .next ((i.logError s.me.part (coreOf s.cur) 3 at_.toNat).trapAt s.cur .memerr 0 (zext at_))))) ∧
  (∀ (s : State) (t a p : BitVec 5) (x : Word) (k : Nat), MayIssue s 0 [.src 1 a, .file 2 p 7] → rd s a = .ok x →
    let i := s.issued false
    let course := courseOf s.cur
    let core := coreOf s.cur
    let z := s.slot course k
    let (rows, cols) := (shRows z.shape, shCols z.shape)
    let u := i.performAll s.cur
    vget none s.me.t t.toNat = some (BitVec.ofNat 7 k) → k < 128 → z.uses = 0 → 0 < rows →
    ∀ f ∈ [(Instr.trowld t a p, true, true), (.trowst t a p, true, false), (.tcolld t a p, false, true), (.tcolst t a p, false, false)],
      let (row, put) := f.2
      let w := halfBytes (shFmt z.shape) / 2
      let n := if row then cols else rows
      let st : Strm := ⟨p.toNat, w, put, !put, none⟩
      let off := fun j => (if row then x.toNat * cols + j else j * cols + x.toNat) * w
      ((if row then rows else cols) ≤ x.toNat → exec f.1 s = .next (i.trapAt s.cur .shape (tileInfo t x.toNat) 0)) ∧
      (x.toNat < (if row then rows else cols) → shFmt z.shape < 5 →
        exec f.1 s = .next (i.trapAt s.cur .fmt (tileInfo t 0) 0)) ∧
      (x.toNat < (if row then rows else cols) → 5 ≤ shFmt z.shape → firstOf n [st] u.badElem = none →
        firstOf n [st] u.badRead = none →
        let worn := if put then none else (List.range n).findSome? fun j => (u.slot course k).badWord (off j) w 0
        let kept := fun (e : Nat) => !(w = 8 && (List.range n).any fun j => off j == 8 * e)
        let v := if put then (u.correctStream n [st]).modSlot course k fun m =>
            { m with dy := true, bad := m.bad.filter kept, corr := m.corr.filter kept
                     payload := (List.range n).foldl (fun pl j =>
                Mem.write pl (off j) (u.spadRead core (u.elemAddr st j) w)) m.payload }
          else (List.range n).foldl (fun v j => v.spadWrite core (u.elemAddr st j) (Mem.read (u.slot course k).payload (off j) w))
            ((List.range n).foldl (fun v j => v.correctSlot s.me.part course k (off j) w 0) u)
        (worn = none → exec f.1 s = .next (((v.consume s.cur [a]).modMe fun c =>
          { c with p := advancePtrs n [st] c.p, resumeAt := (i.core core).cycle + 8 + (n * w + 63) / 64 }).finishing s.cur 0)) ∧
        (∀ e, worn = some e → let at_ := Config.operandAddr (128 * course + k) e
          exec f.1 s = .next ((i.logError s.me.part core 3 at_.toNat).trapAt s.cur .memerr 0 (zext at_)))))

/-- `cvq` and `cvd`: n = vl elements, a multiple of the ashlar's; with n = 0 only the address is read; `cvq` writes the
ashlars of the quantised blocks, `cvd` checks the ashlars and writes their values to the stream; flags reach vs, an enabled
one traps at the end, and the pointer advances (R207-R210). The thread's posted writes are all performed first, the model's
choice (log entry 11). -/
def Obligations.Conversions : Prop :=
  ∀ (s s2 : State) (g p : BitVec 5) (sat fmt : BitVec 2) (rnd wide : BitVec 1) (e : BitVec 3) (a : Word) (ls : List Loc),
    rd s g = .ok a → sat.toNat < 3 →
    let i := s.issued false
    let x := vget 0 s.me.e e.toNat
    let el := Elem.ofField fmt
    let F := if wide = 0 then Fmt.f32 else Fmt.bf16
    let n := s.me.vl.toNat
    let addrs := (List.range (n / el.perAshlar)).map fun q => BitVec.ofNat 64 (stepSector a.toNat q)
    let sd := vget 0 s.me.sd (x.toNat / 256 % 4)
    let k0 := x.toNat / 65536 % 2 ^ 32
    let u := i.performAll s.cur
    cvExtOk x = true → n % el.perAshlar = 0 →
    (MayIssue s 0 [.src 0 g, .file 1 p 7, .ext e.toNat 1, .vl, .vs] →
      (n = 0 → exec (.cvq g p sat rnd e wide fmt) s = .next (finishNo i [g])) ∧
      (0 < n → fullSector a.toNat = true →
        let st := srcStrm p (F.width / 8)
        firstOf n [st] u.badElem = none → State.blocks 16 48 .store addrs u = .ok (ls, s2) → firstOf n [st] u.badRead = none →
        let xs := (u.column n st).map fun w => decodeF F (w.toNat % 2 ^ F.width)
        let rs := ((addrs.zip (chunksOf el.perAshlar addrs.length xs)).zipIdx).map fun q =>
          quantAshlar el (x.setWidth 8) sd s.me.rk (rnd == 1) (if sat = 0 then s.me.vs.getLsbD 4 else sat == 1) q.1.1
            (k0 + q.2 * el.perAshlar) q.1.2
        let fl := (rs.map Prod.snd).foldl (· ||| ·) 0
        exec (.cvq g p sat rnd e wide fmt) s = .next
          (((((s2.correctStream n [st]).putPieces (ls.zip (rs.map Prod.fst))).consume s.cur [g]).modMe fun c =>
            { c.raise fl with p := advancePtrs n [st] c.p }).finishing s.cur (s.me.fpe fl)))) ∧
    (MayIssue s 0 [.file 0 p 7, .src 1 g, .ext e.toNat 1, .vl, .vs] →
      (n = 0 → exec (.cvd p g e wide fmt) s = .next (finishNo i [g])) ∧
      (0 < n → fullSector a.toNat = true →
        let st := dstStrm p (F.width / 8) false
        State.blocks 16 48 .load addrs u = .ok (ls, s2) →
        let bs := ls.map fun l => s2.read l 48
        firstBad (cvdBad el (x.setWidth 8) sd) (addrs.zip bs) = none → firstOf n [st] s2.badElem = none →
        let rs := (bs.zipIdx).flatMap fun q => decodeAshlar el F sd (k0 + q.2 * el.perAshlar) q.1
        let fl := (rs.map Prod.snd).foldl (· ||| ·) 0
        let v := (rs.zipIdx).foldl (fun v r => v.spadWrite (coreOf v.cur) (s2.elemAddr st r.2)
            (toBytes (F.width / 8) (BitVec.ofNat 64 r.1.1))) s2
        exec (.cvd p g e wide fmt) s = .next (((v.consume s.cur [g]).modMe fun c =>
            { c.raise fl with p := advancePtrs n [st] c.p }).finishing s.cur (s.me.fpe fl))))

/-! ## Matrix products (R211-R219) -/

/-- Every `mma` form: after the checks of e0, of the pairs' bits and of the handles, each slot named is in use, and the
thread takes a token of the course: its handle goes to d in the detached form, and the attached form waits. A set reserved
bit traps OPND with the register, an unbound handle TILE with its pair, no chunk in a deterministic launch ORDER (R211-R214,
R221). The model's readings in it: log entry 17. The matrix engine's events: a pair that fails R214 faults the token with its
class, with no effect, and an uncorrectable error in an operand that it reads faults it with MEMERR (log entry 53); otherwise
errors of one bit are corrected, the slots return, the region's granules are translated or the token faults with the class,
and the partial goes to the mortar: without a chunk it merges at once and the token is done; with one it is admitted, refused
or faulted by R218: MERGE for another count, a chunk that has arrived, or a broken record; refused at 16 chunks or more from
the next, or where the spill area is full (R353); a record merges the chunk that it awaits, in order. With no token, or with
nothing refused or awaited, the events do nothing; a merge waits while a flit of it would wait at a link (R214-R219, R355,
R393). The model's readings in it: log entries 47, 59, 60 and 81. -/
def Obligations.Matrix : Prop :=
  (∀ (s : State) (tok a ta tb : BitVec 5) (mode : BitVec 1) (acc : Word), (mode = 1 ∨ tok = 0) →
    let e0 := vget 0 s.me.e 0
    let e := fun k => vget 0 s.me.e k
    let i := s.issued false
    let n := e0.toNat % 16 + 1
    let span := 1 + (n + 2) / 4
    MayIssue s 0 ((if mode = 1 then [.dst 0 tok] else []) ++ [.src 1 a, .ext 0 span, .token]) → rd s a = .ok acc →
    ∀ f ∈ [(Instr.mmaE2m1 tok a ta tb mode, MmaForm.e2m1), (.mmaE4m3 tok a ta tb mode, .e4m3), (.mmaE5m2 tok a ta tb mode, .e5m2),
        (.mmaE4m3e5m2 tok a ta tb mode, .e4m3e5m2), (.mmaI8 tok a ta tb mode, .i8), (.mmaBf16 tok a ta tb mode, .bf16),
        (.mmaF32 tok a ta tb mode, .f32), (.mmaF64 tok a ta tb mode, .f64)],
      (mmaE0Ok e0 = false → exec f.1 s = .next (i.trapAt s.cur .opnd 3 0)) ∧
      (mmaE0Ok e0 = true ↔ e0.toNat / 2 ^ 8 % 2 ^ 8 = 0 ∧ e0.toNat / 2 ^ 48 = 0 ∧
        (let (chunk, count) := (e0.toNat / 2 ^ 16 % 2 ^ 16, e0.toNat / 2 ^ 32 % 2 ^ 16)
         if e0.getLsbD 4 then count ≠ 0 ∧ chunk < count else chunk = 0 ∧ count = 0)) ∧
      (∀ k, mmaPairOk e n (k + 1) = true ↔ (let w := (e (1 + k / 4)).toNat / 2 ^ (16 * (k % 4)) % 2 ^ 16
        if k + 1 < n then w < 2 ^ 10 else w = 0)) ∧
      (mmaE0Ok e0 = true → ∀ k, k < 4 * (span - 1) → mmaPairOk e n (k + 1) = false → (∀ j, j < k → mmaPairOk e n (j + 1) = true) →
        exec f.1 s = .next (i.trapAt s.cur .opnd (BitVec.ofNat 64 (3 + 256 * (1 + k / 4))) 0)) ∧
      (mmaE0Ok e0 = true → (∀ k, k < 4 * (span - 1) → mmaPairOk e n (k + 1) = true) →
        (∀ st, mmaSlots i.me 0 (mmaHandles e n ta tb) = .error (.trap .tile st 0) →
          exec f.1 s = .next (i.trapAt s.cur .tile st 0)) ∧
        (∀ ps, mmaSlots i.me 0 (mmaHandles e n ta tb) = .ok ps →
          (stDet s.me.status = true → e0.getLsbD 4 = false → exec f.1 s = .next (i.trapAt s.cur .order 0 0)) ∧
          ((stDet s.me.status = false ∨ e0.getLsbD 4 = true) → exec f.1 s = .next
            (((pairSlots ps).foldl (fun u k => u.modSlot (courseOf u.cur) k fun t => { t with uses := t.uses + 1 }) i).takeToken
              (.mma f.2 acc ps (if e0.getLsbD 4 then some (e0.extractLsb' 16 16, e0.extractLsb' 32 16) else none) (e0.getLsbD 5))
              (e0.extractLsb' 6 2 ^^^ 1) false (mode == 1) tok [a]))))) ∧
  (∀ (s : State) (course key : Nat),
    ((s.course course).matrix = none → exec (.mmaPartialReady course) s = .next s) ∧
    (∀ h form acc pairs chunk skip, (s.course course).matrix = some h → (s.token h).state = .running →
      (s.course course).refused = none → (s.token h).op = .mma form acc pairs chunk skip → pairs ≠ [] →
      let slots := pairs.map fun p => (s.slot course p.a.toNat, s.slot course p.b.toNat)
      ∀ x xs, slots = x :: xs →
      let m := shRows x.1.shape
      let n := shRows x.2.shape
      let bad := ((pairs.zip slots).zipIdx).findSome? fun y => pairBad form skip m n y.1.1 y.1.2.1.shape y.1.2.2.shape y.2
      let worn := pairs.findSome? fun p => [p.a.toNat, p.b.toNat].findSome? fun k => ((s.slot course k).badWord 0
        (payloadLen (s.slot course k).shape) (sideLen (s.slot course k).shape)).map fun w =>
          Config.operandAddr (128 * course + k) w
      (∀ f, bad = some f → exec (.mmaPartialReady course) s = .next (s.endToken h .faulted 0 f)) ∧
      (∀ e, bad = none → worn = some e → exec (.mmaPartialReady course) s =
        .next ((s.noteError h (3, e.toNat)).endToken h .faulted 0 (tokRecord .memerr (zext e)))) ∧
      let v := ((pairSlots pairs).foldl (fun v k => v.correctSlot (s.token h).part.toNat course k 0
        (payloadLen (v.slot course k).shape) (sideLen (v.slot course k).shape)) s).returnSlots h
      (bad = none → worn = none → ∀ cls va e, v.region h acc form.wide m n = .error (cls, va, e) →
        exec (.mmaPartialReady course) s = .next ((match e with
          | some e => (v.engSought h cls va (some e)).noteError h e
          | none => (v.engSought h cls va none).noteFault h cls va).endToken h .faulted 0 (tokRecord cls va)) ∧
        (v.engSought h cls va e).mem = v.mem ∧ (v.engSought h cls va e).threads = v.threads) ∧
      (bad = none → worn = none → ∀ g u, v.region h acc form.wide m n = .ok (g, u) →
        let outs := (List.range m).map fun i => (List.range n).map fun j => mmaOutput form slots i j
        let p : Partial := { tok := h, acc := acc, grans := g, wide := form.wide
                             rows := outs.map fun r => r.map fun v => BitVec.ofNat 64 v.1
                             inf := outs.any fun r => r.any fun v => v.2 }
        (chunk = none → exec (.mmaPartialReady course) s =
          .next (if u.mergeWaits p then s.post (.mmaReady course) else (u.freeEngine h).mergeDone p)) ∧
        (∀ c k, chunk = some (c, k) → exec (.mmaPartialReady course) s = .next (u.admitPartial p c.toNat k.toNat)))) ∧
    (∀ (p : Partial) (c n : Nat),
      let t := s.token p.tok
      let key := t.seqKey p.acc
      let part := t.part.toNat
      let r := if (s.seqRec key).count = 0 then { SeqRec.zero with count := n, part := part } else s.seqRec key
      let merge : Word := BitVec.ofNat 64 (29 + c * 256)
      let noRoom := (s.part part).spillSize < s.spillUsed part + if p.wide then 131072 else 65536
      ((r.count ≠ n ∨ c ∈ r.seen) → s.admitPartial p c n = (s.freeEngine p.tok).finishToken p.tok .faulted 0 merge) ∧
      (r.count = n → c ∉ r.seen → r.broken = true → s.admitPartial p c n =
        (((s.setSeq key { r with seen := c :: r.seen, closed := c :: r.closed }).freeEngine p.tok).finishToken p.tok .faulted 0
          merge).closeSeq key) ∧
      (r.count = n → c ∉ r.seen → r.broken = false → (r.next + 16 ≤ c ∨ (c ≠ r.next ∧ noRoom)) → s.admitPartial p c n =
        (s.setSeq key r).modCourse (hCourse p.tok) fun k => { k with refused := some p }) ∧
      (r.count = n → c ∉ r.seen → r.broken = false → c < r.next + 16 → (c = r.next ∨ ¬ noRoom) → s.admitPartial p c n =
        ((s.setSeq key { r with seen := c :: r.seen, waiting := r.waiting ++ [(c, p)] }).freeEngine p.tok).post (.mortarMerge key))) ∧
    ((s.course course).refused = none → exec (.partialRetry course) s = .next s) ∧
    (∀ p f acc ps c k sk, (s.course course).refused = some p → (s.token p.tok).op = .mma f acc ps (some (c, k)) sk →
      exec (.partialRetry course) s =
        .next ((s.modCourse course fun x => { x with refused := none }).admitPartial p c.toNat k.toNat)) ∧
    (let r := s.seqRec key
     ((r.waiting.find? fun w => w.1 == r.next) = none → exec (.mortarMerge key) s = .next s) ∧
     (∀ c p, (r.waiting.find? fun w => w.1 == r.next) = some (c, p) → exec (.mortarMerge key) s = .next
       (if s.mergeWaits p then s.post (.mortarMerge key) else
        (((s.setSeq key { r with next := r.next + 1, waiting := r.waiting.filter fun w => w.1 != c
                                 closed := c :: r.closed }).mergeDone p).closeSeq key).retryRefused.post (.mortarMerge key)))) ∧
    (∀ p : Partial, s.mergeWaits p = true ↔ ∃ i j row, p.rows[i]? = some row ∧ j < row.length ∧
      let va := accAddr p.acc p.wide i j
      s.linksWait (hCourse p.tok / 20) (dieOfCore (s.engVia p.tok p.grans va).home) (vertOf (Grans.place p.grans va)) = true))

/-- What taking a token does: what precedes the issue of the thread's writes is performed, but for a copy, whose order is its
own; the lowest free entry of the course is queued for its engines, owned by the thread; the detached form completes with the
handle, course, index and generation in d, and the attached form waits on it (R43, R44, R221, R297, R307). Ending a token
that is not live changes nothing; a permit given back frees one of its die, and changes no other die, no thread and no memory
byte (R221, R369). The events of tokens: an engine cancels what a failed predecessor forbids, and otherwise starts its choice
of R223, which waits for a permit where R48 asks for one; the die grants a permit to the best request whose partition has not
its share, while permits are free; a pending message is delivered when the mailbox has room (R48, R221-R225, R369). The
model's readings in it: log entries 25, 26 and 69. -/
def Obligations.TokenLife : Prop :=
  (∀ (s : State) (op : TokOp) (prio : BitVec 2) (bar det : Bool) (d : BitVec 5) (srcs : List (BitVec 5)) (k : Nat),
    let v := match op with
      | .copy _ => s
      | _ => s.performCausal s.cur
    op.vaultDie = none → v.freeToken (courseOf s.cur) = some k → k < 256 → courseOf s.cur < 160 →
    let h : BitVec 32 := BitVec.ofNat 32 (courseOf s.cur * 2 ^ 24 + k * 2 ^ 16 +
      (Tbl.get Token.zero (v.course (courseOf s.cur)).tokens k).gen.toNat)
    ∃ u : State, s.takeToken op prio bar det d srcs =
        (if det then finish u srcs d (h.setWidth 64) else u.modMe fun c => { c with wait := .attached h srcs }) ∧
      (∀ j, j < k → (Tbl.get Token.zero (v.course (courseOf s.cur)).tokens j).state ≠ .free) ∧
      u.threads = v.threads ∧ u.mem = v.mem ∧
      (u.token h).state = .queued ∧ (u.token h).op = op ∧ (u.token h).owner = BitVec.ofNat 15 s.cur ∧
      (u.token h).prio = prio ∧ (u.token h).att = !det ∧ (u.token h).pred = 0 ∧
      u.agenda = v.agenda ++ (op.engines (courseOf s.cur)).map .tokenSelect) ∧
  (∀ (s : State) (h : BitVec 32) (st : TokState) (fin : BitVec 16) (fault : Word),
    ((s.token h).state.live = false → s.finishToken h st fin fault = s) ∧
    (∀ d, (s.token h).permit = some d → (s.die d).held ≠ 0 → 
      let u := s.dropPermit h
      (u.die d).held = (s.die d).held - 1 ∧ (u.token h).permit = none ∧ u.threads = s.threads ∧ u.mem = s.mem ∧
      (∀ k, k ≠ d → (u.die k).held = (s.die k).held))) ∧
  (∀ (s : State) (eng : Engine) (die core : Nat),
    let failed := (s.engineTokens eng).find? fun t => t.2.state == .queued && s.predecessor t.2 == some false
    (∀ h t, failed = some (h, t) → exec (.tokenSelect eng) s =
      .next ((s.endToken h .cancelled 0 (t.pred.setWidth 64 <<< 16)).post (.tokenSelect eng))) ∧
    (failed = none → s.choice eng = none → exec (.tokenSelect eng) s = .next s) ∧
    (failed = none → ∀ h, s.choice eng = some h →
      let es := (s.token h).op.engines (hCourse h)
      ((∃ e ∈ es, s.choice e ≠ some h) → exec (.tokenSelect eng) s = .next s) ∧
      ((∀ e ∈ es, s.choice e = some h) →
        ((s.token h).op.needsPermit = false → exec (.tokenSelect eng) s = .next (s.runToken h)) ∧
        ((s.token h).op.needsPermit = true → exec (.tokenSelect eng) s = .next
          ((((es.foldl (fun u e => u.setEngine e (some h)) s).modToken h fun t => { t with state := .permit }).modDie
            ((s.token h).op.die (hCourse h)) fun k => { k with waiting := k.waiting ++ [h] }).post
              (.permitGrant ((s.token h).op.die (hCourse h))))))) ∧
    ((s.die die).pcount.toNat ≤ (s.die die).held → exec (.permitGrant die) s = .next s) ∧
    ((s.die die).held < (s.die die).pcount.toNat →
      ((s.die die).waiting.filter (s.grantable die) = [] → exec (.permitGrant die) s = .next s) ∧
      (∀ h hs, (s.die die).waiting.filter (s.grantable die) = h :: hs →
        let g := hs.foldl (fun a b => if (s.token a).prio.toNat < (s.token b).prio.toNat then b else a) h
        ∃ u : State, exec (.permitGrant die) s = .next (((u.modToken g fun t => { t with permit := some die }).runToken g).post
            (.permitGrant die)) ∧
          (u.die die).held = (s.die die).held + 1 ∧ (u.die die).waiting = (s.die die).waiting.filter (· ≠ g) ∧
          u.threads = s.threads ∧ u.mem = s.mem)) ∧
    (let ready := s.allTokens.find? fun t => t.2.pend && !t.2.away && coreOf t.2.owner.toNat == core
     (ready = none → exec (.pendingCompletionDelivery core) s = .next s) ∧
     (32 ≤ s.mailUsed core → exec (.pendingCompletionDelivery core) s = .next s) ∧
     (∀ h t, ready = some (h, t) → s.mailUsed core < 32 → exec (.pendingCompletionDelivery core) s = .next
       ((s.modTm core fun m => { m with mailbox := m.mailbox ++ [t.message h] }).modToken h fun k =>
         { k with pend := false }.settle))))

/-! ## Tokens (R221-R231) -/

/-- The token instructions. A stale handle reads 7 (all ones for `tfault`) and changes nothing; `twait` parks until the token
is terminal and then collects it, `twait.t` traps TOKEN on a faulted one; `ttest` collects only for the owner; an "owner
only" instruction of another user thread reads 8 and changes nothing, nor do these read or pop source b (log entry 84); the
others return the result word of R228; those of R14 trap ORDER in a deterministic launch (R228-R231). -/
def Obligations.TokenInstructions : Prop :=
  ∀ (s : State) (d a b : BitVec 5) (x : Word), rd s a = .ok x →
    let i := s.issued false
    let h : BitVec 32 := x.setWidth 32
    let found := i.findToken s.cur h
    let code := fun (t : Token) => BitVec.ofNat 64 (match t.state with
      | .free => 7
      | .queued => 1
      | .permit => 2
      | .running => 3
      | .done => 4 + t.fin.toNat * 65536
      | .faulted => 5
      | .cancelled => 6)
    let free := stDet s.me.status = false
    let retry := fun (u : State) (t : Token) => postAll ((t.op.engines (hCourse h)).map .tokenSelect) u
    let may := fun (t : Token) => t.ownedBy i = true ∨ stPl s.me.status ≠ 0
    (MayIssue s 0 [.dst 0 d, .src 1 a] →
      (∀ j ∈ [Instr.ttest d a, .tcancel d a, .tlist d a], ¬ free → exec j s = .next (i.trapAt s.cur .order 0 0)) ∧
      (found = none → (∀ j ∈ [Instr.twait d a, .twaitT d a, .tdetach d a, .tadopt d a], exec j s = .next (finish i [a] d 7)) ∧
        (free → ∀ j ∈ [Instr.ttest d a, .tcancel d a], exec j s = .next (finish i [a] d 7)) ∧
        exec (.tfault d a) s = .next (finish i [a] d (BitVec.allOnes 64))) ∧
      (∀ t, found = some t →
        (t.state.terminal = false → ∀ j ∈ [Instr.twait d a, .twaitT d a],
          exec j s = .next (i.modMe fun c => { c with wait := .cond (.tokenLive h) })) ∧
        (t.state.terminal = true → exec (.twait d a) s = .next (finish (i.collect h) [a] d (code t)) ∧
          (t.state ≠ .faulted → exec (.twaitT d a) s = .next (finish (i.collect h) [a] d (code t))) ∧
          (t.state = .faulted → exec (.twaitT d a) s = .next
            ((i.modToken h fun k => { k with owed := k.owed.erase s.me.ident }.settle).trapAt s.cur .token t.fault (h.setWidth 64)))) ∧
        (free → exec (.ttest d a) s = .next
          (finish (if t.state.terminal = true ∧ t.ownedBy i = true then i.collect h else i) [a] d (code t))) ∧
        (may t → exec (.tdetach d a) s = .next (finish (i.modToken h fun k => { k with det := false }.settle) [a] d (code t))) ∧
        (¬ may t → exec (.tdetach d a) s = .next (finish i [a] d 8) ∧ (free → exec (.tcancel d a) s = .next (finish i [a] d 8))) ∧
        (may t → free → ∃ v, exec (.tcancel d a) s = .next (finish (i.cancelToken h) [a] d v) ∧
          (∀ t', (i.cancelToken h).tokenAt h = some t' → v = code t') ∧ ((i.cancelToken h).tokenAt h = none → v = 6)) ∧
        exec (.tadopt d a) s = .next (finish (retry (i.modToken h fun k =>
          { k with owner := BitVec.ofNat 15 s.cur, own := s.me.ident, ownLent := s.me.lent, away := false }) t |>.post
            (.pendingDelivery (coreOf s.cur))) [a] d (code t)) ∧
        exec (.tfault d a) s = .next (finish i [a] d (if t.state = .faulted ∨ t.state = .cancelled then t.fault else 0))) ∧
      (free → exec (.tlist d a) s = .next (finish i [a] d
        (let mine := ((i.course (courseOf s.cur)).tokens.filter fun t => t.2.state != .free && t.2.ownedBy i).map fun t =>
          handleOf (courseOf s.cur) t.1 t.2.gen
         if x.toNat < mine.length then (mine.getD x.toNat 0).setWidth 64 else 0)))) ∧
    (∀ y, MayIssue s 0 [.dst 0 d, .src 1 a, .src 2 b] → rd s b = .ok y →
      (¬ free → exec (.tafter d a b) s = .next (i.trapAt s.cur .order 0 0)) ∧
      (found = none → exec (.tprio d a b) s = .next (finish i [a] d 7) ∧
        (free → exec (.tafter d a b) s = .next (finish i [a] d 7))) ∧
      (∀ t, found = some t →
        (¬ may t → exec (.tprio d a b) s = .next (finish i [a] d 8) ∧ (free → exec (.tafter d a b) s = .next (finish i [a] d 8))) ∧
        (may t →
          (let p : BitVec 2 := y.setWidth 2
           (t.state = .queued ∨ t.state = .permit → exec (.tprio d a b) s = .next (finish (retry
             ((if t.prio.toNat < p.toNat then i.raiseEarlier t p (hCourse h) else i).modToken h fun k => { k with prio := p }) t)
               [a, b] d (code t))) ∧
           (t.state ≠ .queued ∧ t.state ≠ .permit → exec (.tprio d a b) s = .next (finish (retry i t) [a, b] d (code t)))) ∧
          (free →
            let p : BitVec 32 := y.setWidth 32
            (t.state ≠ .queued → exec (.tafter d a b) s = .next (finish i [a, b] d 1)) ∧
            (t.state = .queued → i.chainReaches t.part h (i.allTokens.length + 1) p = true →
              exec (.tafter d a b) s = .next (finish i [a, b] d 2)) ∧
            (t.state = .queued → i.chainReaches t.part h (i.allTokens.length + 1) p = false → exec (.tafter d a b) s = .next
              (finish (retry (i.modToken h fun k => { k with pred := p, predFailed := false }) t) [a, b] d 0))))))

/-! ## Copies (R232-R236, R349, R350) -/

/-- `copy` and `cset`: a set reserved bit of the operand register traps OPND, a misaligned layout record or arrival word
ALIGN, one past the scratchpad SPAD, a record of which an error cannot be corrected MEMERR, one that breaks its limits OPND
with the byte offset, or with FFH where it moves more than 2^32 bytes, an arrival word of no core ADDR, of a core of another
partition PERM; otherwise the record's one-bit errors are corrected, and the thread takes a token of the copy that the record
describes (R232-R235, R355). What of the thread's posted writes is performed first is the model's choice (log entry 11), and
so is the MEMERR of the record (log entry 53). The copy engine of a course: without a running copy it does nothing; after the
last element it publishes, and the token is done; a unit is up to 192 bytes of elements, each checked in its order, source
first: the first that fails faults the token with its class and address, and delivers nothing; otherwise the unit's elements
are delivered in order and the arrival word counts its bytes, and a unit that asks no shadow frame writes each element at its
own destination; a write to another die is a strong update of it; a copy that is to stop stops after a unit that passes a 4
KiB boundary of its bytes, a cancelled one with its token cancelled (R226, R235, R236, R349, R351). What the translation of
an element that fails met on its way stays corrected (R355). The model's readings in it: log entries 17 (a shadow pool
without a frame) and 18. -/
def Obligations.Copies : Prop :=
  (∀ (s : State) (tok a b : BitVec 5) (e : BitVec 3) (bar mode : BitVec 1) (x y : Word), (mode = 1 ∨ tok = 0) →
    MayIssue s 0 ((if mode = 1 then [.dst 0 tok] else []) ++ [.src 1 a, .src 2 b, .ext e.toNat 1, .token]) →
    rd s a = .ok x → rd s b = .ok y →
    ∀ f ∈ [(Instr.copy tok a b e bar mode, false), (Instr.cset tok a b e bar mode, true)],
      let i := s.issued false
      let v := vget 0 s.me.e e.toNat
      let record := v.toNat % 2 ^ 19
      let aw := v.toNat / 2 ^ 32 % 2 ^ 19
      let awcore := v.toNat / 2 ^ 51 % 2 ^ 11
      let clean := v.extractLsb' 23 9 = 0 ∧ v.extractLsb' 62 2 = 0
      let aligned := record % 64 = 0 ∧ (v.getLsbD 19 = true → aw % 16 = 0)
      let inside := record + 64 ≤ 0x60000 ∧ (v.getLsbD 19 = true → aw + 16 ≤ 0x60000)
      let bytes := i.readOwn s.cur (.spad (coreOf s.cur) record) 64
      let lay := layoutOf bytes
      (¬ clean → exec f.1 s = .next (i.trapAt s.cur .opnd (BitVec.ofNat 64 (3 + 256 * e.toNat)) 0)) ∧
      (clean → record % 64 ≠ 0 → exec f.1 s = .next (i.trapAt s.cur .align 0 (BitVec.ofNat 64 record))) ∧
      (clean → record % 64 = 0 → ¬ aligned → exec f.1 s = .next (i.trapAt s.cur .align 0 (BitVec.ofNat 64 aw))) ∧
      (clean → aligned → 0x60000 < record + 64 → exec f.1 s = .next (i.trapAt s.cur .spad 0 (BitVec.ofNat 64 record))) ∧
      (clean → aligned → record + 64 ≤ 0x60000 → ¬ inside → exec f.1 s = .next (i.trapAt s.cur .spad 0 (BitVec.ofNat 64 aw))) ∧
      (clean → aligned → inside → ∀ part pa, i.badUnit (.spad (coreOf s.cur) record) 64 = some (part, pa) →
        exec f.1 s = .next ((i.logError s.me.part (coreOf s.cur) part pa).trapAt s.cur .memerr 0 (BitVec.ofNat 64 record))) ∧
      (clean → aligned → inside → i.badUnit (.spad (coreOf s.cur) record) 64 = none →
        (∀ o, recordBad bytes f.2 = some o →
          exec f.1 s = .next (i.trapAt s.cur .opnd (BitVec.ofNat 64 (6 + 256 * o)) 0)) ∧
        (recordBad bytes f.2 = none → 2 ^ 32 < lay.total → exec f.1 s = .next (i.trapAt s.cur .opnd 0xFF06 0)) ∧
        (recordBad bytes f.2 = none → lay.total ≤ 2 ^ 32 → v.getLsbD 19 = true →
          (1280 ≤ awcore → exec f.1 s = .next (i.trapAt s.cur .addr 0 (BitVec.ofNat 64 awcore))) ∧
          (awcore < 1280 → s.myPart.hasCore awcore = false →
            exec f.1 s = .next (i.trapAt s.cur .perm 0 (BitVec.ofNat 64 awcore)))) ∧
        (recordBad bytes f.2 = none → lay.total ≤ 2 ^ 32 →
          (v.getLsbD 19 = true → awcore < 1280 ∧ s.myPart.hasCore awcore = true) →
          exec f.1 s = .next (((if v.getLsbD 20 then i.performAll s.cur else i.performKept s.cur).correct s.me.part (.spad (coreOf s.cur) record)
              64).takeToken
            (.copy { core := coreOf s.cur, src := x, dst := y, lay := lay, isSet := f.2
                     aw := if v.getLsbD 19 then some (awcore, aw) else none, next := 0, held := 0, shadow := [] })
            (v.extractLsb' 21 2 ^^^ 1) (bar == 1) (mode == 1) tok [a, b])))) ∧
  (∀ (s : State) (course : Nat),
    ((s.course course).copyEng = none → exec (.copyUnit course) s = .next s) ∧
    (∀ h j, (s.course course).copyEng = some h → (s.token h).op = .copy j →
      let z := 2 ^ j.lay.esz
      let total := j.lay.total / z
      let n := min (192 / z) (total - j.next)
      let part := (s.token h).part.toNat
      ((s.token h).state ≠ .running → exec (.copyUnit course) s = .next s) ∧
      ((s.token h).state = .running → total ≤ j.next →
        exec (.copyUnit course) s = .next ((s.publish (course / 20) part j).endToken h .done 0 0)) ∧
      ((s.token h).state = .running → j.next < total →
        (∀ cls va, s.checkUnit h j n j.next = .error (cls, va, none) →
          exec (.copyUnit course) s = .next (((s.engSought h cls va none).noteFault h cls va).endToken h .faulted 0 (tokRecord cls va))) ∧
        (∀ cls va bad, s.checkUnit h j n j.next = .error (cls, va, some bad) →
          exec (.copyUnit course) s = .next
            (((s.engSought h cls va (some bad)).noteError h bad).endToken h .faulted 0 (tokRecord cls va))) ∧
        (∀ us u cls va, s.checkUnit h j n j.next = .ok (us, u) → u.takeFrames part us j.shadow = .error (cls, va, none) →
          exec (.copyUnit course) s = .next (u.endToken h .faulted 0 (tokRecord cls va))) ∧
        (∀ us u, s.checkUnit h j n j.next = .ok (us, u) → (∀ x ∈ us, x.shadowed = false) →
          us.length = n ∧
          let d := us.foldl (fun v x => (v.crossDie (course / 20) (dieOfCore x.home)).write x.dst (match x.src with
            | some l => v.read l z
            | none => toBytes z j.src)) (u.unitTraffic (course / 20) us)
          let w := (d.modToken h fun t => { t with op := .copy { j with next := j.next + n } }).copyArrival (course / 20) j (z * n)
          let boundary := z * j.next / 4096 < z * (j.next + n) / 4096
          ((s.token h).stop = 0 ∨ ¬ boundary → exec (.copyUnit course) s = .next (w.post (.copyUnit course))) ∧
          ((s.token h).stop ≠ 0 → boundary → exec (.copyUnit course) s = .next (w.stopCopy h) ∧
            ((w.token h).stop = 1 → w.stopCopy h = w.endToken h .cancelled 0 0))))) ∧
    (∀ (j : CopyJob) (n : Nat), (j.aw = none ∨ n = 0 → s.copyArrival (course / 20) j n = s) ∧
      (∀ core a, j.aw = some (core, a) → n ≠ 0 → s.copyArrival (course / 20) j n =
        (s.crossWith (course / 20) (dieOfCore core) 2 0).arrival core a (BitVec.ofNat 32 n))))

/-! ## Barriers and collectives (R252, R253, R440, R407-R409) -/

/-- `bar`: a selector that is no group of the launch, or does not hold the issuing team, traps GROUP. An arrival performs the
thread's writes and counts its team; the last member's releases the barrier and goes on, the others wait at the generation; a
waiting thread goes on once the generation has advanced, or once every member that is left has arrived (R252, R306). That an
arrival performs loose posted writes too is the model's choice (log entry 11). The model's readings in it: log entry 23.
`allred`, `red`, `bcast`, `allgat`: a reserved value or a count of 0 traps OPND with its register, a foreign selector or a
lost spanning group GROUP; otherwise the issuing team's next part on the selector meets the others' and takes a token (R251,
R253, R409). What each member gets, from the terms in rank order: all of them in a row (`allgat`), the root's (`bcast`), the
canonical tree's reduction of each element (`allred`, and `red` for the root alone) (R120, R253). The model's readings in it:
log entry 23. The completion of a member's part: nothing while it does not run, or while a member's part is missing; a
collective that has failed faults it with GROUP and the team of the failure; where its result stands ready, its elements are
written at its destination, the token is done, and the other members' parts follow, where it spans devices once no pier port
trains or holds a flit (R392, R393, R408). Losing a device of a pier set clears the set's v bit, and configuring one writes
rank, devices − 1, group and v (R253, R407, R409). The model's readings in it: log entries 19, 33 and 69. -/
def Obligations.Collectives : Prop :=
  (∀ (s : State) (a : BitVec 5) (x : Word) (l t : Nat), MayIssue s 0 [.src 1 a] → rd s a = .ok x →
    (s.core (coreOf s.cur)).team = some (l, t) →
    let i := s.issued false
    let c := s.me
    let ms := s.selTeams c.part c.ident.launch (courseOf s.cur) x.toNat
    let key := selKey c.part c.ident.launch (courseOf s.cur) x.toNat
    let ok := x.toNat ≤ 256 ∧ l = c.ident.launch ∧ t ∈ ms
    let u := i.performAll s.cur
    let on := fun (v : State) => (finishNo v [a]).modMe fun c => { c with wait := .ready }
    let arrived := if t ∈ (u.barrier key).arrived then (u.barrier key).arrived else t :: (u.barrier key).arrived
    ((∀ k g d, c.wait ≠ .barrier k g d) →
      (¬ ok → exec (.bar a) s = .next (i.trapAt s.cur .group 0 0)) ∧
      (ok → (∀ m ∈ ms, m ∈ arrived) → exec (.bar a) s = .next (on (u.setBarrier key { gen := (u.barrier key).gen + 1, arrived := [] }))) ∧
      (ok → (∃ m ∈ ms, m ∉ arrived) → exec (.bar a) s = .next ((u.setBarrier key { u.barrier key with arrived := arrived }).modMe
        fun c => { c with wait := .barrier key (u.barrier key).gen a }))) ∧
    (∀ k g d, c.wait = .barrier k g d →
      ((s.barrier k).gen ≠ g → exec (.bar a) s = .next (on i)) ∧
      ((s.barrier k).gen = g → ms ≠ [] → (∀ m ∈ ms, m ∈ (s.barrier k).arrived) →
        exec (.bar a) s = .next (on (i.setBarrier k { gen := g + 1, arrived := [] }))))) ∧
  ((∀ (s : State) (tok a b : BitVec 5) (e : BitVec 3) (bar mode : BitVec 1) (src dst : Word) (l t : Nat), (mode = 1 ∨ tok = 0) →
    MayIssue s 0 ((if mode = 1 then [.dst 0 tok] else []) ++ [.src 1 a, .src 2 b, .ext e.toNat 2, .token]) →
    rd s a = .ok src → rd s b = .ok dst → (s.core (coreOf s.cur)).team = some (l, t) →
    let i := s.issued false
    let c := s.me
    let x := vget 0 c.e e.toNat
    let y := vget 0 c.e (e.toNat + 1)
    let sel := x.toNat % 512
    let ty := x.toNat / 512 % 8
    let red := x.toNat / 4096 % 4
    let ms := s.selTeams c.part c.ident.launch (courseOf s.cur) sel
    let key := selKey c.part c.ident.launch (courseOf s.cur) sel
    let no := Tbl.get 0 s.collSeq (key * 65536 + t)
    ∀ f ∈ [(Instr.allred tok a b e bar mode, CollOp.allred), (.red tok a b e bar mode, .red), (.bcast tok a b e bar mode, .bcast),
        (.allgat tok a b e bar mode, .allgat)],
      let clean := ty < 4 ∧ red < 3 ∧ (f.2 = .bcast ∨ f.2 = .allgat → red = 0) ∧ x.extractLsb' 32 32 = 0
      let counted := y.extractLsb' 0 32 ≠ 0 ∧ y.extractLsb' 32 32 = 0
      let mine := sel ≤ 256 ∧ l = c.ident.launch ∧ t ∈ ms
      let lost := s.myPart.pierLost = true ∧ (s.myPart.pier.extractLsb' 16 8).toNat = sel
      (¬ clean → exec f.1 s = .next (i.trapAt s.cur .opnd (BitVec.ofNat 64 (3 + 256 * e.toNat)) 0)) ∧
      (clean → ¬ counted → exec f.1 s = .next (i.trapAt s.cur .opnd (BitVec.ofNat 64 (3 + 256 * (e.toNat + 1))) 0)) ∧
      (clean → counted → ¬ mine → exec f.1 s = .next (i.trapAt s.cur .group 0 0)) ∧
      (clean → counted → mine → lost → exec f.1 s = .next (i.trapAt s.cur .group 0 0)) ∧
      (clean → counted → mine → ¬ lost →
        let j : CollJob := { op := f.2, sel := key, team := t, ty := ty, red := red, root := x.toNat / 65536 % 65536
                             n := y.toNat % 2 ^ 32, src := src, dst := dst, seqNo := no }
        let idx := (s.freeToken (courseOf s.cur)).getD 0
        let h := handleOf (courseOf s.cur) idx (Tbl.get Token.zero (s.course (courseOf s.cur)).tokens idx).gen
        exec f.1 s = .next (({ i with collSeq := Tbl.set 0 s.collSeq (key * 65536 + t) (no + 1) }.meet j c.ident.launch ms
          h).takeToken (.coll j) (x.extractLsb' 14 2 ^^^ 1) (bar == 1) (mode == 1) tok [a, b]))) ∧
  (∀ (j : CollJob) (terms : List (List Word)) (r : Nat),
    let each := (List.range j.n).map fun i => canonicalTree (collStep j.ty j.red) 0 (terms.map fun x => x.getD i 0)
    collResult { j with op := .allgat } terms r = terms.flatten ∧
    collResult { j with op := .bcast } terms r = terms.getD j.root [] ∧
    collResult { j with op := .allred } terms r = each ∧
    collResult { j with op := .red } terms j.root = each ∧
    (r ≠ j.root → collResult { j with op := .red } terms r = []))) ∧
  (∀ (s : State) (h : BitVec 32) (part : Nat) (rank : BitVec 8) (cfg : PierCfg),
    (∀ j, (s.token h).op = .coll j →
      ((s.token h).state ≠ .running → exec (.collectiveComplete h) s = .next s) ∧
      ((s.token h).state = .running → ∀ r, s.colls.find? (fun r => r.isOf j) = some r →
        (∀ team g, r.failed = some (team, g) →
          exec (.collectiveComplete h) s = .next (s.endToken h .faulted 0 (BitVec.ofNat 64 (30 + team * 256)))) ∧
        (r.failed = none → r.results = [] → (∃ m ∈ r.members, ∀ x ∈ r.toks, x.1 = m → s.runs x.2 = false) →
          exec (.collectiveComplete h) s = .next s) ∧
        (r.failed = none → ∀ y ys, r.results = y :: ys → ∀ team g bs, r.results.find? (fun x => x.1 == j.team) = some (team, g, bs) →
          let z := if j.ty = 0 ∨ j.ty = 2 then 8 else 4
          let w := (List.range (bs.length / z)).foldl (fun v i =>
            let va := j.dst + BitVec.ofNat 64 (z * i)
            let home := dieOfCore (v.engVia h g va).home
            let pa := Grans.place g va
            let x := if i = 0 ∨ pa = lineAt (lineNo pa) then v.cargo (hCourse h / 20) home (vertOf pa) 192 else v
            ((x.crossDie (hCourse h / 20) home).engWrite h g va z).physWrite pa ((bs.drop (z * i)).take z)) s
          let spans := ∃ v, s.spanOf (s.token h).part.toNat j = some v ∧ v.toNat / 2 ^ 8 % 2 ^ 8 ≠ 0
          let busy := ∃ p, p < 16 ∧ ((s.linkAt (32 + p)).state = 2 ∨
            ((s.linkAt (32 + p)).state = 1 ∧ ((s.linkAt (32 + p)).buf ≠ [] ∨ (s.linkAt (32 + p)).queue ≠ [])))
          (spans ∧ busy → exec (.collectiveComplete h) s = .next (s.post (.collective h))) ∧
          (¬ (spans ∧ busy) → exec (.collectiveComplete h) s = .next (postAll (r.toks.filterMap fun x =>
            if x.2 = h then none else some (Due.collective x.2)) (w.endToken h .done 0 0)))))) ∧
    (∀ (v : State) (r : Nat) (h' : BitVec 32) (j : CollJob), j.op = .bcast → j.root ≠ r →
      v.collTerms r [(h', j)] = .ok ([[]], v)) ∧
    ((s.runs h = true ↔ hCourse h < 160 ∧ (s.token h).state = .running ∧ (s.token h).gen = h.extractLsb' 0 16)) ∧
    (∃ t, exec (.pierFailure part rank) s = .next t ∧ (t.part part).pier.getLsbD 24 = false ∧
      (s.colls = [] → (t.part part).pier.extractLsb' 0 24 = (s.part part).pier.extractLsb' 0 24 ∧
        (t.part part).pierLost = ((s.part part).pierLost || (s.part part).pier.getLsbD 24) ∧ t.threads = s.threads)) ∧
    (∃ t, exec (.pierSetConfigure part cfg) s = .next t ∧ (t.part part).pier.getLsbD 24 = true ∧
      (t.part part).pierLost = false ∧ (t.part part).pier.extractLsb' 0 8 = cfg.rank ∧
      (t.part part).pier.extractLsb' 16 8 = cfg.group ∧ t.mem = s.mem ∧ t.threads = s.threads))

/-! ## Threads of a core (R238), migration (R239, R240) -/

/-- `start` and `reap`, for the core's zero thread alone: THREAD otherwise, and on a slot number that is not 1 to 15 or is in
use. `start` begins a thread of the same launch and team, 8 cycles later at the earliest; `reap` waits for the slot's end and
takes its record, leaving 3. `migrate` checks its core (ADDR, PERM) and the pin (MIGRATE), completes, and sends the thread
away (R238-R240). That `start` performs the thread's loose posted writes too is the model's choice (log entry 11). The
model's readings in it: log entry 39. What starting a thread leaves: a live context at the entry with the argument in g1 and
every other general register 0 and full, apart from the segment's: the lowest free segment of the partition's pool is its
own, with g13 and g14 at its top; it waits while none is free, and g13 and g14 are 0 where the partition has no pool; the
status of R20: user level, the launch's priority, partition and order, the slot and core-zero bits, and nothing else (R20,
R69, R241). The core's agents. A claim takes the core's free contexts one after another, at most its sixteen, the lowest that
is not removed first, as long as there is something to claim for: a fired entry before an arrival before a queued task; then
a core without a team is offered to the partitions that hold it. An arrival claims the same way. The steal agent does nothing
for a core without a team, of a deterministic launch, under pre-emption or before its swap-in, or of a partition without
segments, nor while an entry is fired or an arrival waits; it takes the oldest continuation of the first core that has one,
which waits for a segment of its own (R246, R366). The model's readings in it: log entry 38, and 76 for the identity that a
stolen continuation takes and the segments that it keeps. -/
def Obligations.Threads : Prop :=
  (∀ (s : State) (d a b : BitVec 5) (x : Word), rd s a = .ok x →
    let i := s.issued false
    let thr := 16 * coreOf s.cur + x.toNat
    let named := 1 ≤ x.toNat ∧ x.toNat ≤ 15
    (∀ v y, MayIssue s 0 [.gsrc 0 d, .src 1 a, .src 2 b] → rd s d = .ok v → rd s b = .ok y →
      (stCz s.me.status = false → exec (.start d a b) s = .next (i.trapAt s.cur .thread 0 0)) ∧
      (stCz s.me.status = true →
        (¬ named → exec (.start d a b) s = .next (i.trapAt s.cur .thread 0 0)) ∧
        (named → y.getLsbD 0 = true → exec (.start d a b) s = .next (i.trapAt s.cur .align 3 y)) ∧
        (named → y.getLsbD 0 = false → canonical y = false → exec (.start d a b) s = .next (i.trapAt s.cur .addr 3 y)) ∧
        (named → y.getLsbD 0 = false → canonical y = true → (i.ctx thr).live = true →
          exec (.start d a b) s = .next (i.trapAt s.cur .thread 0 0)) ∧
        (named → y.getLsbD 0 = false → canonical y = true → (i.ctx thr).live = false →
          exec (.start d a b) s = .next ((finishNo (i.performAll s.cur) [d, a, b]).startThread thr
            ⟨s.me.ident.launch, s.me.ident.team, x.toNat⟩ false (y.setWidth 57) v s.me.tasid 8)))) ∧
    (MayIssue s 0 [.dst 0 d, .src 1 a] →
      (stCz s.me.status = false → exec (.reap d a) s = .next (i.trapAt s.cur .thread 0 0)) ∧
      (stCz s.me.status = true →
        (¬ named → exec (.reap d a) s = .next (i.trapAt s.cur .thread 0 0)) ∧
        (named → (i.ctx thr).live = true →
          exec (.reap d a) s = .next (i.modMe fun c => { c with wait := .cond (.contextUsed thr) })) ∧
        (named → (i.ctx thr).live = false → exec (.reap d a) s = .next
          ((finish i [a] d (Tbl.get 3 (s.core (coreOf s.cur)).tm.endRec x.toNat)).setEndRec thr 3)))) ∧
    (MayIssue s 0 [.src 1 a] →
      (1280 ≤ x.toNat → exec (.migrate a) s = .next (i.trapAt s.cur .addr 0 x)) ∧
      (x.toNat < 1280 → s.myPart.hasCore x.toNat = false → exec (.migrate a) s = .next (i.trapAt s.cur .perm 0 x)) ∧
      (x.toNat < 1280 → s.myPart.hasCore x.toNat = true → s.me.pinned = true →
        exec (.migrate a) s = .next (i.trapAt s.cur .migrate 0 0)) ∧
      (x.toNat < 1280 → s.myPart.hasCore x.toNat = true → s.me.pinned = false →
        exec (.migrate a) s = .next ((finishNo i [a]).sendAway s.cur x.toNat)))) ∧
  (∀ (s : State) (thr : Nat) (id : Ident) (entry : BitVec 57) (arg : Word) (asid : BitVec 12) (n : Nat),
    (s.launch id.launch).part < 256 →
    let t := s.startThread thr id false entry arg asid n
    let c := t.ctx thr
    let p := s.part (s.launch id.launch).part
    (p.poolCount = 0 → c.wait = .ready ∧ c.segments = [] ∧ vget 0 c.g 13 = 0 ∧ vget 0 c.g 14 = 0) ∧
    (p.poolCount ≠ 0 → ∀ k, p.freeSegment = some k → c.wait = .ready ∧ c.segments = [k] ∧
      vget 0 c.g 13 = p.segTop k ∧ vget 0 c.g 14 = p.segTop k ∧ (t.part (s.launch id.launch).part).segments = k :: p.segments) ∧
    (p.poolCount ≠ 0 → p.freeSegment = none → c.wait = .segment false ∧ c.segments = [] ∧
      vget 0 c.g 13 = 0 ∧ vget 0 c.g 14 = 0 ∧ t.parts = s.parts) ∧
    (∀ k, p.freeSegment = some k → k < p.poolCount ∧ k ∉ p.segments ∧ ∀ m < k, m ∈ p.segments) ∧
    c.live = true ∧ c.ident = id ∧ c.pc = entry ∧ c.tasid = asid ∧
    c.resumeAt = (s.core (coreOf thr)).cycle + n ∧ vget 0 c.g 1 = arg ∧
    (∀ k, k ≠ 1 → k ≠ 13 → k ≠ 14 → k < 16 → vget 0 c.g k = 0) ∧
    (∀ k, k < 16 → vget false c.gFull k = true) ∧ stPl c.status = 0 ∧ stIh c.status = false ∧ stLd c.status = 0 ∧
    stDet c.status = (s.launch id.launch).det ∧ stCz c.status = (slotOf thr == 0) ∧
    c.status.extractLsb' 11 2 = (s.launch id.launch).prio ∧ c.status.extractLsb' 16 8 = BitVec.ofNat 8 (s.launch id.launch).part ∧
    c.cin = none ∧ c.cout = none ∧ c.stolenSeg = none ∧ c.posted = []) ∧
  (∀ (s : State) (core : Nat),
    exec (.contextClaim core) s = .next ((s.claims core 16).offerCore core) ∧
    exec (.migrationArrival core) s = .next (s.claims core 16) ∧
    s.claims core 0 = s ∧
    (∀ n, (s.claimOne core = none → s.claims core (n + 1) = s) ∧
      (∀ u, s.claimOne core = some u → s.claims core (n + 1) = u.claims core n)) ∧
    ((s.core core).team ≠ none → s.offerCore core = s) ∧
    ((s.core core).team = none → s.offerCore core =
      postAll ((s.parts.filter fun p => p.2.hasCore core).map fun p => .placement p.1) s) ∧
    (∀ thr, s.freeContext core = some thr → coreOf thr = core ∧ (s.ctx thr).live = false ∧
      slotOf thr < 16 - (s.core core).removal.toNat ∧
      ∀ k, 16 * core ≤ k → k < thr → (s.ctx k).live = true ∨ 16 - (s.core core).removal.toNat ≤ slotOf k) ∧
    (s.freeContext core = none → s.claimOne core = none) ∧
    ((s.core core).preempting = true ∨ (s.core core).restoring = true → s.claimOne core = none) ∧
    ((s.core core).team = none → (s.core core).preempting = false → (s.core core).restoring = false →
      ∀ thr m ms, s.freeContext core = some thr → (s.core core).arrivals = m :: ms →
        s.claimOne core = some ((s.modCore core fun k => { k with arrivals := ms }).settleMigrant thr m)) ∧
    (∀ l t, (s.core core).team = some (l, t) → (s.core core).preempting = false → (s.core core).restoring = false →
      ∀ thr, s.freeContext core = some thr →
      (∀ k e, s.firedEntry core = some (k, e) → s.claimOne core = some ((s.freeEntry (coreOf thr) k).startThread thr
        ⟨l, t, slotOf thr⟩ false e.entry e.arg e.tasid 2)) ∧
      (s.firedEntry core = none → ∀ m ms, (s.core core).arrivals = m :: ms →
        s.claimOne core = some ((s.modCore core fun k => { k with arrivals := ms }).settleMigrant thr m)) ∧
      (s.firedEntry core = none → (s.core core).arrivals = [] → ∀ w ws, (s.teamOf l t).queue = w :: ws →
        s.claimOne core = some ((s.modTeam l t fun x => { x with queue := ws }).startWork thr l t w)) ∧
      (s.firedEntry core = none → (s.core core).arrivals = [] → (s.teamOf l t).queue = [] → s.claimOne core = none)) ∧
    ((s.core core).team = none → exec (.stealAgent core) s = .next s) ∧
    (∀ l t, (s.core core).team = some (l, t) → ((s.launch l).det = true ∨ (s.core core).preempting = true ∨
      (s.core core).restoring = true ∨ (s.part (s.launch l).part).poolCount = 0) → exec (.stealAgent core) s = .next s) ∧
    (∀ l t, (s.core core).team = some (l, t) → (s.launch l).det = false → (s.core core).preempting = false →
      (s.core core).restoring = false → (s.part (s.launch l).part).poolCount ≠ 0 → exec (.stealAgent core) s = .next (s.steals core l t 16) ∧
      (s.freeContext core = none → s.steals core l t 16 = s) ∧
      (s.firedEntry core ≠ none ∨ (s.core core).arrivals ≠ [] → s.steals core l t 16 = s)) ∧
    (∀ l t thr k r, (s.victims (coreOf thr) l).findSome? (fun k =>
        ((s.core k).tm.deque ++ (s.core k).tm.spilled).getLast?.map fun r => (k, r)) = some (k, r) →
      let rest := ((s.core k).tm.deque ++ (s.core k).tm.spilled).dropLast
      s.steal thr l t = some ((((s.setDeque (s.launch l).part k rest).setCtx thr
        { Ctx.blank.ofLine (slotOf thr) (s.lineOf r) with
          live := true, ident := ⟨l, t, slotOf thr⟩, tasid := r.tasid, path := r.path, fencedAt := r.fencedAt
          segments := r.segs ++ r.stolen.toList, wait := .segment true
          resumeAt := (s.core (coreOf thr)).cycle + 2 }).giveSegment thr).giveUp k)))

/-! ## Fork and join (R242-R247) -/

/-- `spawn` of a free launch: a misaligned join record traps ALIGN, one that counts 16 children TASK, a bad entry ALIGN or
ADDR; else the record counts one more child, outstanding and spawned, with its reducer, the link is stored at g14 − 16, the
parent's continuation is the newest of the core's deque, which holds 64 and writes an older one's line in the core's area
from `spill` on (R40; its layout is log entry 13), and the thread runs the child: its entry, its argument in g1, g13 and g14
at the link, g15 0, no segment of its own (R243). Of a deterministic launch the child takes a free segment, the link stands
at its top, and the team of group 0 that the path's hash names queues it; a path of 2^60, an empty group 0 or no pool traps
TASK, and no free segment parks (R247). That loose posted writes are performed first too is log entry 11 (other readings: 29,
76: segments). `sync`: with no child outstanding it folds the results of the children since the last `sync`, in spawn order,
and clears their count; with one outstanding it marks the record, stores the line below it, and suspends. `sret`: a link
without its mark traps TASK; the result is stored, one child fewer is outstanding, and where the newest continuation of the
thread on its core is the parent, the thread goes on with it; else the last child of a suspended parent resumes it, and any
other ends (R244, R245). The parent resumes with the fold applied where its register is a general one; else at its `sync`,
which then writes the o register or pushes (log entry 35). A core of which nothing is left gives its team up (R363). The
model's other readings: log entries 11, 36, 76 (segments follow the continuation), 86 (the deque is the present core's). The
fold: no child with a reducer gives 0; one gives its result; a longer list folds left, each child's reducer joining the
result so far and its own: sum, binary64 sum rounded to nearest even, signed minimum and maximum, or bits, over the first
`count` slots (R242, R245). -/
def Obligations.ForkJoin : Prop :=
  ((∀ (s : State) (part core : Nat) (cs : List Cont),
    let near := (cs.take 64).map fun r => { r with line := s.lineOf r, place := none }
    let set := fun (v : State) (far : List Cont) => v.modTm core fun m => { m with deque := near, spilled := far }
    let free := fun pa => pa ∉ s.spillTaken ∧ inDram pa = true ∧
      (s.part part).ownsRange (pa / 65536) ((pa + 191) / 65536 - pa / 65536 + 1) = true
    (cs.length ≤ 64 → s.setDeque part core cs = set s []) ∧
    (∀ r rest, cs.drop 64 = r :: rest → r.place = none → (∀ x ∈ rest, x.place ≠ none) →
      (∀ pa, ((s.part part).spillPlaces core).find? (fun a => decide (free a)) = some pa →
        s.setDeque part core cs = set (s.physWrite pa r.line) ({ r with line := [], place := some pa } :: rest)) ∧
      ((∀ pa ∈ (s.part part).spillPlaces core, ¬ free pa) → s.setDeque part core cs = set s (r :: rest))) ∧
    (∀ r : Cont, (∀ pa, r.place = some pa → s.lineOf r = s.physRead pa 192) ∧ (r.place = none → s.lineOf r = r.line)) ∧
    (∀ pa, pa ∈ (s.part part).spillPlaces core ↔
      ∃ i < 341, pa = (s.part part).spill.toNat + 65536 * (s.part part).cores.idxOf core + 192 * i)) ∧
  ∀ (s : State) (red a b : BitVec 5) (entry arg : Word) (j : Join) (u : State), red.toNat ≤ 5 → MayIssue s 0 ([.src 1 a, .src 2 b, .gsrc 6 13] ++ if stDet s.me.status then [] else [.gsrc 6 14]) →
    rd s a = .ok entry → rd s b = .ok arg →
    let i := s.issued false
    let jr := s.me.gpr 13 - 192
    (jr.toNat % 64 ≠ 0 → exec (.spawn red a b) s = .next (i.trapAt s.cur .align 1 jr)) ∧
    (jr.toNat % 64 = 0 → (i.performAll s.cur).getJoin jr = .ok (j, u) →
      (16 ≤ j.count.toNat → exec (.spawn red a b) s = .next (i.trapAt s.cur .task 0 0)) ∧
      (j.count.toNat < 16 → entry.getLsbD 0 = true → exec (.spawn red a b) s = .next (i.trapAt s.cur .align 3 entry)) ∧
      (j.count.toNat < 16 → entry.getLsbD 0 = false → canonical entry = false →
        exec (.spawn red a b) s = .next (i.trapAt s.cur .addr 3 entry)) ∧
      (j.count.toNat < 16 → entry.getLsbD 0 = false → canonical entry = true → stDet s.me.status = false →
        let fp := u.me.gpr 14 - 16
        ∀ u1 u2 u3, u.putBytes jr (toBytes 4 (j.out + 1) ++ toBytes 4 (j.count + 1)) = .ok u1 →
          u1.putBytes (jr + 16 + j.count.setWidth 64) [red.setWidth 8] = .ok u2 →
          u2.putBytes fp (toBytes 8 jr ++ toBytes 8 (BitVec.ofNat 64 (0xC0DE * 2 ^ 48 + j.count.toNat))) = .ok u3 →
          let v := u3.consume u.cur [a, b]
          let cont : Cont := { owner := u.me.ident, record := jr, child := j.count.toNat, line := v.me.advance.line, place := none
                               tasid := u.me.tasid, path := u.me.path, segs := u.me.segments, stolen := u.me.stolenSeg
                               fencedAt := u.me.fencedAt }
          exec (.spawn red a b) s = .next ((v.setDeque u.me.part (coreOf u.cur)
            (cont :: ((v.core (coreOf u.cur)).tm.deque ++ (v.core (coreOf u.cur)).tm.spilled))).modMe fun c =>
            { ((((c.setG 1 arg).setG 13 fp).setG 14 fp).setG 15 0) with
              pc := entry.setWidth 57, segments := [], stolenSeg := none })) ∧
      (j.count.toNat < 16 → entry.getLsbD 0 = false → canonical entry = true → stDet s.me.status = true →
        let c := u.me
        let p := u.part c.part
        let members := u.groupZero c.part c.ident.launch
        let path := c.path * 16 + j.count.toNat
        (2 ^ 60 ≤ path ∨ members = [] ∨ p.poolCount = 0 → exec (.spawn red a b) s = .next (i.trapAt s.cur .task 0 0)) ∧
        (path < 2 ^ 60 → members ≠ [] → p.poolCount ≠ 0 →
          (p.freeSegment = none → exec (.spawn red a b) s = .next (i.modMe fun c => { c with wait := .cond .noSegment })) ∧
          (∀ k loc u1 u2, p.freeSegment = some k → u.block (p.segTop k - 16) 8 16 .store = .ok (loc, u1) →
            (u1.write loc (toBytes 8 jr ++ toBytes 8 (BitVec.ofNat 64 (0xC0DE * 2 ^ 48 + j.count.toNat)))).addChild jr j red = .ok u2 →
            exec (.spawn red a b) s = .next ((finishNo (u2.modPart c.part fun p => { p with segments := k :: p.segments })
              [a, b]).queueWork c.ident.launch (members.getD ((mix 0 (BitVec.ofNat 64 path)).toNat % members.length) 0)
                (.task { entry := entry.setWidth 57, arg := arg, top := p.segTop k - 16, segment := k, path := path
                         tasid := c.tasid }))))))) ∧
  ((∀ (s : State) (d : BitVec 5) (j : Join) (u u1 u2 : State), MayIssue s 0 [.dst 0 d, .gsrc 6 13] →
    let i := s.issued false
    let jr := s.me.gpr 13 - 192
    (i.performAll s.cur).getJoin jr = .ok (j, u) →
    (j.out = 0 → (∃ c ∈ j.children, 5 < c.1.toNat) → exec (.sync d) s = .next (i.trapAt s.cur .task 0 0)) ∧
    (j.out = 0 → (∀ c ∈ j.children, c.1.toNat ≤ 5) → u.putBytes (jr + 4) [0, 0, 0, 0] = .ok u1 →
      exec (.sync d) s = .next (finish u1 [] d j.fold)) ∧
    (j.out ≠ 0 → u.putBytes (jr + 8) [j.flag ||| 1] = .ok u1 → u1.putBytes (jr - 192) i.me.line = .ok u2 →
      exec (.sync d) s = .next (u2.suspend jr d))) ∧
  (∀ (s : State) (a : BitVec 5) (v : Word) (lk : List Byte) (u : State), MayIssue s 0 [.src 1 a, .gsrc 6 13] → rd s a = .ok v →
    let i := s.issued false
    (i.performAll s.cur).getBytes (s.me.gpr 13) 16 = .ok (lk, u) →
    let jr : Word := ofBytes 64 (lk.take 8)
    let w : Word := ofBytes 64 (lk.drop 8)
    (w.extractLsb' 48 16 ≠ 0xC0DE → exec (.sret a) s = .next (i.trapAt s.cur .task 0 0)) ∧
    (w.extractLsb' 48 16 = 0xC0DE → ∀ j u1 u2 u3, u.getJoin jr = .ok (j, u1) →
      u1.putBytes (jr + 32 + BitVec.ofNat 64 (8 * (w.toNat % 16))) (toBytes 8 v) = .ok u2 →
      u2.putBytes jr (toBytes 4 (j.out - 1)) = .ok u3 →
      let z := ((u3.consume s.cur [a]).returnSegments s.me.part (s.me.segments ++ s.me.stolenSeg.toList)).modMe fun c =>
        { c with segments := [], stolenSeg := none }
      let newest := ((z.core (coreOf s.cur)).tm.deque ++ (z.core (coreOf s.cur)).tm.spilled).find? fun r => r.owner == i.me.ident
      (∀ r, newest = some r → r.record = jr → r.child = w.toNat % 16 → exec (.sret a) s = .next (z.popParent r)) ∧
      ((∀ r, newest = some r → r.record ≠ jr ∨ r.child ≠ w.toNat % 16) →
        ((j.out ≠ 1 ∨ j.flag.getLsbD 0 = false) → exec (.sret a) s = .next (z.endThread s.cur 0)) ∧
        (j.out = 1 → j.flag.getLsbD 0 = true → z.findSuspended i.me jr = none →
          exec (.sret a) s = .next (z.endThread s.cur 0)) ∧
        (j.out = 1 → j.flag.getLsbD 0 = true → ∀ p q, z.findSuspended i.me jr = some p → resumeParent jr p z = .ok q →
          exec (.sret a) s = .next q)))) ∧
  (∀ (s : State) (r : Cont), s.popParent r = ((s.setDeque s.me.part (coreOf s.cur)
      (((s.core (coreOf s.cur)).tm.deque ++ (s.core (coreOf s.cur)).tm.spilled).erase r)).modMe fun c =>
      { c.ofLine (slotOf s.cur) (s.lineOf r) with path := r.path, segments := r.segs, stolenSeg := r.stolen }).giveUp (coreOf s.cur)) ∧
  (∀ (s : State) (jr : Word) (p : Suspended) (j : Join) (line : List Byte) (s1 s2 s3 s4 : State), s.getJoin jr = .ok (j, s1) →
    s1.getBytes (jr - 192) 192 = .ok (line, s2) → s2.putBytes (jr + 8) [j.flag &&& 0xFE] = .ok s3 →
    let whole := (∀ c ∈ j.children, c.1.toNat ≤ 5) ∧ p.d.toNat < 16
    (whole → s3.putBytes (jr + 4) [0, 0, 0, 0] = .ok s4) → (¬ whole → s4 = s3) →
    let z : State := { s4 with suspended := s4.suspended.erase p }
    let frame := fun (c : Ctx) (slot : Nat) => { c.ofLine slot line with
      segments := p.segments, stolenSeg := none, path := p.path, fencedAt := min c.fencedAt p.fencedAt }
    (stDet s.me.status = true → resumeParent jr p s = .ok ((z.queueWork p.ident.launch p.ident.team (.resume
      { frame Ctx.blank 1 with live := true, tasid := p.asid, fencedAt := p.fencedAt } p.d
        (if whole then some j.fold else none))).endThread s.cur 0)) ∧
    (stDet s.me.status = false →
      let w := (z.dropLanes s.cur).modMe fun c => frame c (slotOf s.cur)
      resumeParent jr p s = .ok ((if whole then finish w [] p.d j.fold else w).giveUpTeam p.ident.launch p.ident.team)))) ∧
  ((∀ j : Join, (∀ c ∈ j.children, c.1 = 0) → j.fold = 0) ∧
  (∀ (j : Join) (c : Byte × Word), j.children.filter (fun c => c.1 != 0) = [c] → j.fold = c.2) ∧
  (∀ (j : Join) (c x : Byte × Word) (cs : List (Byte × Word)), j.children.filter (fun c => c.1 != 0) = c :: (cs ++ [x]) →
    ∀ k : Join, k.children.filter (fun c => c.1 != 0) = c :: cs → j.fold = reduce x.1 k.fold x.2) ∧
  (∀ j : Join, j.children = (j.reds.zip j.vals).take j.count.toNat) ∧
  (∀ x y : Word, reduce 1 x y = x + y ∧ reduce 5 x y = x ||| y ∧
    reduce 2 x y = (fpReg (addV .f64 .ne false (fpVal .f64 x) (fpVal .f64 y))).1 ∧
    (reduce 3 x y).toInt = min x.toInt y.toInt ∧ (reduce 4 x y).toInt = max x.toInt y.toInt))

/-! ## Channels (R26, R248-R250) -/

/-- `chopen`, `chaccept`, `chclose`, `chstat`: a lent task, a team or thread that the launch has not, an end already bound,
or a partner other than the queue's, traps CHAN with the port; otherwise cout or cin is bound, the queue's end noted; closing
cout performs what precedes the values pushed, pushes the end mark and unbinds; closing cin discards the queue and what is on
its way to it; the status word holds the entries in use in [3:0], bound in bit 4, end and abort marks in bits 5 and 6, the
partner's team and thread in [23:8] and [27:24], and is refused with ORDER to a deterministic launch (R248-R250). The model's
readings in it: log entry 37. -/
def Obligations.ChannelInstructions : Prop :=
  ∀ s : State,
    let i := s.issued false
    let c := s.me
    let n := (s.launch c.ident.launch).n
    let me := (c.ident.team, c.ident.thr)
    (∀ (a b : BitVec 5) (x y : Word), MayIssue s 0 [.src 1 a, .src 2 b] → rd s a = .ok x → rd s b = .ok y →
      let e := (x.toNat, y.toNat)
      let ok := c.lent = false ∧ x.toNat < n ∧ y.toNat ≤ 15
      let out := s.chan (chanKey ⟨c.ident.launch, x.toNat, y.toNat⟩)
      (¬ ok → exec (.chopen a b) s = .next (i.trapAt s.cur .chan 25 0) ∧
        exec (.chaccept a b) s = .next (i.trapAt s.cur .chan 24 0)) ∧
      (ok → (c.cout ≠ none ∨ (out.writer ≠ none ∧ out.writer ≠ some me) ∨ (out.accepted ≠ none ∧ out.accepted ≠ some me)) →
        exec (.chopen a b) s = .next (i.trapAt s.cur .chan 25 0)) ∧
      (ok → c.cout = none → (out.writer = none ∨ out.writer = some me) → (out.accepted = none ∨ out.accepted = some me) →
        exec (.chopen a b) s = .next (finishNo ((i.modChan (chanKey ⟨c.ident.launch, x.toNat, y.toNat⟩) fun ch =>
          { ch with writer := some me, closed := false }).modMe fun c => { c with cout := some e }) [a, b])) ∧
      (ok → (c.cin ≠ none ∨ ((s.chan c.inKey).writer ≠ none ∧ (s.chan c.inKey).writer ≠ some e)) →
        exec (.chaccept a b) s = .next (i.trapAt s.cur .chan 24 0)) ∧
      (ok → c.cin = none → ((s.chan c.inKey).writer = none ∨ (s.chan c.inKey).writer = some e) →
        exec (.chaccept a b) s = .next ((((i.consume s.cur [a, b]).modChan c.inKey fun ch => { ch with accepted := some e }).modMe
          fun c => { c with cin := some e }).advance s.cur))) ∧
    (∀ p : BitVec 5, MayIssue s 0 [.port 1 p] → (p = 24 ∨ p = 25) →
      (p = 25 → c.cout = none → exec (.chclose p) s = .next (i.trapAt s.cur .chan 25 0)) ∧
      (p = 25 → c.cout ≠ none → exec (.chclose p) s = .next ((((i.settlePushes s.cur).pushItem s.cur (.mark .endMark)).unbindOut s.cur).advance s.cur)) ∧
      (p = 24 → c.cin = none → exec (.chclose p) s = .next (i.trapAt s.cur .chan 24 0)) ∧
      (p = 24 → c.cin ≠ none → exec (.chclose p) s = .next ((({ i with
          cores := i.cores.map fun (x : Nat × Core) => (x.1, { x.2 with pushDue := x.2.pushDue.filter fun p => p.2 ≠ c.inKey }) }.modChan c.inKey
        fun ch => { ch with q := [], inFlight := [], closed := ch.writer.isSome }).unbindIn s.cur).advance s.cur))) ∧
    (∀ d p : BitVec 5, MayIssue s 0 [.dst 0 d, .port 1 p] → (p = 24 ∨ p = 25) →
      (stDet c.status = true → exec (.chstat d p) s = .next (i.trapAt s.cur .order 0 0)) ∧
      (stDet c.status = false → p = 24 → exec (.chstat d p) s = .next (finish i [] d
        (chanStatus c.cin ((s.chan c.inKey).q.filter Item.isVal).length (s.chan c.inKey).q))) ∧
      (stDet c.status = false → p = 25 → c.cout = none → exec (.chstat d p) s = .next (finish i [] d 0)) ∧
      (stDet c.status = false → p = 25 → ∀ k, c.outKey = some k → exec (.chstat d p) s = .next (finish i [] d
        (chanStatus c.cout (s.chan k).used ((s.chan k).q ++ (s.chan k).inFlight))))) ∧
    (∀ (team thr used : Nat) (items : List Item), used < 16 → 
      let w := chanStatus (some (team, thr)) used items
      w.toNat % 16 = used ∧ w.getLsbD 4 = true ∧ w.getLsbD 5 = items.contains (.mark .endMark) ∧
      w.getLsbD 6 = items.contains (.mark .abortMark) ∧ w.toNat / 256 % 65536 = team % 65536 ∧ w.toNat / 2 ^ 24 = thr % 16)

/-! ## The vault (R255-R275, R372-R388) -/

/-- `adict`, `acfg`, `arun`: a mask that names no group, a set reserved bit, or for `acfg` and `arun` groups of both dies,
traps OPND; a group that the partition does not hold, PERM. `adict` reads its words, waits with them while a named group has
an `acfg` token queued or running, and asks each die that the mask names, at once or at its slot after that wait; `acfg` and
`arun` check their operand registers, a set reserved bit naming the register that holds it, and take a token for the groups
(R81, R256-R262, R264, R266). Model's choices: `adict` performs the posted writes first (log entry 11), 0 in bits 15:8 of an
OPND record for a source (log entry 7). `aset`, `ascale`, `asample`, `astop`, `acal`, `astat`: a range that is empty, above
4096 or on two dies traps OPND, a group that is not held PERM, an unconfigured one VAULT with its number; a value that `aset`
or `ascale` may not take traps with its index; otherwise the die of the range is asked, the pointer advances and the thread
waits for the answer. `astop` and `acal` ask each die that the mask names; `acal` waits while a named group runs; `astat`
reads the status word (R263-R265, R268, R270-R275). The model's choices: log entries 7 (0 for a source value, an element's
index modulo 256), 11 (posted writes are performed first), 24, and 87 (the joint check of a and b names b). -/
def Obligations.VaultInstructions : Prop :=
  (∀ (s : State) (d a b : BitVec 5) (e : BitVec 3) (x : Word),
    let i := s.issued false
    let p := s.myPart
    let named := fun (w : Word) => w.extractLsb' 16 48 = 0 ∧ w ≠ 0
    let oneDie := fun (w : Word) => w.extractLsb' 0 8 = 0 ∨ w.extractLsb' 8 8 = 0
    let held := fun (w : Word) => ∀ g, g < 16 → w.getLsbD g = true → g ∈ p.vaultGroups
    let v := vget 0 s.me.e e.toNat
    let w := vget 0 s.me.e (e.toNat + 1)
    (∀ m r, MayIssue s 0 [.gsrc 0 d, .src 1 a, .src 2 b] → rd s d = .ok m → rd s a = .ok x → rd s b = .ok r →
      (¬ named m → exec (.adict d a b) s = .next (i.trapAt s.cur .opnd 0 0)) ∧
      (named m → ¬ held m → exec (.adict d a b) s = .next (i.trapAt s.cur .perm 0 0)) ∧
      (named m → held m →
        let first := r.toNat % 256
        let n := r.toNat / 256 % 512
        let ranged := r.extractLsb' 17 47 = 0 ∧ n ≠ 0 ∧ first + n ≤ 256
        (¬ ranged → exec (.adict d a b) s = .next (i.trapAt s.cur .opnd 2 0)) ∧
        (ranged → ∀ ls s1, State.blocks 8 8 .load ((List.range n).map fun j => x + BitVec.ofNat 64 (8 * j)) (i.performAll s.cur) =
          .ok (ls, s1) →
          let ws : List Word := ls.map fun l => ofBytes 64 (s1.read l 8)
          (s1.acfgPending (m.setWidth 16) = true →
            exec (.adict d a b) s = .next (s1.modMe fun c => { c with wait := .dict (m.setWidth 16) first ws [a, b] })) ∧
          (s1.acfgPending (m.setWidth 16) = false →
            exec (.adict d a b) s = .next (s1.askAll (diesOf (m.setWidth 16) fun k => .dict k first ws) [a, b] none))))) ∧
    (∀ k m first ws srcs, SlotComes s k → (s.atSlot k).me.wait = .dict m first ws srcs →
      (s.atSlot k).runnable (s.atSlot k).cur = true →
      step s = .next (State.afterSlot k (s.slotThread k) ((s.atSlot k).askAll (diesOf m fun k => .dict k first ws) srcs none))) ∧
    (MayIssue s 0 ((if d = 0 then [] else [.dst 0 d]) ++ [.src 1 a, .ext e.toNat 2, .token]) → rd s a = .ok x →
      let len := w.toNat % 2 ^ 24
      let ranged := w.extractLsb' 27 37 = 0 ∧ 8 ≤ len ∧ len % 8 = 0
      (¬ (named x ∧ oneDie x) → exec (.acfg d a e) s = .next (i.trapAt s.cur .opnd 1 0)) ∧
      (named x → oneDie x → ¬ held x → exec (.acfg d a e) s = .next (i.trapAt s.cur .perm 0 0)) ∧
      (named x → oneDie x → held x →
        (¬ ranged → exec (.acfg d a e) s = .next (i.trapAt s.cur .opnd (BitVec.ofNat 64 (3 + 256 * (e.toNat + 1))) 0)) ∧
        (ranged → canonical v = false → exec (.acfg d a e) s = .next (i.trapAt s.cur .addr 0 v)) ∧
        (ranged → canonical v = true → v.toNat % 8 ≠ 0 → exec (.acfg d a e) s = .next (i.trapAt s.cur .align 0 v)) ∧
        (ranged → canonical v = true → v.toNat % 8 = 0 → exec (.acfg d a e) s = .next
          (i.takeToken (.acfg (x.setWidth 16) (v.setWidth 57) len) (w.extractLsb' 25 2 ^^^ 1) (w.getLsbD 24) (d != 0) d [a])))) ∧
    (∀ limit, MayIssue s 0 ((if d = 0 then [] else [.dst 0 d]) ++ [.src 1 a, .src 2 b, .ext e.toNat 2, .token]) →
      rd s a = .ok x → rd s b = .ok limit →
      let threshold : BitVec 16 := v.extractLsb' 0 16
      let hold : BitVec 16 := v.extractLsb' 16 16
      let tau := v.toNat / 2 ^ 32 % 16
      let timeout : Word32 := w.setWidth 32
      let clean := v.extractLsb' 39 25 = 0 ∧ tau ≤ 10
      let upper := w.extractLsb' 32 32 = 0
      let ends := (threshold = 0 ∨ hold ≠ 0) ∧ (threshold ≠ 0 ∨ timeout = 0) ∧ (limit.setWidth 32 ≠ (0 : Word32) ∨ timeout ≠ 0)
      (¬ (named x ∧ oneDie x) → exec (.arun d a b e) s = .next (i.trapAt s.cur .opnd 1 0)) ∧
      (named x → oneDie x → ¬ held x → exec (.arun d a b e) s = .next (i.trapAt s.cur .perm 0 0)) ∧
      (named x → oneDie x → held x →
        (clean → ¬ upper → exec (.arun d a b e) s = .next (i.trapAt s.cur .opnd (BitVec.ofNat 64 (3 + 256 * (e.toNat + 1))) 0)) ∧
        (clean → upper → limit.extractLsb' 32 32 ≠ 0 → exec (.arun d a b e) s = .next (i.trapAt s.cur .opnd 2 0)) ∧
        (¬ clean ∨ (upper ∧ limit.extractLsb' 32 32 = 0 ∧ ¬ ends) →
          exec (.arun d a b e) s = .next (i.trapAt s.cur .opnd (BitVec.ofNat 64 (3 + 256 * e.toNat)) 0)) ∧
        (clean → upper → limit.extractLsb' 32 32 = 0 → ends → exec (.arun d a b e) s = .next
          (i.takeToken (.arun (x.setWidth 16) (limit.setWidth 32) threshold hold tau timeout none) (v.extractLsb' 37 2 ^^^ 1)
            (v.getLsbD 36) (d != 0) d [a, b]))))) ∧
  (∀ (s : State) (d a b : BitVec 5) (e : BitVec 3) (x y : Word), rd s a = .ok x →
    let i := s.issued false
    let p := s.myPart
    let u := i.performAll s.cur
    let n := y.toNat
    let ranged := 0 < n ∧ n ≤ 2048 ∧ x.toNat + n ≤ 4096 ∧ x.toNat / 2048 = (x.toNat + n - 1) / 2048
    let gs := (List.range 16).filter fun g => x.toNat / 256 ≤ g && g ≤ (x.toNat + n - 1) / 256
    let held := ∀ g ∈ gs, g ∈ p.vaultGroups
    let ready := ∀ g ∈ gs, (s.vgroup g).cfg = .configured
    (MayIssue s 0 [.file 0 d 7, .src 1 a, .src 2 b] → rd s b = .ok y →
      (∀ j ∈ [Instr.aset d a b, .ascale d a b],
        (¬ ranged → exec j s = .next (i.trapAt s.cur .opnd 2 0)) ∧
        (ranged → ¬ held → exec j s = .next (i.trapAt s.cur .perm 0 0)) ∧
        (ranged → held → ∀ g, gs.find? (fun g => (s.vgroup g).cfg != .configured) = some g →
          exec j s = .next (i.trapAt s.cur .vault (BitVec.ofNat 64 (1 + 256 * g)) 0))) ∧
      (ranged → held → ready →
        let st : Strm := srcStrm d 4
        let vals : List Word32 := (u.column n st).map fun w => w.extractLsb' 0 32
        let go := fun (ask : VAsk) => ((u.askAll [(x.toNat / 2048, ask)] [a, b] none).modMe fun c =>
          { c with p := advancePtrs n [st] c.p })
        firstOf n [st] u.badElem = none → firstOf n [st] u.badRead = none →
        ((∀ v ∈ vals, (decodeF .f32 v.toNat).finite = true) → exec (.aset d a b) s = .next (go (.setInit x.toNat vals))) ∧
        (∀ j, (∀ k, k < j → (decodeF .f32 (vals.getD k 0).toNat).finite = true) → j < vals.length →
          (decodeF .f32 (vals.getD j 0).toNat).finite = false →
          exec (.aset d a b) s = .next (i.trapAt s.cur .vault (BitVec.ofNat 64 (4 + 256 * j)) 0)) ∧
        ((∀ v ∈ vals, -32 ≤ v.toInt ∧ v.toInt ≤ 31) →
          exec (.ascale d a b) s = .next (go (.setScale x.toNat (vals.map BitVec.toInt)))) ∧
        (∀ j, (∀ k, k < j → -32 ≤ (vals.getD k 0).toInt ∧ (vals.getD k 0).toInt ≤ 31) → j < vals.length →
          ((vals.getD j 0).toInt < -32 ∨ 31 < (vals.getD j 0).toInt) →
          exec (.ascale d a b) s = .next (i.trapAt s.cur .opnd (BitVec.ofNat 64 (256 * (j % 256))) 0)))) ∧
    (MayIssue s 0 [.src 1 a, .src 2 b, .ext e.toNat 1] → rd s b = .ok y →
      let w := vget 0 s.me.e e.toNat
      (¬ ranged → exec (.asample a b e) s = .next (i.trapAt s.cur .opnd 2 0)) ∧
      (ranged → w.extractLsb' 58 6 ≠ 0 →
        exec (.asample a b e) s = .next (i.trapAt s.cur .opnd (BitVec.ofNat 64 (3 + 256 * e.toNat)) 0)) ∧
      (ranged → w.extractLsb' 58 6 = 0 → ¬ held → exec (.asample a b e) s = .next (i.trapAt s.cur .perm 0 0)) ∧
      (ranged → w.extractLsb' 58 6 = 0 → held → ready → w.getLsbD 57 = false → ∀ ls u2,
        State.targets 8 ((List.range n).map fun j => canon (w.extractLsb' 0 57) + BitVec.ofNat 64 (8 * j)) u = .ok (ls, u2) →
        exec (.asample a b e) s = .next (u2.askAll [(x.toNat / 2048, .sample x.toNat n ls)] [a, b] none)) ∧
      (ranged → w.extractLsb' 58 6 = 0 → held → ready → w.getLsbD 57 = true → ∀ ls,
        ((List.range n).map fun j => (w.extractLsb' 0 57).setWidth 64 + BitVec.ofNat 64 (8 * j)).mapM (fun ea =>
          (u.scratch u.cur false ea 8 Acc.store.code).map fun l => (l.loc, l.via)) = .ok ls →
        exec (.asample a b e) s = .next (u.askAll [(x.toNat / 2048, .sample x.toNat n ls)] [a, b] none)) ∧
      (ranged → w.extractLsb' 58 6 = 0 → held → ∀ g, gs.find? (fun g => (s.vgroup g).cfg != .configured) = some g →
        exec (.asample a b e) s = .next (i.trapAt s.cur .vault (BitVec.ofNat 64 (1 + 256 * g)) 0))) ∧
    (MayIssue s 0 [.dst 0 d, .src 1 a] →
      let named := x.extractLsb' 16 48 = 0 ∧ x ≠ 0
      let mine := ∀ g, g < 16 → x.getLsbD g = true → g ∈ p.vaultGroups
      (¬ named → exec (.astop d a) s = .next (i.trapAt s.cur .opnd 1 0) ∧ exec (.acal d a) s = .next (i.trapAt s.cur .opnd 1 0)) ∧
      (named → ¬ mine → exec (.astop d a) s = .next (i.trapAt s.cur .perm 0 0) ∧ exec (.acal d a) s = .next (i.trapAt s.cur .perm 0 0)) ∧
      (named → mine → exec (.astop d a) s = .next (i.askAll (diesOf (x.setWidth 16) .stop) [a] (some d)) ∧
        (i.groupRuns (x.setWidth 16) = true →
          exec (.acal d a) s = .next (i.modMe fun c => { c with wait := .cond (.runPending (x.setWidth 16)) })) ∧
        (i.groupRuns (x.setWidth 16) = false →
          exec (.acal d a) s = .next (i.askAll (diesOf (x.setWidth 16) .calibrate) [a] (some d)))) ∧
      (16 ≤ x.toNat → exec (.astat d a) s = .next (i.trapAt s.cur .opnd 1 0)) ∧
      (x.toNat < 16 → x.toNat ∉ p.vaultGroups → exec (.astat d a) s = .next (i.trapAt s.cur .perm 0 0)) ∧
      (x.toNat < 16 → x.toNat ∈ p.vaultGroups → ∃ v : Word, exec (.astat d a) s = .next (finish i [a] d v) ∧
        let g := s.vgroup x.toNat
        (v.toNat % 4 = match g.cfg with
          | .unconfigured => 0
          | .configuring => 1
          | .configured => 2) ∧
        (g.run ≠ .running → g.run ≠ .calibrating → v.toNat / 4 % 4 =
          if s.groupHas ((1 : BitVec 16) <<< x.toNat) fun t => t.op.isRun && (t.state == .queued || t.state == .permit) then 1 else 0) ∧
        (g.run = .running → v.toNat / 4 % 4 = 2) ∧ (g.run = .calibrating → v.toNat / 4 % 4 = 3) ∧
        v.extractLsb' 4 4 = g.last ∧ v.getLsbD 8 = s.calibrated x.toNat ∧ v.extractLsb' 16 32 = g.runTime ∧
        v.extractLsb' 48 16 = g.cfgGen)))

/-- Vault dies. An image whose words are all read and that expands configures each named group anew; one that breaks its
format faults its token with VAULT, reason 2 and the byte offset, one that cannot be read with the class and address of that
read; both leave the groups unconfigured. A run starts on configured groups only (reason 1), with every effective exponent in
−16 to 7 (reason 3, lowest integrator); each captured value is loaded as the integer nearest v_0 × 2^(−k) × 32,768, and one
beyond 16 bits faults it with ASAT at run time 0, the integrators loaded (log entry 73); else the groups run from 0. No tick
passes while the device is frozen; a tick counts the clock and, saturating, the run times; integration adds 1/τ of a mean
within ±8, the summer's output where no input moves, as none does where the summers of all it depends on are 0 (the mean is
else free, log entry 30); then the first integrator beyond ±1.0 faults its run with ASAT, a settled run ends with 1, a settle
time-out with 2, a limit with 3. A die applies its oldest request, but a sample waits for a calibration, and any but a stop
for one that arrived before; the thread goes on with its dies' sum of answers; a stop answers how many runs of the issuer's
partition it ended. Samples are written after 32 ticks; a calibration ends after 2^16: a group all of whose columns measured
constants within the limits takes them, another keeps its own, invalid. A column expires at 2^36 ticks of age, or where the
temperature moved by more than 8 (R257, R262, R264, R266, R267, R270, R273, R274, R373, R374, R379, R381, R384, R385, R387,
R388; readings: log entries 24 (DEDUCED: what cannot be taken yet holds back those behind it; a sample waits for an earlier
calibration), 31, 32, 87). -/
def Obligations.VaultEvents : Prop :=
  ((∀ (s u : State) (h : BitVec 32) (mask : BitVec 16) (img : BitVec 57) (len : Nat) (ws : List Word),
    (s.token h).op = .acfg mask img len →
    let gs := (List.range 16).filter mask.getLsbD
    let out := expandImage (s.part (s.token h).part.toNat).vaultGroups.contains (fun g => (s.vgroup g).dict) len gs 0 ws
    ((s.token h).state ≠ .running → exec (.acfgComplete h) s = .next s) ∧
    ((s.token h).state = .running →
      s.imageWords h ((List.range (len / 8)).map fun j => canon img + BitVec.ofNat 64 (8 * j)) [] [] = (ws, none, u) →
      (∀ cells, out = .ok cells → exec (.acfgComplete h) s = .next
        ((cells.foldl (fun v c => v.modVGroup c.1 fun g => g.configure c.2) u).endToken h .done 0 0)) ∧
      (∀ o, out = .error o → exec (.acfgComplete h) s = .next ((gs.foldl (fun v g => v.modVGroup g fun c =>
        { c with cfg := .unconfigured, cells := [] }) u).endToken h .faulted 0 (BitVec.ofNat 64 (31 + 2 * 256 + o % 2 ^ 48 * 65536))))) ∧
    ((s.token h).state = .running → ∀ cls va,
      s.imageWords h ((List.range (len / 8)).map fun j => canon img + BitVec.ofNat 64 (8 * j)) [] [] = (ws, some (cls, va, none), u) →
      (∀ o, out = .error o → 8 * ws.length ≤ o) →
      exec (.acfgComplete h) s = .next ((gs.foldl (fun v g => v.modVGroup g fun c =>
        { c with cfg := .unconfigured, cells := [] }) ((u.engSought h cls va none).noteFault h cls va)).endToken h .faulted 0
          (tokRecord cls va)))) ∧
  (∀ (v : VGroup) (cells : Tbl Word),
    let g := v.configure cells
    g.cfg = .configured ∧ g.cfgGen = v.cfgGen + 1 ∧ g.cells = cells ∧ g.dict = v.dict ∧ g.run = .holding ∧ g.last = 0 ∧
      g.runTime = 0 ∧ g.init = [] ∧ g.scale = [] ∧ g.x = []) ∧
  (∀ (s : State) (gs : List Nat) (cap : List (Nat × Word32 × Int)),
    (∀ g, gs.find? (fun g => (s.vgroup g).cfg != .configured) = some g →
      s.startRun gs cap = .error (BitVec.ofNat 64 (31 + 1 * 256 + g % 2 ^ 48 * 65536))) ∧
    let k := fun (j : Nat) => match cap.find? fun c => c.1 == j with
      | some c => c.2.2
      | none => s.scaleOf j
    let outside := fun (g : Nat) (q : Path) => q.effective k (256 * g + q.pos) < -16 ∨ 7 < q.effective k (256 * g + q.pos)
    let all := (∀ g ∈ gs, (s.vgroup g).cfg = .configured)
    let good := all ∧ ∀ g ∈ gs, ∀ q ∈ s.paths g, ¬ outside g q
    let codes := s.startCodes gs cap
    let fits := fun (c : Nat × Int) => -32768 ≤ c.2 ∧ c.2 ≤ 32767
    (all → ∀ i, (∃ g ∈ gs, ∃ q ∈ s.paths g, outside g q ∧ i = 256 * g + q.pos) →
      (∀ g ∈ gs, ∀ q ∈ s.paths g, outside g q → i ≤ 256 * g + q.pos) →
      s.startRun gs cap = .error (BitVec.ofNat 64 (31 + 3 * 256 + i % 2 ^ 48 * 65536))) ∧
    (good → ∀ c, codes.find? (fun c => decide (¬ fits c)) = some c → s.startRun gs cap = .error (asatRecord c.1 0)) ∧
    (good → (∀ c ∈ codes, fits c) → ∃ t, s.startRun gs cap = .ok t) ∧
    (∀ g ∈ gs, ∀ p ∈ (s.vgroup g).integrators, ∀ c, cap.find? (fun c => c.1 == 256 * g + p) = some c →
      (256 * g + p, startCode c.2.1 c.2.2) ∈ codes) ∧
    (∀ t, s.startRun gs cap = .ok t → good ∧ (∀ c ∈ codes, fits c) ∧ ∀ g ∈ gs,
      (t.vgroup g).run = .running ∧ (t.vgroup g).runTime = 0 ∧ (t.vgroup g).counting = true ∧
      ∀ p ∈ (s.vgroup g).integrators, ∀ c, cap.find? (fun c => c.1 == 256 * g + p) = some c →
        Tbl.get 0 (t.vgroup g).x p = (startCode c.2.1 c.2.2 : Rat) / 32768)) ∧
  (∀ (s : State) (h : BitVec 32) (mask : BitVec 16) (limit timeout : Word32) (th hd : BitVec 16) (tau : Nat)
    (cap : List (Nat × Word32 × Int)), (s.token h).op = .arun mask limit th hd tau timeout (some cap) →
    let gs := (List.range 16).filter mask.getLsbD
    let z := (gs.foldl (fun v g => v.setEngine (.vault g) (some h)) s).modToken h fun t => { t with state := .running }
    (∀ t, z.startRun gs cap = .ok t → s.runToken h = t) ∧
    (∀ f, z.startRun gs cap = .error f → f.extractLsb' 0 8 = (32 : Byte) →
      s.runToken h = ((z.loadCodes gs (z.startCodes gs cap)).endRunGroups gs 4).endToken h .faulted 0 f) ∧
    (∀ f, z.startRun gs cap = .error f → f.extractLsb' 0 8 ≠ (32 : Byte) →
      s.runToken h = (z.endRunGroups gs 6).endToken h .faulted 0 f)) ∧
  (∀ (v0 : Word32) (k : Int), (decodeF .f32 v0.toNat).finite = true →
    let y := rat32 v0 * ratPow2 (-k) * 32768
    2 * ratAbs ((startCode v0 k : Rat) - y) ≤ 1 ∧ (2 * ratAbs ((startCode v0 k : Rat) - y) = 1 → startCode v0 k % 2 = 0))) ∧
  (∀ (s : State) (die : Nat),
    (s.fw.frozen = true → exec (.vaultTick die) s = .next s) ∧
    (s.fw.frozen = false → (s.vdie die).cals = [] →
      (∀ x ∈ s.allTokens, x.2.state = .running → x.2.op.isRun = true → x.2.op.vaultDie ≠ some die) →
      ∃ t, exec (.vaultTick die) s = .next t ∧ (t.vdie die).ticks = (s.vdie die).ticks + 1 ∧
        (∀ g, g / 8 = die → (t.vgroup g).runTime =
          if (s.vgroup g).counting = true ∧ (s.vgroup g).runTime ≠ 0xFFFFFFFF then (s.vgroup g).runTime + 1
          else (s.vgroup g).runTime) ∧
        (∀ g, g / 8 ≠ die → t.vgroup g = s.vgroup g) ∧ t.mem = s.mem ∧ t.threads = s.threads) ∧
    (∀ gs tau i x, (i, x) ∈ s.nextValues gs tau → ∃ m : Rat, -8 ≤ m ∧ m ≤ 8 ∧ x = s.fabricOf i + m / (100 * 2 ^ tau) ∧
      ((∀ q ∈ s.paths (i / 256), q.pos = i % 256 → s.drift (i / 256) q = 0) → m = s.summer (i / 256) (i % 256)) ∧
      (s.summer (i / 256) (i % 256) = 0 → (∀ k ∈ s.moving (i / 2048), s.summer (k / 256) (k % 256) = 0) →
        x = s.fabricOf i)) ∧
    (∀ i, s.moves i ≤ 8 * s.rate i ∧ s.moves i ≤ s.reachOf i ∧
      ((∀ j ∈ s.coupled i, s.summer (j / 256) (j % 256) = 0) → s.reachOf i = 0)) ∧
    (∀ i, (i ∈ s.moving (i / 2048) → i ∈ s.coupled i) ∧ (∀ j ∈ s.coupled i, j ∈ s.moving (i / 2048)) ∧
      (∀ j ∈ s.sourcesOf i, j ∈ s.moving (i / 2048) → j ∈ s.coupled i) ∧
      ((∀ j ∈ s.sourcesOf i, j ∈ s.moving (i / 2048) → j = i) → ∀ j ∈ s.coupled i, j = i)) ∧
    (s.fw.frozen = false →
      let s1 := s.modVDie die fun v => { v with ticks := v.ticks + 1 }
      let s2 := ((List.range 8).map (8 * die + ·)).foldl (fun v g => v.modVGroup g fun x =>
        if x.counting = true ∧ x.runTime ≠ 0xFFFFFFFF then { x with runTime := x.runTime + 1 } else x) s1
      let s3 := ((List.range 64).map (64 * die + ·)).foldl State.expire s2
      let hs := (s3.allTokens.filter fun t => t.2.state == .running && t.2.op.isRun && t.2.op.vaultDie == some die).map Prod.fst
      let s4 := (hs.foldl State.runTick (s3.integrate hs)).beginCals die
      exec (.vaultTick die) s = .next (postAll (s4.tickDue die) s4)) ∧
    (∀ (hs : List (BitVec 32)) h mask limit th hold tau timeout cap, hs.Nodup → h ∈ hs →
      (s.token h).op = .arun mask limit th hold tau timeout cap →
      (∀ h' ∈ hs, h' ≠ h → ∀ m l t1 t2 t3 t4 c, (s.token h').op = .arun m l t1 t2 t3 t4 c → m &&& mask = 0) →
      ∀ x ∈ s.nextValues ((List.range 16).filter mask.getLsbD) tau, (s.integrate hs).fabricOf x.1 = x.2) ∧
    (∀ (h : BitVec 32) (mask : BitVec 16) limit (th hold : BitVec 16) tau timeout cap,
      (s.token h).op = .arun mask limit th hold tau timeout cap →
      let gs := (List.range 16).filter mask.getLsbD
      let now := (s.vgroup (gs.headD 0)).runTime.toNat
      let ended := fun (v : State) (code : BitVec 4) => gs.foldl (fun v g => v.modVGroup g fun x =>
        { x with run := .holding, last := code, token := none }) v
      let u := if th = 0 then s else s.countQuiet gs th
      let settled := th ≠ 0 ∧ hold.toNat ≤ now ∧ ∀ i ∈ s.runInts gs, hold.toNat ≤ Tbl.get 0 (u.vgroup (i / 256)).quiet (i % 256)
      (∀ i, (s.runInts gs).find? (fun i => decide (1 < ratAbs (s.fabricOf i))) = some i →
        s.runTick h = (ended s 4).endToken h .faulted 0 (asatRecord i now)) ∧
      ((∀ i ∈ s.runInts gs, ratAbs (s.fabricOf i) ≤ 1) →
        (settled → s.runTick h = (ended u 1).endToken h .done 1 0) ∧
        (¬ settled → s.runTick h = (u.timeUp h true).timeUp h false))) ∧
    (∀ gs (th : BitVec 16) i, gs.Nodup → i ∈ s.runInts gs →
      Tbl.get 0 ((s.countQuiet gs th).vgroup (i / 256)).quiet (i % 256) =
        if ratAbs (s.summer (i / 256) (i % 256)) ≤ (th.toNat : Rat) / 65536
        then Tbl.get 0 (s.vgroup (i / 256)).quiet (i % 256) + 1 else 0) ∧
    (∀ (h : BitVec 32) (mask : BitVec 16) limit th hold tau timeout cap, (s.token h).op = .arun mask limit th hold tau timeout cap →
      let gs := (List.range 16).filter mask.getLsbD
      let now := (s.vgroup (gs.headD 0)).runTime
      let endedWith := fun (code : BitVec 4) => (gs.foldl (fun v g => v.modVGroup g fun x =>
        { x with run := .holding, last := code, token := none }) s).endToken h .done (code.setWidth 16) 0
      ((s.token h).state = .running → timeout ≠ 0 → now = timeout → exec (.settleTimeout h) s = .next (endedWith 2)) ∧
      ((s.token h).state ≠ .running ∨ timeout = 0 ∨ now ≠ timeout → exec (.settleTimeout h) s = .next s) ∧
      ((s.token h).state = .running → limit ≠ 0 → now = limit → exec (.runTimeLimit h) s = .next (endedWith 3)) ∧
      ((s.token h).state ≠ .running ∨ limit = 0 ∨ now ≠ limit → exec (.runTimeLimit h) s = .next s))) ∧
  (∀ (s : State) (die thr : Nat),
    ((s.vdie die).reqs = [] → exec (.vaultRequestArrival die) s = .next s) ∧
    (∀ r rs, (s.vdie die).reqs = r :: rs →
      (s.askWaits die r.ask = true → exec (.vaultRequestArrival die) s = .next s) ∧
      (s.askWaits die r.ask = false → ∃ t, exec (.vaultRequestArrival die) s = .next t ∧
        let u := (s.modVDie die fun v => { v with reqs := rs }).applyAsk die r
        t = (if rs = [] then u else u.post (.vaultRequest die)))) ∧
    (∀ mask, s.askWaits die (.calibrate mask) = false ∧ s.askWaits die (.stop mask) = false) ∧
    (let yet := fun (g : Nat) => ∃ c ∈ (s.vdie die).cals, c.begun = false ∧ c.mask.getLsbD g = true
     let spans := fun (first n g : Nat) => g < 16 ∧ first / 256 ≤ g ∧ g ≤ (first + n - 1) / 256
     (∀ first n cells, s.askWaits die (.sample first n cells) = true ↔
        ∃ g, spans first n g ∧ ((s.vgroup g).run = .calibrating ∨ yet g)) ∧
     (∀ first vals, s.askWaits die (.setInit first vals) = true ↔ ∃ g, spans first vals.length g ∧ yet g) ∧
     (∀ first vals, s.askWaits die (.setScale first vals) = true ↔ ∃ g, spans first vals.length g ∧ yet g) ∧
     (∀ (mask : BitVec 16) b x, s.askWaits die (.dict mask b x) = true ↔ ∃ g, g < 16 ∧ mask.getLsbD g = true ∧ yet g) ∧
     (∀ h, s.askWaits die (.capture h) = true ↔
        ∃ g, (.vault g) ∈ (s.token h).op.engines (hCourse h) ∧ vaultDieOf g = die ∧ yet g)) ∧
    (∀ (r : VReq) mask, r.ask = .stop mask →
      let hs := s.runsAt r.part mask
      s.applyAsk die r = (hs.foldl State.stopRun s).answer r.thr r.who (BitVec.ofNat 64 hs.length) ∧
      ∀ h ∈ hs, ∃ t, (h, t) ∈ s.allTokens ∧ t.state = .running ∧ t.part.toNat = r.part) ∧
    (∀ g failed,
      let m := fun c => measuredBounds (s.fresh + c)
      let meets := fun (x : Word32 × Word32 × Word32 × Word32) => rat32 x.1 ≤ ratPow2 (-13) ∧ rat32 x.2.1 ≤ ratPow2 (-10) ∧
        rat32 x.2.2.1 ≤ ratPow2 (-28) ∧ rat32 x.2.2.2 ≤ ratPow2 (-12)
      let t := s.calibrateGroup die g failed
      let y := fun c => t.1.calib (8 * g + c)
      (t.2 = true → failed = false ∧ ∀ c < 8, meets (m c) ∧ (y c).cAdc = (m c).1 ∧ (y c).cGain = (m c).2.1 ∧
        (y c).cDrift = (m c).2.2.1 ∧ (y c).cOffset = (m c).2.2.2 ∧ (y c).v = true ∧ (y c).temp = (s.vdie die).temp ∧
        (y c).calTick = BitVec.ofNat 64 (s.vdie die).ticks) ∧
      (t.2 = false → ∀ c < 8, y c = { s.calib (8 * g + c) with v := false }) ∧
      ((∃ c < 8, ¬ meets (m c)) → t.2 = false) ∧ (t.1.vgroup g).run = .holding) ∧
    (∀ (c : Calibrating) g, (List.range 16).filter c.mask.getLsbD = [g] →
      let x := s.calibrateGroup die g c.failed
      s.endCal die c = (postAll [.tokenSelect (.vault g)] (((x.1.modVDie die fun v =>
        { v with cals := v.cals.filter fun x => x != c }).answer c.thr c.who (if x.2 then 0 ||| (1 : Word) <<< g else 0)).beginCals die)).post
          (.vaultRequest die)) ∧
    (∀ who v, (s.ctx thr).ident = who →
      (∀ d n sum, (s.ctx thr).wait = .vault d n sum → 1 < n → s.answer thr who v = s.modCtx thr fun c =>
        { c with wait := .vault d (n - 1) (sum + v) }) ∧
      (∀ d sum, (s.ctx thr).wait = .vault (some d) 1 sum → s.answer thr who v = (s.reply thr d (sum + v)).resume thr) ∧
      (∀ sum, (s.ctx thr).wait = .vault none 1 sum → s.answer thr who v = s.resume thr)) ∧
    (let due := fun (k : Nat) => (s.vdie k).samples.find? fun h => h.thr == thr && h.since + 32 ≤ (s.vdie k).ticks
     (due 0 = none → due 1 = none → exec (.sampleConversionDone thr) s = .next s) ∧
     (∀ h k, due k = some h → k = 0 ∨ (k = 1 ∧ due 0 = none) → exec (.sampleConversionDone thr) s = .next
       ((h.cells.foldl (fun v c => ((v.crossWith (dieOfCore (coreOf thr)) (dieOfCore c.2.1.home) c.1.vert 8).cacheWrite c.2.1 c.1
           8).write c.1 (toBytes 8 c.2.2)) (s.modVDie k fun v =>
         { v with samples := v.samples.filter fun x => x != h })).answer thr h.who 0))) ∧
    (let due := fun (k : Nat) => (s.vdie k).cals.find? fun c => c.begun && c.thr == thr && c.since + 65536 ≤ (s.vdie k).ticks
     (due 0 = none → due 1 = none → exec (.calibrationDone thr) s = .next s) ∧
     (∀ c k, due k = some c → k = 0 ∨ (k = 1 ∧ due 0 = none) → exec (.calibrationDone thr) s = .next (s.endCal k c))) ∧
    (∀ col, (s.calib col).v = true → (s.calib col).calTick.toNat + 2 ^ 36 ≤ (s.vdie (col / 64)).ticks →
      exec (.calibrationExpiry col) s = .next (s.modCalib col fun c => { c with v := false })) ∧
    (∀ col, (s.calib col).v = false ∨ (s.vdie (col / 64)).ticks < (s.calib col).calTick.toNat + 2 ^ 36 →
      exec (.calibrationExpiry col) s = .next s) ∧
    (∀ temp : BitVec 8, ∃ t, exec (.calibrationTemperatureDrift die temp) s = .next t ∧ (t.vdie die).temp = temp ∧
      (∀ col, col / 64 = die →
        ((temp.toNat + 8 < (s.calib col).temp.toNat ∨ (s.calib col).temp.toNat + 8 < temp.toNat) → (t.calib col).v = false) ∧
        (temp.toNat ≤ (s.calib col).temp.toNat + 8 → (s.calib col).temp.toNat ≤ temp.toNat + 8 → t.calib col = s.calib col)) ∧
      (∀ col, col / 64 ≠ die → t.calib col = s.calib col) ∧ t.mem = s.mem ∧ t.threads = s.threads))

/-! ## Traps (R277-R282, R286, R287) -/

/-- Taking a trap. It goes to the user handler where the thread is at user level outside a handler, sdeleg and umask have the
class, and uvec is not 0; else to the supervisor's, unless the thread is in a supervisor handler or svec is 0: then the
thread ends with record 1 + (class << 8) and the fault queue gets class, thread and pc. Entry fills the record set (class,
length, engine, level and ih; info; addr; instruction bits; resume address; status), sets ih and the level, goes to the
vector, and takes the thread's next slot after the one that it may issue at; no other register, full/empty bit, queue or
memory byte changes (R278-R281). That the slot comes 17 cycles after the later of resumeAt and the cycle is log entry 12
(DEDUCED). -/
def Obligations.TrapEntry : Prop :=
  ∀ (s : State) (thr cls : Nat) (info addr : Word) (epc : BitVec 57) (eng : Bool), cls < 64 →
    let c := s.ctx thr
    let p := s.part c.part
    let user := stPl c.status = 0 ∧ stIh c.status = false ∧ p.sdeleg.getLsbD cls = true ∧ c.umask.getLsbD cls = true ∧ c.uvec ≠ 0
    let dead := (stPl c.status = 1 ∧ stIh c.status = true) ∨ p.svec = 0
    let t := s.trapEntry thr cls info addr epc eng
    let d := t.ctx thr
    let filled := fun (x old : RecSet) =>
      x.cause.toNat = cls + (if c.irHalf then 256 else 0) + (if eng then 512 else 0) + 1024 * (stPl c.status).toNat +
        (if stIh c.status then 4096 else 0) ∧
      x.info = info ∧ x.addr = addr ∧ x.bits = c.ir.setWidth 64 ∧ x.epc = epc ∧ x.status = c.statusView ∧ x.scratch = old.scratch
    let entered := OnlyThread s t thr ∧ stIh d.status = true ∧ d.wait = .ready ∧
      d.resumeAt = max c.resumeAt (s.core (coreOf thr)).cycle + 17 ∧
      { d with u := c.u, sv := c.sv, status := c.status, pc := c.pc, wait := c.wait, resumeAt := c.resumeAt, wd := c.wd } = c ∧
      setPl (setIh d.status false) 0 = setPl (setIh c.status false) 0 ∧ d.wd = (if cls = 14 then 0 else c.wd)
    (user → entered ∧ filled d.u c.u ∧ d.sv = c.sv ∧ stPl d.status = 0 ∧ d.pc = c.uvec.setWidth 57) ∧
    (¬ user → ¬ dead → entered ∧ filled d.sv c.sv ∧ d.u = c.u ∧ stPl d.status = 1 ∧ d.pc = p.svec.setWidth 57) ∧
    (¬ user → dead → t = (s.endThread thr (BitVec.ofNat 64 (1 + cls * 256))).faultReport c.part 1 cls (BitVec.ofNat 32 thr)
      (c.pc.setWidth 64) (s.launch c.ident.launch).tag)

/-- `eret` outside a handler traps PRIV; with bit 0 of xepc set it traps ALIGN; otherwise ih comes back from the record, and
at supervisor level the level, no higher than 1; ld counts the active loops, pc is xepc, and nothing else changes. `trap n`
takes class TRAP with info n and resumes after itself (R286, R287). -/
def Obligations.EretAndTrap : Prop :=
  ∀ (s : State) (n : BitVec 10), MayIssue s 0 [] →
    let i := s.issued false
    let c := s.me
    let x := if stPl c.status = 0 then c.u else c.sv
    (stIh c.status = false → exec .eret s = .next (i.trapAt s.cur .priv 0 0)) ∧
    (stIh c.status = true → x.epc.getLsbD 0 = true → exec .eret s = .next (i.trapAt s.cur .align 3 (canon x.epc))) ∧
    (stIh c.status = true → x.epc.getLsbD 0 = false → ∃ t, exec .eret s = .next t ∧ OnlyThread i t s.cur ∧
      { t.me with status := c.status, pc := c.pc } = i.me ∧ t.me.pc = x.epc ∧ stIh t.me.status = stIh x.status ∧
      (stPl c.status = 1 → stPl t.me.status = if stPl x.status = 0 then 0 else 1) ∧
      (stPl c.status ≠ 1 → stPl t.me.status = stPl c.status) ∧
      (stLd t.me.status).toNat = (if (vget LoopReg.zero c.l 0).act then 1 else 0) + (if (vget LoopReg.zero c.l 1).act then 1 else 0) ∧
      setLd (setPl (setIh t.me.status false) 0) 0 = setLd (setPl (setIh c.status false) 0) 0) ∧
    exec (.trap n) s = .next (i.trapEntry s.cur 13 (n.setWidth 64) 0 (s.me.pc + 4) false)

/-! ## System registers (R283, R285, R343, R397-R399, R415) -/

/-- `mfs`: an unassigned number traps ILL, too low a level PRIV, and cycle, tid and status ORDER in a deterministic launch;
otherwise the thread goes on and, 8 cycles later, d takes the register's value of that cycle. Reading epfq pops its oldest
entry, with its handle in epfqh and bit 63 where entries were dropped; an empty queue reads 0 (R24, R283, R285, R292, R365;
log entry 44). `mts`: a number that no rule lets be written traps ILL, too low a level PRIV, a foreign ASID or granule PERM;
otherwise the thread goes on, and the register takes the value 8 cycles later (R24; log entry 44). What a write leaves is
what a read then gives: the value in the register's width, without bit 0 and sign-extended for a handler address. A budget is
held to 1000 to 3600 W, a weight is at least 1, and every die's pool count follows (R283, R285, R343, R415). -/
def Obligations.SystemRegisters : Prop :=
  (∀ (s : State) (d : BitVec 5) (n : BitVec 10),
    let r := n.toNat
    let i := s.issued false
    (sysReadLevel r = none → exec (.mfs d n) s = .next ((s.stamp false).trapAt s.cur .ill 0 0)) ∧
    (∀ l, sysReadLevel r = some l →
      ((stPl s.me.status).toNat < l → exec (.mfs d n) s = .next ((s.stamp false).trapAt s.cur .priv 0 0)) ∧
      (MayIssue s l [.dst 0 d] →
        let order := (r = 0x10 ∨ r = 0x11 ∨ r = 0x1F) ∧ stDet s.me.status = true
        (order → exec (.mfs d n) s = .next (i.trapAt s.cur .order 0 0)) ∧
        (¬ order → exec (.mfs d n) s = .next ((i.modCore (coreOf s.cur) fun k =>
          { k with sysWb := k.sysWb ++ [⟨k.cycle + 8, s.cur, s.me.ident, r, .inl d⟩] }).advance s.cur)))) ∧
    (∀ w : SysWb, w.act = .inl d → (s.ctx w.thr).live = true → (s.ctx w.thr).ident = w.who →
      let u := { s with cur := w.thr }
      let put := fun (v : State) (x : Word) => { v.destLate w.thr d x with cur := s.cur }
      (w.num ≠ 0x122 → s.sysLand w = put u (u.sysVal w.num)) ∧
      (w.num = 0x122 → u.myPart.epfq = [] → s.sysLand w = put (u.modCtx w.thr fun c => { c with epfqh := 0 }) 0) ∧
      (w.num = 0x122 → ∀ a h rest, u.myPart.epfq = (a, h) :: rest → s.sysLand w = put
        ((u.modPart u.me.part fun p => { p with epfq := rest, epfqDropped := false }).modCtx w.thr fun c => { c with epfqh := h })
        (BitVec.ofNat 64 (a.toNat + 2 ^ 62 + (if u.myPart.epfqDropped then 2 ^ 63 else 0))))) ∧
    (∀ l, sysReadLevel r = some l ↔ (l = 0 ∧ (r ≤ 8 ∨ (0x10 ≤ r ∧ r ≤ 0x13) ∨ r = 0x1F)) ∨
      (l = 1 ∧ ((0x100 ≤ r ∧ r ≤ 0x108) ∨ (0x110 ≤ r ∧ r ≤ 0x116) ∨ (0x120 ≤ r ∧ r ≤ 0x123) ∨ (0x130 ≤ r ∧ r < 0x180))) ∨
      (l = 2 ∧ ((0x200 ≤ r ∧ r ≤ 0x203) ∨ (0x208 ≤ r ∧ r ≤ 0x218) ∨ r = 0x220)))) ∧
  ((∀ (s : State) (a : BitVec 5) (n : BitVec 10) (v : Word) (t : State),
    (sysWriteLevel n.toNat = none → exec (.mts a n) s = .next ((s.stamp false).trapAt s.cur .ill 0 0)) ∧
    (∀ l, sysWriteLevel n.toNat = some l →
      ((stPl s.me.status).toNat < l → exec (.mts a n) s = .next ((s.stamp false).trapAt s.cur .priv 0 0)) ∧
      (MayIssue s l [.gsrc 0 a] → rd s a = .ok v →
        let i := s.issued false
        (sysWrite n.toNat v i = .ok t → exec (.mts a n) s = .next (finishNo (i.modCore (coreOf s.cur) fun k =>
          { k with sysWb := k.sysWb ++ [⟨k.cycle + 8, s.cur, s.me.ident, n.toNat, .inr v⟩] }) [a])) ∧
        (∀ cls info addr, sysWrite n.toNat v i = .error (.trap cls info addr) →
          exec (.mts a n) s = .next (i.trapAt s.cur cls info addr))))) ∧
  (∀ (s t : State) (w : SysWb) (v : Word), w.act = .inr v → (s.ctx w.thr).live = true → (s.ctx w.thr).ident = w.who →
    sysWrite w.num v { s with cur := w.thr } = .ok t → s.sysLand w = { t with cur := s.cur }) ∧
  (∀ (s : State) (w : SysWb), (s.ctx w.thr).live = false ∨ (s.ctx w.thr).ident ≠ w.who → s.sysLand w = s) ∧
  (∀ (s : State) (v : Word),
    let put := fun (n : Nat) (w : Word) => ∃ t, sysWrite n v s = .ok t ∧ t.sysVal n = w ∧ t.mem = s.mem
    (∀ n ∈ [0x000, 0x100], put n (canon ((v &&& ~~~1).setWidth 57))) ∧
    (∀ n ∈ [0x001, 0x005, 0x006, 0x008, 0x105, 0x106, 0x108, 0x115, 0x120], put n v) ∧
    (∀ n ∈ [0x002, 0x102], put n (BitVec.ofNat 64 (v.toNat % 2 ^ 57))) ∧
    (∀ n ∈ [0x003, 0x007, 0x103, 0x107, 0x116], put n (BitVec.ofNat 64 (v.toNat % 2 ^ 32))) ∧
    (∀ n ∈ [0x004, 0x104], put n (BitVec.ofNat 64 (v.toNat % 2 ^ 13))) ∧
    put 0x101 (v &&& 0x1FFFFBAE6) ∧ put 0x110 (v &&& 0x0000FFFFFFFFF000) ∧
    (s.myPart.hasAsid (v.toNat % 4096) = true → put 0x111 (BitVec.ofNat 64 (v.toNat % 4096))) ∧
    (s.myPart.hasAsid (v.toNat % 4096) = false → sysWrite 0x111 v s = .error (.trap .perm 0 0)) ∧
    (stPl s.me.status = 2 → put 0x112 (v &&& 0x1FFF0FFF)) ∧
    ((stPl s.me.status).toNat < 2 → sysWrite 0x112 v s = .ok s) ∧
    (∀ n ∈ [0x113, 0x114],
      (s.myPart.ownsRange (v.toNat / 65536 % 2 ^ 32) (v.toNat / 2 ^ 48 % 256) = false →
        sysWrite n v s = .error (.trap .perm 0 0)) ∧
      (s.myPart.ownsRange (v.toNat / 65536 % 2 ^ 32) (v.toNat / 2 ^ 48 % 256) = true → put n (v &&& 0x00FFFFFFFFFF0000))) ∧
    (s.myPart.ownsRange (v.toNat / 65536 % 2 ^ 32) (v.toNat / 2 ^ 48 % 65536) = true → put 0x121 (v &&& 0xFFFFFFFFFFFF0000)) ∧
    put 0x201 (BitVec.ofNat 64 (max 1000 (min 3600 (v.toNat % 65536)))) ∧ put 0x202 (BitVec.ofNat 64 (v.toNat % 65536)) ∧
    put 0x203 (BitVec.ofNat 64 (if v.toNat % 256 = 0 then 1 else v.toNat % 256)) ∧
    (∀ d, d < 8 → put (0x208 + d) (BitVec.ofNat 64 (v.toNat % 256))) ∧ put 0x210 (BitVec.ofNat 64 (v.toNat % 256)) ∧
    put 0x220 (BitVec.ofNat 64 (v.toNat % 2))) ∧
  (∀ (s : State) (v : Word), ∀ f ∈ [(Instr.budgetWrite v, 0x201), (.pfloorWrite v, 0x202), (.pweightWrite v, 0x203)], ∃ t,
    exec f.1 s = .next t ∧ sysWrite f.2 v s = .ok t ∧
    let n := min 255 ((t.fw.budget.toNat - t.fw.pfloor.toNat) / (8 * t.fw.pweight.toNat))
    ∀ k d, (k, d) ∈ s.dies → (k, { d with pcount := BitVec.ofNat 8 n }) ∈ t.dies))

/-! ## Supervisor instructions (R288-R290) -/

/-- `tlbinv`, `wdset`, `kill` and `preempt` trap PRIV at user level. `tlbinv` drops, from every TLB of the device, the
entries of the partition's ASIDs that its operands name, and traps OPND on a set reserved bit and PERM on a foreign ASID;
`wdset` takes a limit from 1024 to below 2^40 and returns the old one; `kill` and `preempt` act on the partition's team on
the core named, after they have completed (R288-R290). That `tlbinv` drops all the entries in one step, and completes, where
R289 parks it until every TLB has dropped them, is log entry 44; the OPND records are log entry 7; a further reading is log
entry 15. -/
def Obligations.SupervisorInstructions : Prop :=
  ∀ (s : State) (d a b : BitVec 5) (x y : Word),
    let i := s.issued false
    (stPl s.me.status = 0 → ∀ j ∈ [Instr.tlbinv a b, .wdset d a, .kill a, .preempt a],
      exec j s = .next ((s.stamp false).trapAt s.cur .priv 0 0)) ∧
    (MayIssue s 1 [.src 1 a, .src 2 b] → rd s a = .ok x → rd s b = .ok y →
      let kind := y.toNat / 65536 % 4
      let asid := y.toNat % 4096
      let granule := x.toNat % 2 ^ 57 / 65536
      (y &&& ~~~0x30FFF ≠ 0 → exec (.tlbinv a b) s = .next (i.trapAt s.cur .opnd 2 0)) ∧
      (y &&& ~~~0x30FFF = 0 → (kind = 1 ∨ kind = 2) → s.myPart.hasAsid asid = false →
        exec (.tlbinv a b) s = .next (i.trapAt s.cur .perm 0 0)) ∧
      (y &&& ~~~0x30FFF = 0 → (kind = 0 ∨ kind = 3 ∨ s.myPart.hasAsid asid = true) →
        exec (.tlbinv a b) s = .next (finishNo (i.tlbDrop fun e =>
          s.myPart.hasAsid e.1 && ((kind == 0) || (kind == 3 || e.1 == asid) &&
            ((kind == 1) || (e.2.1 ≤ granule && granule < e.2.1 + pageGranules (lfSize e.2.2))))) [a, b]))) ∧
    (MayIssue s 1 [.dst 0 d, .src 1 a] → rd s a = .ok x →
      ((x.toNat < 1024 ∨ 2 ^ 40 ≤ x.toNat) → exec (.wdset d a) s = .next (i.trapAt s.cur .opnd 1 0)) ∧
      (1024 ≤ x.toNat → x.toNat < 2 ^ 40 → exec (.wdset d a) s = .next (finish
        (i.modPart s.me.part fun p => { p with wdlimit := x.toNat }) [a] d (BitVec.ofNat 64 s.myPart.wdlimit)))) ∧
    (MayIssue s 1 [.src 1 a] → rd s a = .ok x →
      (2048 ≤ x.toNat → ∀ j ∈ [Instr.kill a, .preempt a], exec j s = .next (i.trapAt s.cur .addr 0 x)) ∧
      (x.toNat < 2048 → s.myPart.hasCore x.toNat = false →
        ∀ j ∈ [Instr.kill a, .preempt a], exec j s = .next (i.trapAt s.cur .perm 0 x)) ∧
      (x.toNat < 2048 → s.myPart.hasCore x.toNat = true →
        (∀ l t, (s.core x.toNat).team = some (l, t) → (s.launch l).part = s.me.part →
          exec (.kill a) s = .next ((finishNo i [a]).killTeam l t) ∧
          exec (.preempt a) s = .next ((finishNo i [a]).preemptCore x.toNat)) ∧
        ((∀ l t, (s.core x.toNat).team = some (l, t) → (s.launch l).part ≠ s.me.part) →
          ∀ j ∈ [Instr.kill a, .preempt a], exec j s = .next (finishNo i [a])))) ∧
    (∀ core, (s.core core).team ≠ none → s.preemptCore core = s.modCore core fun k => { k with preempting := true })

/-- The events at issue: a halting thread whose replies are in ends with record 0; a watchdog expiry traps WDOG with the
limit; bits that no rule assigns trap ILL, and a failed fetch FETCH, with the bits, the length and the address in the record;
a read of epfq pops it (R73, R91, R135, R137, R292). The canonical form of the address in the record is log entry 8, bits and
length 0 in it log entry 66. -/
def Obligations.IssueEvents : Prop :=
  ∀ (s : State) (thr : Nat) (w : Word32) (half perm : Bool) (addr : BitVec 57),
    ((s.ctx thr).live = true → (s.ctx thr).wait = .halting → (s.ctx thr).posted = [] →
      exec (.threadEnd thr) s = .next (s.endThread thr 0)) ∧
    (((s.ctx thr).live = false ∨ (s.ctx thr).wait ≠ .halting ∨ (s.ctx thr).posted ≠ []) → exec (.threadEnd thr) s = .next s) ∧
    ((s.ctx thr).live = true → (s.ctx thr).wait = .ready →
      (s.wdLimit thr < (s.ctx thr).wd + 1 →
        exec (.watchdogExpiry thr) s = .next (s.trapAt thr .wdog (BitVec.ofNat 64 (s.wdLimit thr)) 0)) ∧
      ((s.ctx thr).wd + 1 ≤ s.wdLimit thr → exec (.watchdogExpiry thr) s = .next s)) ∧
    exec (.illegalInstruction w half) s =
      .next ((s.modMe fun c => { c with ir := w, irHalf := half, irPc := c.pc }).trapAt s.cur .ill 0 0) ∧
    exec (.instructionFetchFault addr perm) s = .next ((s.modMe fun c => { c with ir := 0, irHalf := false, irPc := c.pc }).trapAt
      s.cur .fetch (if perm then 1 else 0) (canon addr)) ∧
    (∃ t, exec (.epfqRead thr) s = .next t ∧ (t.part (s.ctx thr).part).epfq = (s.part (s.ctx thr).part).epfq.drop 1 ∧
      t.mem = s.mem)

/-! ## Launch rings (R357-R361) -/

/-- A ring's events. With no packet of its kind at the tail, an event does nothing; a doorbell clears the reason of a ring
that runs, and finds nothing, a broken ring or packet, which halts the ring, or a packet, which is acted on next. `LAUNCH`
and its acceptance halt the ring where an argument cannot be read; otherwise it is accepted once no live launch holds a group
that it names: a new launch as the packet says, its teams waiting with their arguments; `NOP` passes; `WAITEND` passes once
no launch of the ring is live; `PREEMPT`, `RESUME` and `KILL` act on the launches of the tag. A packet done with advances
tail by its length and consumed by 1, in the ring's control block. A ring of a partition under PARTDEL is not served; what
errors the sill's reads of a packet and its args meet are corrected (R355, R357-R361, R417). The model's readings in it: log
entries 9 and 46. -/
def Obligations.RingEvents : Prop :=
  ∀ (s : State) (part r : Nat),
    let g := s.ring part r
    (∀ f ∈ [(Instr.launch part r, 1), (.launchAccept part r, 1), (.nopPacket part r, 2), (.waitend part r, 3), (.preemptPacket part r, 4),
        (.resumePacket part r, 5), (.killPacket part r, 6)], s.packetOf part r f.2 = none → exec f.1 s = .next s) ∧
    (let v := s.clearReason part r
     (∀ a, a ≠ g.cb + 25 → v.physRead a 1 = s.physRead a 1) ∧ (g.cb ≠ 0 → g.state = 1 → v.physRead (g.cb + 25) 1 = [0]) ∧
     (g.cb = 0 ∨ g.state ≠ 1 → v = s) ∧
     (v.served part r = .idle → exec (.doorbell part r) s = .next v) ∧
     ((s.part part).deleting.isSome = true → s.served part r = .idle) ∧
     (let w := s.ringMet part r
      let n := max 1 (ofBytesNat (((s.ringRead (g.unit 0) 16).drop 1).take 1))
      w.mem = s.mem ∧ w.threads = s.threads ∧ w.agenda = s.agenda ∧ ∀ x, x ∈ w.corrSectors ↔ x ∈ s.corrSectors ∧
        ∀ i, i < n → ¬ (sectorNo (g.unit i) ≤ x ∧ x ≤ sectorNo (g.unit i + 15))) ∧
     (∀ p, v.served part r = .packet p → exec (.doorbell part r) s = .next ((v.ringMet part r).post (.packet part r))) ∧
     (∀ reason tag, v.served part r = .bad reason tag → ∃ u : State, exec (.doorbell part r) s = .next (u.faultReport part 2 reason
       (BitVec.ofNat 32 r) (BitVec.ofNat 64 g.tail) (BitVec.ofNat 32 tag)) ∧ u.physRead (g.cb + 24) 2 = [2, BitVec.ofNat 8 reason] ∧
       u.physRead (g.cb + 28) 4 = toBytes 4 (BitVec.ofNat 32 g.tail))) ∧
    (∀ p, s.packetOf part r 1 = some p →
      let n := (ofBytesNat ((p.drop 24).take 2))
      let met := s.argsMet part p
      (met.mem = s.mem ∧ met.threads = s.threads ∧ met.launches = s.launches ∧ met.agenda = s.agenda) ∧
      ((∀ k, k < n → s.launchArg part p k ≠ none) → exec (.launch part r) s = .next (met.post (.launchAccept part r))) ∧
      ((∃ k, k < n ∧ s.launchArg part p k = none) →
        exec (.launch part r) s = .next (met.haltRing part r 8 (ofBytesNat ((p.drop 4).take 4))) ∧
        exec (.launchAccept part r) s = .next (met.haltRing part r 8 (ofBytesNat ((p.drop 4).take 4)))) ∧
      ((∀ k, k < n → s.launchArg part p k ≠ none) → (∃ j ∈ launchGroups p, s.groupHeld part j = true) →
        exec (.launchAccept part r) s = .next s) ∧
      ((∀ k, k < n → s.launchArg part p k ≠ none) → (∀ j ∈ launchGroups p, s.groupHeld part j = false) → ∃ u : State, exec (.launchAccept part r) s =
          .next ((u.advanceRing part r p).post (.placement part)) ∧
        u.launch s.nextLaunch = launchOf part r (g.base / 2 ^ 38 % 8) p ∧ u.nextLaunch = s.nextLaunch + 1 ∧ u.mem = s.mem ∧
        u.threads = s.threads ∧ u.parts = met.parts ∧
        ∀ k, k < n → (u.teamOf s.nextLaunch k).state = .waiting ∧ s.launchArg part p k = some (u.teamOf s.nextLaunch k).arg)) ∧
    (∀ p, s.packetOf part r 2 = some p → exec (.nopPacket part r) s = .next (s.advanceRing part r p)) ∧
    (∀ p, s.packetOf part r 3 = some p → exec (.waitend part r) s =
      .next (if s.ringLaunches part r = [] then s.advanceRing part r p else s)) ∧
    (∀ p, s.packetOf part r 4 = some p → exec (.preemptPacket part r) s = .next (((s.tagged part r p).foldl (fun u l =>
      let v := if ofBytesNat ((p.drop 2).take 1) = 1 then u.modLaunch l fun x => { x with held := true } else u
      (v.launchCores l).foldl State.preemptCore v) s).advanceRing part r p)) ∧
    (∀ p, s.packetOf part r 5 = some p → exec (.resumePacket part r) s = .next ((((s.tagged part r p).foldl (fun u l =>
      u.modLaunch l fun x => { x with held := false }) s).advanceRing part r p).post (.placement part))) ∧
    (∀ p, s.packetOf part r 6 = some p →
      exec (.killPacket part r) s = .next (((s.tagged part r p).foldl State.killLaunch s).advanceRing part r p)) ∧
    (∀ p : List Byte, let t := s.advanceRing part r p
      t.physRead (g.cb + 20) 4 = toBytes 4 (BitVec.ofNat 32 (g.tail + 16 * ofBytesNat ((p.drop 1).take 1))) ∧
      t.physRead (g.cb + 32) 4 = toBytes 4 (BitVec.ofNat 32 (g.consumed + 1)) ∧
      (∀ a, (a < g.cb + 20 ∨ (g.cb + 24 ≤ a ∧ a < g.cb + 32) ∨ g.cb + 36 ≤ a) → t.physRead a 1 = s.physRead a 1) ∧
      t.threads = s.threads)

/-! ## Placement, quanta, pre-emption, swap (R293-R295, R362-R364) -/

/-- Placement takes the first waiting team of the partition: none has a higher priority, nor the same and an earlier place in
the queue; and a free core of the partition, with no fewer hops from the launch's die to any other, the lowest of those.
Where none is free, the first waiting team for which no core is being given up yet displaces the team of the lowest priority
below its own. A quantum that is over pre-empts the team where one of its own priority waits, or one of a higher for which no
other core is being given up, and otherwise starts again. A launch ends when nothing of it is left, and not before: its
groups, collectives and cores are free, and its end record of 16 bytes is stored, with outcome 3, 2 or 1, or the failure of
that reported. A placed team holds its core from then on: one that was out is restored there, another starts at its launch's
entry with its argument (R69, R362-R364, R371). That one pre-emption serves one waiting team, at a quantum's end and in
displacement, is the model's inference from R371, where R364's words alone would have a second core given up: log entry 85
(DEDUCED). The model's other readings in it: log entries 14 and 46. -/
def Obligations.Placement : Prop :=
  ∀ (s : State) (part core l : Nat),
    (s.waitingTeams part = [] → exec (.teamPlacement part) s = .next s) ∧
    (∀ w, firstWaiting (s.waitingTeams part) = some w →
      (∀ x ∈ s.waitingTeams part, ¬ (w.prio < x.prio ∨ (w.prio = x.prio ∧ x.order < w.order))) ∧
      (∀ k, s.pickCore part (s.launch w.launch).die = some k →
        exec (.teamPlacement part) s = .next ((s.placeTeam w.launch w.team k).post (.placement part)) ∧
        k ∈ (s.part part).cores ∧ s.coreFree k = true ∧
        ∀ j ∈ (s.part part).cores, s.coreFree j = true →
          let far := fun (c : Nat) => hops (s.launch w.launch).die (dieOfCore c)
          far k < far j ∨ (far k = far j ∧ k ≤ j)) ∧
      (s.pickCore part (s.launch w.launch).die = none →
        exec (.teamPlacement part) s = .next (s.displaceFor part (s.waitingTeams part)))) ∧
    (let ws := s.waitingTeams part
     let held := (s.part part).cores.filterMap fun k => (s.core k).team.map fun t => (k, (s.launch t.1).prio.toNat)
     let queue := (orderWaiting ws).drop (held.filter fun x => (s.core x.1).preempting).length
     (queue = [] → s.displaceFor part ws = s) ∧
     (∀ w rest, queue = w :: rest →
       let gives := fun (x : Nat × Nat) => x ∈ held ∧ (s.core x.1).preempting = false ∧ x.2 < w.prio
       ((∀ x, ¬ gives x) → s.displaceFor part ws = s) ∧
       ((∃ x, gives x) → ∃ k : Nat × Nat, gives k ∧ (∀ x, gives x → k.2 < x.2 ∨ (k.2 = x.2 ∧ x.1 ≤ k.1)) ∧
         s.displaceFor part ws = (s.preemptCore k.1).post (.placement part)))) ∧
    (∀ t, (s.core core).team = some (l, t) →
      let p := (s.launch l).part
      let ws := orderWaiting (s.waitingTeams p)
      let higher := ws.drop ((s.part p).cores.filter fun k => (s.core k).preempting).length
      let prio := (s.launch l).prio.toNat
      ((s.core core).quantum < (s.part p).quantum → exec (.quantumExpiry core) s = .next s) ∧
      ((s.part p).quantum ≤ (s.core core).quantum →
        ((∃ w ∈ ws, w.prio = prio) ∨ (∃ w ∈ higher, prio < w.prio) →
          exec (.quantumExpiry core) s = .next (s.preemptCore core)) ∧
        ((∀ w ∈ ws, w.prio ≠ prio) → (∀ w ∈ higher, w.prio ≤ prio) →
          exec (.quantumExpiry core) s = .next (s.modCore core fun k => { k with quantum := 0 })))) ∧
    (s.launchOver l = false → exec (.launchEnd l) s = .next s) ∧
    (s.launchOver l = true → ∃ t : State, exec (.launchEnd l) s = .next t ∧ (t.launch l).live = false ∧ t.threads = s.threads) ∧
    (s.launchOver l = true → ∃ u : State,
      let x := s.launch l
      exec (.launchEnd l) s = .next (((postAll ((List.range 8).map (.packet x.part)) (u.writeEnd x)).post
        (.placement x.part)).finishDelete x.part) ∧
      (u.launch l).live = false ∧ u.mem = s.mem ∧ u.threads = s.threads ∧
      (∀ g ∈ u.groups, ¬ (g.2.part = x.part ∧ g.2.launch = l)) ∧ (∀ r ∈ u.colls, r.launch ≠ l) ∧
      (∀ k t, (u.core k).team ≠ some (l, t))) ∧
    (∀ x : Launch,
      let rec' := toBytes 4 x.tag ++ [if x.killed then 3 else if x.fatal ≠ 0 then 2 else 1, x.firstClass, 0, 0] ++
        toBytes 4 (BitVec.ofNat 32 x.fatal) ++ [0, 0, 0, 0]
      let v := if canonical x.endrec then s.sillWalked x.part x.asid (x.endrec.toNat % 2 ^ 57) else s
      (v.mem = s.mem ∧ v.threads = s.threads) ∧
      (x.endrec = 0 → s.writeEnd x = s) ∧
      (x.endrec ≠ 0 → ∀ pa, v.sillAddr x.part x.asid.toNat x.endrec .store = some pa →
        s.writeEnd x = (v.hostTouch pa 16).physWrite pa rec') ∧
      (x.endrec ≠ 0 → v.sillAddr x.part x.asid.toNat x.endrec .store = none →
        s.writeEnd x = v.faultReport x.part 3 0 0 x.endrec x.tag)) ∧
    (s.launchOver l = true ↔ (s.launch l).live = true ∧ (∀ x ∈ s.threads, x.2.live = true → x.2.ident.launch ≠ l) ∧
      (∀ k ∈ s.cores, ∀ a ∈ k.2.arrivals, a.ctx.ident.launch ≠ l) ∧ (∀ p ∈ s.suspended, p.ident.launch ≠ l) ∧
      (∀ x ∈ s.allTokens, x.2.ident.launch = l → x.2.state.live = false) ∧
      ∀ k, k < (s.launch l).n → (s.teamOf l k).state ≠ .killed →
        let x := s.teamOf l k
        x.state ≠ .waiting ∧ x.ctxs = [] ∧ x.queue = [] ∧ x.image.conts = [] ∧ (∀ e ∈ x.image.wt, e.2.state ≠ .fired) ∧
        ∀ c, x.state = .resident c → (s.core c).tm.conts = [] ∧ ∀ e ∈ (s.core c).tm.wt, e.2.state ≠ .fired) ∧
    (∀ t, let x := s.teamOf l t
      let u := s.placeTeam l t core
      u.mem = s.mem ∧ (u.teamOf l t).state = .resident core ∧ (u.teamOf l t).placedOnce = true ∧ (u.core core).team = some (l, t) ∧
      (u.core core).quantum = 0 ∧ (u.core core).preempting = false ∧ ((u.core core).restoring = true ↔ x.state = .out) ∧
      (.contextClaim core) ∈ u.agenda ∧
      (x.state = .out → u.threads = s.threads ∧ (.swapIn core) ∈ u.agenda) ∧
      (x.state ≠ .out → ∃ v : State, u = (v.startThread (16 * core) ⟨l, t, 0⟩ false (s.launch l).entry x.arg (s.launch l).asid 2).post
        (.contextClaim core) ∧ v.threads = s.threads ∧ v.mem = s.mem))

/-- Pre-emption and swap. A live thread of a team under pre-emption halts at its boundary. A core is swapped out once its
team is under pre-emption and all its threads have halted: their posted writes are performed, what is queued is withdrawn,
and once no copy or matrix operation of the team runs, the core holds no team, and the team waits in its image. It is swapped
in when every handle of its image can be bound again, and otherwise waits, its queued matrix operations elsewhere eligible.
Its lanes are claimed together, or taken as far as they are free; a thread whose attached operation has ended meanwhile goes
on (R293-R295, R172, R206, R437; log entry 67). The model's readings in it: log entry 45. -/
def Obligations.SwapEvents : Prop :=
  ∀ (s : State) (thr core : Nat),
    (let c := s.ctx thr
     (c.live = true ∧ s.preempted thr = true ∧ c.wait.boundary = true →
       exec (.preemptionHalt thr) s = .next (s.modCtx thr fun c => { c with halted := true })) ∧
     (¬ (c.live = true ∧ s.preempted thr = true ∧ c.wait.boundary = true) → exec (.preemptionHalt thr) s = .next s)) ∧
    ((s.core core).team = none → exec (.swapOut core) s = .next s ∧ exec (.swapIn core) s = .next s) ∧
    (∀ h a, (s.ctx thr).wait = .attached h a → s.wakeOne thr = if (s.token h).state.terminal then s.resumeAttached h else s) ∧
    ((∀ h a, (s.ctx thr).wait ≠ .attached h a) → s.wakeOne thr = s) ∧
    (s.regainLanes core true = if s.teamWant core = 0 then s
      else (s.modCore core fun k => { k with teamClaim := true }).post (.claimGrant (courseOfCore core))) ∧
    (let t := s.regainLanes core false
     t.mem = s.mem ∧ (t.core core).arrivals.length = (s.core core).arrivals.length ∧
     ∀ x, { t.ctx x with grant := 0 } = { s.ctx x with grant := 0 } ∧ (coreOf x ≠ core → t.ctx x = s.ctx x) ∧
       (coreOf x = core → (t.ctx x).grant ≤ (s.ctx x).want)) ∧
    ((s.core core).restoring = false → exec (.swapIn core) s = .next s) ∧
    (∀ l t, (s.core core).team = some (l, t) →
      let toks := fun (f : Token → Bool) => (s.teamTokens l t).filter fun x => f x.2
      let busy := toks fun x => x.state == .running && (x.op.isCopy || x.op.isMma)
      ((s.core core).preempting = false ∨ (s.core core).restoring = true ∨ (∃ x ∈ s.teamThreads l t, (s.ctx x).halted = false) →
        exec (.swapOut core) s = .next s) ∧
      ((s.core core).preempting = true → (s.core core).restoring = false → (∀ x ∈ s.teamThreads l t, (s.ctx x).halted = true) →
        (busy ≠ [] → ∃ u : State, exec (.swapOut core) s = .next u ∧ (u.core core).team = some (l, t) ∧
          (u.core core).preempting = true ∧ (∀ x ∈ s.teamThreads l t, (u.ctx x).posted = []) ∧
          (∀ x ∈ toks fun x => x.state == .queued || x.state == .permit, (u.token x.1).away = true) ∧
          (∀ x ∈ toks fun x => x.state == .running && x.op.isCopy, (u.token x.1).stop ≠ 0)) ∧
        (busy = [] → ∃ u : State, exec (.swapOut core) s = .next u ∧ (u.core core).team = none ∧ (u.core core).preempting = false ∧
          (u.teamOf l t).state = .out ∧ (u.teamOf l t).core = core)) ∧
      ((s.core core).restoring = true →
        let x := s.teamOf l t
        let waits := ∃ u : State, exec (.swapIn core) s = .next u ∧ u.cores = s.cores ∧ u.threads = s.threads ∧ u.mem = s.mem ∧
          ∀ y ∈ s.teamTokens l t, y.2.op.isMma = true → y.2.away = true → hCourse y.1 ≠ courseOfCore core → (u.token y.1).away = false
        (s.rebindImage (courseOfCore core) id x.ctxs = none → waits) ∧
        (∀ cs u, s.rebindImage (courseOfCore core) id x.ctxs = some (cs, u) →
          u.rebindImage (courseOfCore core) loanName x.image.loans = none → waits) ∧
        (∀ cs u loans v, s.rebindImage (courseOfCore core) id x.ctxs = some (cs, u) →
          u.rebindImage (courseOfCore core) loanName x.image.loans = some (loans, v) →
          let cy := (s.core core).cycle
          let a := v.modCore core fun k =>
            { k with restoring := false, arrivals := k.arrivals ++ ((cs.filter fun c => 16 ≤ c.1).map fun c =>
                       ⟨c.2, Tbl.get Ctx.blank loans c.1⟩)
                     tm := { x.image with loans := (loans.filter fun c => c.1 < 16).map fun c => (c.1, c.2.restored c.1 cy) } }
          let b := (cs.filter fun c => c.1 < 16).foldl (fun w c => w.setCtx (16 * core + c.1) (c.2.restored c.1 cy)) a
          let d := (((b.modTeam l t fun x => { x with ctxs := [], image := TeamMem.zero }).regainLanes core
            (s.launch l).det).bringTokens l t x.core core).wakeAttached core
          exec (.swapIn core) s = .next (((((slotsOf core).foldl State.giveSegment (x.image.wt.foldl (fun w e =>
            w.checkTasks core (16 * e.2.word.toNat)) ((slotsOf core).foldl State.rebar d))).post (.pendingDelivery core)).post
            (.mailDelivery core)).post (.contextClaim core)))))

/-! ## Heat and power (R47, R367, R368, R416) -/

/-- A thread in a removed slot goes to the first core of its die's row that its partition holds with a free context, if it is
at a boundary and not pinned; where it is pinned or no core takes it, f falls by one step, no lower than 1 GHz. A row is
rewritten whole or not at all. A removal level, up to 15, rises while the core's junction is above 95 °C and falls below 90
°C, as the monitor reads it (a free value, log entry 70). That f falls by one step is log entry 46. A window above the budget
lowers f by a step, sixteen in a row below 95% raise it (R47, R367, R368, R416). The model's readings in it: log entry 54. -/
def Obligations.ThermalEvents : Prop :=
  ∀ (s : State) (thr die core level watts : Nat) (row : List Nat),
    (∀ k, s.displaceable thr = some k → exec (.thermalDisplacement thr) s = .next (s.sendAway thr k) ∧
      k ∈ (s.die (dieOfCore (coreOf thr))).ranking ∧ (s.part (s.ctx thr).part).hasCore k = true ∧ s.freeContext k ≠ none ∧
      (s.ctx thr).pinned = false ∧ (s.ctx thr).wait.boundary = true ∧ s.removed thr = true) ∧
    (∀ k, s.displaceable thr = some k ↔
      ((s.ctx thr).live = true ∧ 16 - (s.core (coreOf thr)).removal.toNat ≤ slotOf thr ∧ (s.ctx thr).wait.boundary = true ∧
        (s.ctx thr).pinned = false ∧ (s.ctx thr).halted = false ∧ (s.ctx thr).dbgHeld = false ∧
        (s.die (dieOfCore (coreOf thr))).ranking.find? (fun k =>
          (s.part (s.ctx thr).part).hasCore k && (s.freeContext k).isSome) = some k)) ∧
    (let slows := (s.ctx thr).live = true ∧ s.removed thr = true ∧ ((s.ctx thr).pinned = true ∨ s.cooler thr = none)
     (s.displaceable thr = none → slows → exec (.thermalDisplacement thr) s =
       .next (s.modDie (dieOfCore (coreOf thr)) fun d => { d with mhz := max 1000 (d.mhz - 125) })) ∧
     (s.displaceable thr = none → ¬ slows → exec (.thermalDisplacement thr) s = .next s)) ∧
    (∃ t : State, exec (.thermalRankingRewrite die row) s = .next t ∧ t.mem = s.mem ∧ t.threads = s.threads ∧ t.cores = s.cores ∧
      let whole := row.length = 160 ∧ ∀ i, i < 160 → 160 * die + i ∈ row
      (whole → (t.die die).ranking = row) ∧ (¬ whole → t = s)) ∧
    (let now := (s.core core).removal.toNat
     let moves := level ≤ 15 ∧ ((now < level ∧ 95 < Config.junction s.fresh core) ∨ (level < now ∧ Config.junction s.fresh core < 90))
     (¬ moves → exec (.removalLevelChange core level) s = .next { s with fresh := s.fresh + 1 }) ∧
     (moves → ∃ t : State, exec (.removalLevelChange core level) s = .next t ∧ (t.core core).removal.toNat = level ∧
       t.threads = s.threads ∧ t.mem = s.mem ∧ (.contextClaim core) ∈ t.agenda ∧
       ∀ k, k < 16 → 16 - level ≤ k → k < 16 - now → (s.ctx (16 * core + k)).live = true →
         (.displacement (16 * core + k)) ∈ t.agenda)) ∧
    (∃ t : State, exec (.powerWindow die watts) s = .next t ∧ t.threads = s.threads ∧ t.mem = s.mem ∧ t.cores = s.cores ∧
      let b := s.fw.budget.toNat
      let d := s.die die
      (b < 8 * watts → (t.die die).mhz = max 1000 (d.mhz - 125) ∧ (t.die die).lowWindows = 0) ∧
      (8 * watts ≤ b → 95 * b ≤ 800 * watts → (t.die die).mhz = d.mhz ∧ (t.die die).lowWindows = 0) ∧
      (800 * watts < 95 * b → 8 * watts ≤ b → (t.die die).mhz = (if d.lowWindows = 15 then min 2000 (d.mhz + 125) else d.mhz) ∧
        (t.die die).lowWindows = if d.lowWindows = 15 then 0 else d.lowWindows + 1))

/-! ## Links (R389-R400) -/

/-- Links. A message that an end sends enters its replay buffer with the next number. A good flit with the number expected
counts and advances the receiver's expectation; any other is discarded, and one bad flit counts; for the first of them the
end owes a NAK with the expected number, which rides in its next flit, or in an idle flit where none is due and what it sent
has come. A NAK counts, and the flits held from its number on are resent and counted. In training a flit and a NAK wait,
until the end is up. A lane is repaired by a spare, counted, or its link retrains at half width, both ends. A module that
cannot train, at both ends, goes down, and takes the detour; without the sideband the device freezes for good. A pier port
goes down, and the pier sets with the device behind it lose v (which device that is, log entry 34); an Ebnan port goes down
alone, and the other carries on what it held. None but a pier loss touches a thread (R389-R394, R398, R400, R409, R410, R434;
what comes from outside the device, and when idle flits go, is log entry 47). -/
def Obligations.LinkEvents : Prop :=
  ∀ (s : State) (lnk : LinkId) (seq : BitVec 8) (good flag : Bool),
    let k := linkNo lnk
    let x := s.linkAt k
    let v := { s with agenda := s.agenda.erase (.flit lnk seq) }
    let u := v.outside k seq
    (∀ (m : Msg) (f : Nat) rest, m.path = k :: rest → x.detour = false → x.state = 1 → x.queue = [] → x.buf.length < 128 →
      farEnd k = some f → ∃ t, s.sendOn m = t ∧ t.threads = s.threads ∧ t.mem = s.mem ∧
        let n := BitVec.ofNat 8 (x.txflits.toNat % 256)
        let silent := s.flitDue f = true ∨ (s.linkAt f).state ≠ 1 ∨ s.onTheWay k ≠ 0
        (t.linkAt k).txflits = x.txflits + 1 ∧
        (t.linkAt k).buf = (if silent then x.buf else x.heldFrom (s.linkAt f).rxSeq) ++ [⟨n, x.rxSeq, [{ m with path := rest }]⟩] ∧
        t.agenda = s.agenda ++ [.flit (linkId f) n]) ∧
    (∀ (m : Msg) rest, m.path = k :: rest → x.detour = false → x.state = 1 → x.queue = [] → x.buf.length < 128 →
      farEnd k = none → ∃ t, s.sendOn m = t ∧ t.threads = s.threads ∧ t.mem = s.mem ∧ (t.linkAt k).txflits = x.txflits + 1 ∧
        (t.linkAt k).buf = x.buf ++ [⟨BitVec.ofNat 8 (x.txflits.toNat % 256), x.rxSeq, [{ m with path := rest }]⟩] ∧
        t.agenda = if m.kind = .reply then s.agenda else s.agenda ++ [.flit (linkId k) (x.rxSeq + BitVec.ofNat 8 (s.onTheWay k))]) ∧
    (∀ (y : Link) n, y.heldFrom n = y.buf.drop (let known := (n + BitVec.ofNat 8 y.buf.length - BitVec.ofNat 8 (y.txflits.toNat % 256)).toNat
      if known ≤ y.buf.length then known else 0)) ∧
    (s.onTheWay k = (s.agenda.filter fun d => d.isFlitTo (linkId k)).length + x.late.length) ∧
    (∀ f, farEnd k = some f → (s.flitDue k = true ↔ x.buf.length < 128 ∧
      (x.queue ≠ [] ∨ ∃ y ∈ (s.linkAt f).buf, 0 < (x.rxSeq - y.seq).toNat ∧ (x.rxSeq - y.seq).toNat ≤ 128 ∧
        ∃ m ∈ y.msgs, m.kind = .request))) ∧
    (∀ (ms : List Msg), 0 < ms.length → let n := packing ms
      1 ≤ n ∧ n ≤ 3 ∧ n ≤ ms.length ∧ ((∃ m ∈ ms.take n, m.kind ≠ .other) → n = 1) ∧
      ((ms.take n).filter fun m => 0 < m.data).length ≤ 1) ∧
    (∀ (src dst vert : Nat), src < 8 → dst < 8 → (vert = 2 ∨ vert = 3) →
      let p := pathTo src dst vert
      p.length = hops src dst ∧ (∀ e ∈ p, e / 4 < 8) ∧ (∀ e, p.getLast? = some e → src / 4 ≠ dst / 4 → e % 4 = vert)) ∧
    (∀ (src dst vert data : Nat), (src = dst → s.cargo src dst vert data = s) ∧
      (src ≠ dst → s.cargo src dst vert data = s.sendOn ⟨.other, 0, ⟨0, 0, 0⟩, pathTo src dst vert, [], vert, data⟩)) ∧
    (s.underWay k seq = true ↔ farEnd k = none ∨ ∃ f, farEnd k = some f ∧ (∃ y ∈ (s.linkAt f).heldFrom x.rxSeq, y.seq = seq) ∧
      (x.state = 2 → ∀ w ∈ x.late, w.1 ≠ seq) ∧ (x.state ≠ 2 → (x.nakSent = true ↔ seq ≠ x.rxSeq))) ∧
    (x.state ≠ 1 → x.state ≠ 2 → exec (.flitReceive lnk seq good) s = .next v) ∧
    ((x.state = 1 ∨ x.state = 2) → u.underWay k seq = false → exec (.flitReceive lnk seq good) s = .next v) ∧
    (x.state = 2 → u.underWay k seq = true →
      exec (.flitReceive lnk seq good) s = .next (u.modLink k fun y => { y with late := y.late ++ [(seq, good)] })) ∧
    (x.state = 1 → u.underWay k seq = true → ∃ t : State, exec (.flitReceive lnk seq good) s = .next t ∧ t.threads = s.threads ∧ t.mem = s.mem ∧
      let y := t.linkAt k
      (good = true → seq = x.rxSeq → y.rxflits = x.rxflits + 1 ∧ y.rxSeq = x.rxSeq + 1 ∧ y.nakSent = false ∧ y.crcerr = x.crcerr) ∧
      (¬ (good = true ∧ seq = x.rxSeq) → y.rxflits = x.rxflits ∧ y.rxSeq = x.rxSeq ∧ y.nakSent = true ∧
        y.crcerr = (if good then x.crcerr else x.crcerr + 1) ∧
        let w := u.modLink k fun z => { z with
          crcerr := if good then z.crcerr else z.crcerr + 1, nakSent := true
          nakAt := if z.nakSent then z.nakAt else some (BitVec.ofNat 8 (z.txflits.toNat % 256)) }
        (∀ f, farEnd k = some f → t = (w.idleNak k).idleNak f) ∧
        (farEnd k = none → t = if good = false ∧ seq = x.rxSeq then w.againOutside k seq else w))) ∧
    (∀ f, farEnd k = some f →
      let nak : Due := .nak (linkId f) x.rxSeq
      let holds := s.flitDue k = true ∨ x.state ≠ 1 ∨ s.onTheWay f ≠ 0 ∨ (s.linkAt f).nakHeld ≠ none ∨ nak ∈ s.agenda
      (x.nakAt = none ∨ holds → s.idleNak k = s) ∧ (x.nakAt ≠ none → ¬ holds → s.idleNak k = s.post nak) ∧
      ((s.linkAt f).nakAt = none → s.rideNak k f seq = s) ∧
      (∀ n, (s.linkAt f).nakAt = some n → s.rideNak k f seq =
        if 0 < (n - seq).toNat ∧ (n - seq).toNat ≤ 128 then s else s.resend k (s.linkAt f).rxSeq) ∧
      ∀ y, (s.linkAt f).buf.find? (fun y => y.seq == seq) = some y → s.opened k seq =
        ((y.msgs.foldl State.deliverMsg (((s.rideNak k f seq).modLink k fun l => l.ackTo y.ack).pump x.queue.length k)).flush f).flush k) ∧
    (∀ m : Msg, (m.path ≠ [] → s.deliverMsg m = s.sendOn m) ∧ (m.path = [] → m.kind = .other → s.deliverMsg m = s) ∧
      (m.path = [] → m.kind ≠ .other → s.deliverMsg m = if (s.ctx m.thr).ident = m.who then s.post (.reply m.thr)
        else s.sendOn ⟨.other, 0, ⟨0, 0, 0⟩, m.back, [], m.vert, 0⟩)) ∧
    (x.state = 2 → exec (.nakReceive lnk seq) s = .next (s.modLink k fun y => { y with nakHeld := some seq })) ∧
    (x.state ≠ 1 → x.state ≠ 2 → exec (.nakReceive lnk seq) s = .next s) ∧
    (x.state = 1 → ∃ t : State, exec (.nakReceive lnk seq) s = .next t ∧ t.threads = s.threads ∧ t.mem = s.mem ∧
      let again := x.heldFrom seq
      (t.linkAt k).naks = x.naks + 1 ∧ (t.linkAt k).replayed = x.replayed + BitVec.ofNat 64 again.length ∧
      (t.linkAt k).buf = again.map (fun y => { y with ack := x.rxSeq }) ∧
      (∀ f, farEnd k = some f → (t.linkAt f).nakSent = false ∧ (t.linkAt f).nakAt = none ∧
        t.agenda = (s.agenda.filter fun d => !(d.isFlitTo (linkId f) || d.isNakTo (linkId k))) ++ again.map fun y => .flit (linkId f) y.seq)) ∧
    (x.state ≠ 1 → exec (.laneFailure lnk flag) s = .next s) ∧
    (x.state = 1 → exec (.laneFailure lnk true) s = .next (s.modLink k fun y => { y with repair := y.repair + 1 })) ∧
    (x.state = 1 → exec (.laneFailure lnk false) s = .next ((bothEnds k).foldl State.degrade s)) ∧
    (∃ u : State, s.degrade k = u.post (.retrained (linkId k)) ∧ (u.linkAt k).state = 2 ∧ (u.linkAt k).retrains = x.retrains + 1 ∧
      (u.linkAt k).width.toNat = (if x.width.toNat = fullWidth k / 2 then x.width.toNat else fullWidth k / 2) ∧
      u.threads = s.threads) ∧
    (x.state ≠ 2 → exec (.retrainComplete lnk) s = .next s) ∧
    (x.state = 2 → ∃ t : State, exec (.retrainComplete lnk) s = .next t ∧ (t.linkAt k).state = 1 ∧ (t.linkAt k).late = [] ∧
      (t.linkAt k).nakHeld = none ∧ t.threads = s.threads ∧ t.mem = s.mem) ∧
    ((48 ≤ k ∨ x.state = 0 ∨ x.state = 3) → exec (.moduleDown lnk flag) s = .next s) ∧
    (k < 32 → x.state ≠ 0 → x.state ≠ 3 → ∃ t : State, exec (.moduleDown lnk flag) s = .next t ∧ t.threads = s.threads ∧
      (∀ e ∈ bothEnds k, (t.linkAt e).state = 3 ∧ (t.linkAt e).width = 0 ∧ (t.linkAt e).detour = true) ∧
      t.fw.frozen = (s.fw.frozen || !flag) ∧ t.fw.frozenHard = (s.fw.frozenHard || !flag)) ∧
    (32 ≤ k → k < 48 → x.state ≠ 0 → x.state ≠ 3 → ∃ t : State, exec (.moduleDown lnk flag) s = .next t ∧
      (t.linkAt k).state = 3 ∧ (t.linkAt k).width = 0 ∧
      ∀ p ∈ s.pierSets (Config.pierPeer (k - 32)), (t.part p).pier.getLsbD 24 = false) ∧
    (∀ port, (1 < port ∨ (s.linkAt (48 + port)).state = 3 → exec (.ebnanPortDown port) s = .next s) ∧
      (port ≤ 1 → (s.linkAt (48 + port)).state ≠ 3 → ∃ t : State, exec (.ebnanPortDown port) s = .next t ∧ t.threads = s.threads ∧
        (t.linkAt (48 + port)).state = 3 ∧ (t.linkAt (48 + port)).width = 0 ∧ (t.linkAt (48 + port)).detour = true ∧
        let e := s.linkAt (48 + port)
        let j := 49 - port
        let a := (s.shut (48 + port)).modLink (48 + port) fun y => { y with replayed := y.replayed + BitVec.ofNat 64 e.buf.length }
        let ms := e.buf.flatMap (fun y => y.msgs) ++ e.queue
        let b := ms.foldl (fun v m => v.cargo (portDie (48 + port)) (portDie j) m.vert m.data) a
        t = if (a.linkAt j).state = 3 then a else
          (b.modLink j fun y => { y with queue := y.queue ++ ms }).pump ((b.linkAt j).queue.length + ms.length) j))

/-! ## The host and the firmware (R401-R403, R411-R420) -/

/-- Host accesses and the scrubber. Every one of them completes, and touches no thread. A host read returns a byte of DRAM,
of a command page, or 0. A host write to DRAM lands where a valid partition opens every granule that it touches, and a ring
that it sets running is served, its reason cleared; elsewhere it is dropped and reported. A write to doorbell words rings
each ring that it touches; one to a command page lands there, and a block whose status byte it sets to 1 queues with the
firmware, an op that R417 does not list to be refused with reason 1; elsewhere a write has no effect. A host access to host
memory lands, or returns its byte. A scrub of a sector with a corrected error clears it and counts it, saturating, for the
partition that owns it, and of any other does nothing (R355, R398, R400-R403, R417; the ports' places, port 1's from 2^48 on,
are log entry 46, the arguments in a block log entry 48). What comes in at a port counts a flit there, one for each line of
DRAM, and goes on to its die; which flits those are is log entry 47. -/
def Obligations.HostAccesses : Prop :=
  ∀ (s : State) (addr : Nat) (bytes : List Byte) (sector : Nat),
    let o := addr % 2 ^ 48
    let last := o + bytes.length - 1
    let port := addr / 2 ^ 48 % 2
    let old := vget CmdPage.zero s.fw.pages port
    let cmd := 0xC00000000000
    let bell := 0x800000000000
    let k := s.upPort (48 + port)
    let lines := s.hostFlits k o bytes.length true
    let opened := ∀ g, o / 65536 ≤ g → g ≤ last / 65536 → ∃ p ∈ s.parts, p.2.valid = true ∧ inRanges p.2.writable g = true
    (∃ t : State, exec (.hostWriteDeviceDram addr bytes) s = .next t ∧ t.threads = s.threads) ∧
    (∃ t : State, exec (.hostSectorAccess addr bytes) s = .next t ∧ t.threads = s.threads) ∧
    (∃ t : State, exec (.patrolScrub sector) s = .next t ∧ t.threads = s.threads ∧ t.mem = s.mem ∧ sector ∉ t.corrSectors) ∧
    (bytes = [] → ∃ t : State, exec (.hostWriteDeviceDram addr bytes) s = .next t ∧ t.mem = s.mem ∧
      t.fw.hostRead = [if inDram o then (s.physRead o 1).getD 0 0
        else if cmd ≤ o ∧ o < cmd + 4096 then old.byte (o - cmd) else 0]) ∧
    (bytes ≠ [] → inDram last = true →
      (opened → ∃ t : State, exec (.hostWriteDeviceDram addr bytes) s = .next t ∧ t.cores = s.cores ∧
        (∀ a, (∀ p r, a ≠ (s.ring p r).cb + 25) → t.physRead a 1 =
          if o ≤ a ∧ a ≤ last then [bytes.getD (a - o) 0] else s.physRead a 1) ∧
        ((∀ p r, (s.ring p r).cb % 64 = 0) → ∀ p ∈ s.parts, ∀ r < 8, (s.ring p.1 r).cb ≠ 0 → (s.ring p.1 r).state ≠ 1 →
          ((s.physWrite o bytes).ring p.1 r).state = 1 →
            t.physRead ((s.ring p.1 r).cb + 25) 1 = [0] ∧ (.packet p.1 r) ∈ t.agenda)) ∧
      (¬ opened → exec (.hostWriteDeviceDram addr bytes) s =
        .next (lines.mgmtReport 5 0 (BitVec.ofNat 32 (o / 2 ^ 38)) (BitVec.ofNat 64 o)))) ∧
    (s.upPort (48 + port) = if (s.linkAt (48 + port)).state = 3 then 49 - port else 48 + port) ∧
    (∀ a n write, let t := s.hostFlits k a n write
      t.mem = s.mem ∧ t.threads = s.threads ∧ t.cores = s.cores ∧ t.parts = s.parts ∧ t.fw = s.fw ∧
      ((s.linkAt k).state = 1 ∨ (s.linkAt k).state = 2 →
        (t.linkAt k).rxflits = (s.linkAt k).rxflits + BitVec.ofNat 64 (spansOf lineEdge a n).length)) ∧
    (∀ die, let t := s.hostBell k die
      t.mem = s.mem ∧ t.threads = s.threads ∧ t.cores = s.cores ∧ t.parts = s.parts ∧ t.fw = s.fw ∧
      ((s.linkAt k).state = 1 ∨ (s.linkAt k).state = 2 → (t.linkAt k).rxflits = (s.linkAt k).rxflits + 1)) ∧
    (bytes ≠ [] → inDram last = false →
      (bell ≤ o → o < bell + 4096 * 160 → exec (.hostWriteDeviceDram addr bytes) s = .next
        (((List.range 8).filter fun r => o % 4096 < 8 * r + 8 && 8 * r < o % 4096 + bytes.length).foldl
          (fun v r => (v.hostBell k (some ((v.ring ((o - bell) / 4096) r).base / 2 ^ 38 % 8))).ringBell ((o - bell) / 4096) r) s)) ∧
      (cmd ≤ o → o < cmd + 64 → ∃ t : State, exec (.hostWriteDeviceDram addr bytes) s = .next t ∧ t.mem = s.mem ∧
        let new := fun (j : Nat) => if o - cmd ≤ j ∧ j < o - cmd + bytes.length then bytes.getD (j - (o - cmd)) 0 else old.byte j
        let page := vget CmdPage.zero t.fw.pages port
        let handed := o ≤ cmd + 1 ∧ cmd + 1 < o + bytes.length ∧ new 1 = 1 ∧ (s.fw.boot = 1 ∨ new 0 = 1)
        (∀ j, j < 64 → j ≠ 3 → page.byte j = new j) ∧
        (handed → t.fw.waiting = s.fw.waiting ++ [page.command port]) ∧ (¬ handed → t.fw.waiting = s.fw.waiting)) ∧
      (¬ (bell ≤ o ∧ o < bell + 4096 * 160) → ¬ (cmd ≤ o ∧ o < cmd + 64) →
        exec (.hostWriteDeviceDram addr bytes) s = .next (s.hostBell k none))) ∧
    (∀ part r, exec (.doorbell part r) s = .next (s.ringBell part r)) ∧
    (∀ (p : CmdPage) (n : Nat),
      let h : CmdHead := ⟨n, p.tag⟩
      (p.op = 1 → p.command n = .bootstat h) ∧ (p.op = 6 → p.command n = .freeze h) ∧ (p.op = 7 → p.command n = .thaw h) ∧
      (p.op = 0 ∨ 11 < p.op.toNat → p.command n = .refuse n 1) ∧
      (2 ≤ p.op.toNat → p.op.toNat ≤ 11 → p.op ≠ 6 → p.op ≠ 7 → Config.blockArgs p.op p.args = none → p.command n = .refuse n 2) ∧
      (∀ a, Config.blockArgs p.op p.args = some a →
        (p.op = 2 → p.command n = .partset h a.cfg) ∧ (p.op = 3 → p.command n = .partdel h a.part) ∧
        (p.op = 4 → p.command n = .attest h a.addr a.nonce) ∧ (p.op = 5 → p.command n = .mgmtq h a.addr) ∧
        (p.op = 8 → p.command n = .dhalt h a.target a.writes) ∧ (p.op = 9 → p.command n = .drun h a.thr a.writes) ∧
        (p.op = 10 → p.command n = .dstep h a.thr) ∧ (p.op = 11 → p.command n = .floor h a.version a.sig))) ∧
    (let last := addr + max 1 bytes.length - 1
     (inHost addr = false ∨ inHost last = false → exec (.hostSectorAccess addr bytes) s = .next s) ∧
     (bytes ≠ [] → inHost addr = true → inHost last = true → ∃ t : State, exec (.hostSectorAccess addr bytes) s = .next t ∧
       t.physRead addr bytes.length = bytes ∧ (∀ a, a < addr ∨ last < a → t.physRead a 1 = s.physRead a 1)) ∧
     (bytes = [] → inHost addr = true → ∃ t : State, exec (.hostSectorAccess addr bytes) s = .next t ∧ t.mem = s.mem ∧
       t.fw.hostRead = s.physRead addr 1)) ∧
    (sector ∉ s.corrSectors → exec (.patrolScrub sector) s = .next s) ∧
    (sector ∈ s.corrSectors → ∃ t : State, exec (.patrolScrub sector) s = .next t ∧
      ∀ p, s.parts.find? (fun p => p.2.valid && inRanges p.2.owned (sector / 1366)) = some p →
        (t.part p.1).cecount = BitVec.ofNat 64 (min 0xFFFFFFFF ((s.part p.1).cecount.toNat + 1)))

/-- The command page. A command waits while a PARTDEL is executed, but for the THAW of a device frozen meanwhile (log entry
46). `BOOTSTAT` is answered in every boot status; the others only when the boot has ended well, with the page's opcode, tag
and status: 2 done, or 3 refused with its reason. `MGMTQ` takes an aligned address in host memory, or 0; `FLOOR` raises the
version floor with a signature that verifies; `ATTEST` writes its report and signature; a debug command needs dbgctl bit 0
(reason 3) and its target's condition (reason 2), and shows the thread's registers; `FREEZE` freezes, `THAW` thaws a freeze
that may be thawed, and is done without a thaw while FREEZE_N is low; `PARTDEL` of a partition that does not exist and
`PARTSET` of arguments out of range, or of another partition's ASIDs, are refused. `PARTDEL` kills the teams of the
partition's launches and passes its vault groups on; once no launch is live it zeroes the scratchpads and slots of its
courses, and the partition is gone, its page done, none of its requests left at a vault die (R12, R35, R196, R386, R388,
R412-R421). A group that reads one passed on is unconfigured, and its cells read nothing of it any more (log entry 74). The
model's other readings: log entries 40, 42, 48. -/
def Obligations.CommandPages : Prop :=
  ∀ (s : State) (cmd : CmdHead), cmd.port < 2 →
    let page := fun (t : State) => vget CmdPage.zero t.fw.pages cmd.port
    let is := fun (t : State) (op st reason : Byte) =>
      page t = { op := op, status := st, reason := reason, tag := cmd.tag, args := (page s).args }
    let quiet := fun (t : State) => t.mem = s.mem ∧ t.threads = s.threads
    (s.busy = true ↔ ∃ p ∈ s.parts, p.2.deleting ≠ none) ∧
    (s.busy = true → exec (.bootstat cmd) s =
      .next { s with fw := { s.fw with waiting := s.fw.waiting ++ [.bootstat cmd] } }) ∧
    (s.busy = false → ∃ t : State, exec (.bootstat cmd) s = .next t ∧ is t 1 2 s.fw.boot ∧ quiet t) ∧
    (∀ cfg part addr nonce target ws thr v sig, ∀ j ∈ [(Instr.partset cmd cfg, Cmd.partset cmd cfg), (.partdel cmd part, .partdel cmd part),
      (.attest cmd addr nonce, .attest cmd addr nonce), (.mgmtq cmd addr, .mgmtq cmd addr), (.freeze cmd, .freeze cmd),
      (.dhalt cmd target ws, .dhalt cmd target ws), (.drun cmd thr ws, .drun cmd thr ws),
      (.dstep cmd thr, .dstep cmd thr), (.floor cmd v sig, .floor cmd v sig)],
      (s.fw.boot ≠ 1 → exec j.1 s = .next s) ∧
      (s.fw.boot = 1 → s.busy = true → exec j.1 s = .next { s with fw := { s.fw with waiting := s.fw.waiting ++ [j.2] } })) ∧
    (s.fw.boot ≠ 1 → exec (.thaw cmd) s = .next s) ∧
    (s.fw.boot = 1 → s.busy = true → s.fw.frozen = false →
      exec (.thaw cmd) s = .next { s with fw := { s.fw with waiting := s.fw.waiting ++ [.thaw cmd] } }) ∧
    (s.fw.boot = 1 → s.busy = false ∨ s.fw.frozen = true →
      (s.fw.frozenHard = true → exec (.thaw cmd) s = .next (s.setPage cmd 7 (some 2))) ∧
      (s.fw.frozenHard = false → s.fw.pinLow = false →
        ∃ t : State, exec (.thaw cmd) s = .next t ∧ t.fw.frozen = false ∧ is t 7 2 0 ∧ t.threads = s.threads) ∧
      (s.fw.frozenHard = false → s.fw.pinLow = true → exec (.thaw cmd) s = .next (s.setPage cmd 7 none))) ∧
    (s.fw.boot = 1 → s.busy = false →
      (∀ addr, (addr = 0 ∨ (addr % 64 = 0 ∧ inHost addr = true) →
          ∃ t : State, exec (.mgmtq cmd addr) s = .next t ∧ t.fw.mgmtQueue = addr ∧ is t 5 2 0 ∧ quiet t) ∧
        (¬ (addr = 0 ∨ (addr % 64 = 0 ∧ inHost addr = true)) → exec (.mgmtq cmd addr) s = .next (s.setPage cmd 5 (some 2)))) ∧
      (∀ (v : Word32) sig, exec (.floor cmd v sig) s =
        .next (if v.toNat ≤ 64 ∧ slhVerify s.fw.imageKey (toBytes 4 v) sig = true then
            { s with fw := { s.fw with floor := max s.fw.floor v.toNat } }.setPage cmd 11 none
          else s.setPage cmd 11 (some 2))) ∧
      (∀ addr nonce, let sound := nonce.length = 32 ∧ inHost addr = true ∧ inHost (addr + 160 + 7856 - 1) = true
        (¬ sound → exec (.attest cmd addr nonce) s = .next (s.setPage cmd 4 (some 2))) ∧
        (sound →
          let bs := s.report nonce ++ slhSign s.fw.idSecret ((List.range 16).map (Config.signRandom s.fresh)) (s.report nonce)
          ∃ t : State, exec (.attest cmd addr nonce) s = .next t ∧ is t 4 2 0 ∧ t.physRead addr bs.length = bs ∧
            (∀ a, a < addr ∨ addr + bs.length ≤ a → t.physRead a 1 = s.physRead a 1) ∧ t.threads = s.threads)) ∧
      (s.fw.dbgctl.getLsbD 0 = false → ∀ target ws thr,
        exec (.dhalt cmd target ws) s = .next (s.setPage cmd 8 (some 3)) ∧
        exec (.drun cmd thr ws) s = .next (s.setPage cmd 9 (some 3)) ∧
        exec (.dstep cmd thr) s = .next (s.setPage cmd 10 (some 3))) ∧
      (s.fw.dbgctl.getLsbD 0 = true → ∀ thr ws,
        let seen := { s with fw := { s.fw with dbgView := some ⟨s.ctx thr, (List.range 8).map fun k =>
          (s.winVal thr (BitVec.ofNat 5 (16 + k)), s.winFull thr (BitVec.ofNat 5 (16 + k)))⟩ } }
        ((s.ctx thr).live = true → exec (.dhalt cmd (.thread thr) ws) s = .next ((seen.modCtx thr fun c =>
          { c with dbgAsked := true, dbgWrites := c.dbgWrites ++ ws }).setPage cmd 8 none)) ∧
        ((s.ctx thr).live = false → exec (.dhalt cmd (.thread thr) ws) s = .next (s.setPage cmd 8 (some 2))) ∧
        (∀ l t, ((s.teamOf l t).state.alive = false → exec (.dhalt cmd (.team l t) ws) s = .next (s.setPage cmd 8 (some 2))) ∧
          ((s.teamOf l t).state.alive = true →
            let ask := fun (c : Ctx) => { c with dbgAsked := true, dbgWrites := c.dbgWrites ++ ws }
            let mine := fun (c : Ctx) => if c.ofTeam l t then ask c else c
            let u := ((s.teamThreads l t).foldl (fun u x => u.modCtx x ask) s).modTeam l t fun x =>
              { x with ctxs := x.ctxs.map fun (c : Nat × Ctx) => (c.1, ask c.2)
                       image := { x.image with loans := x.image.loans.map fun (c : Nat × Ctx) => (c.1, ask c.2) } }
            exec (.dhalt cmd (.team l t) ws) s = .next ({ u with cores := u.cores.map fun (k : Nat × Core) =>
              (k.1, { k.2 with arrivals := k.2.arrivals.map fun (m : Migrant) => { m with ctx := mine m.ctx, loan := mine m.loan }
                               tm := { k.2.tm with loans := k.2.tm.loans.map fun (c : Nat × Ctx) => (c.1, mine c.2) } }) }.setPage cmd 8 none))) ∧
        (let go := fun (u : State) (ws : List DbgWrite) (step : Bool) =>
          ((((u.ctx thr).dbgWrites ++ ws).foldl (fun u w => u.debugWindow thr w) u).modCtx thr fun c =>
            { ((c.dbgWrites ++ ws).foldl Ctx.debugWrite c) with
              dbgWrites := [], dbgHeld := false, dbgAsked := step, dbgStep := step })
         ((s.ctx thr).live = true → (s.ctx thr).dbgAsked = true →
           exec (.drun cmd thr ws) s = .next ((go seen ws false).setPage cmd 9 none)) ∧
         ((s.ctx thr).live = true → (s.ctx thr).dbgHeld = true →
           exec (.dstep cmd thr) s = .next ((go (s.reissue thr) [] true).setPage cmd 10 none) ∧
           let parked := (s.unwatch thr).ctx thr
           (s.reissue thr).ctx thr = { parked with claimParked := false, wait := parked.wait.again })) ∧
        ((s.ctx thr).live = false ∨ (s.ctx thr).dbgAsked = false → exec (.drun cmd thr ws) s = .next (s.setPage cmd 9 (some 2))) ∧
        ((s.ctx thr).live = false ∨ (s.ctx thr).dbgHeld = false → exec (.dstep cmd thr) s = .next (s.setPage cmd 10 (some 2)))) ∧
      (∃ t : State, exec (.freeze cmd) s = .next t ∧ t.fw.frozen = true ∧ t.fw.frozenHard = s.fw.frozenHard ∧ is t 6 2 0 ∧
        t.threads = s.threads ∧ (s.fw.frozen = false → ∀ c, (t.calib c).v = false)) ∧
      (∀ part, (s.part part).valid = false → exec (.partdel cmd part) s = .next (s.setPage cmd 3 (some 2))) ∧
      (∀ part, (s.part part).valid = true →
        let ls := (s.launches.filter fun l => l.2.live && l.2.part == part).map Prod.fst
        let u := ls.foldl State.killLaunch s
        exec (.partdel cmd part) s = .next ((((u.part part).vaultGroups.foldl State.reassign u).modPart part fun p =>
          { p with deleting := some cmd }).finishDelete part)) ∧
      (∀ cfg : PartCfg, (160 ≤ cfg.part ∨ cfg.courses = [] ∨ 4096 < cfg.asidFirst + cfg.asidCount ∨
          (∃ q ∈ s.parts, q.1 ≠ cfg.part ∧ q.2.valid = true ∧ 0 < cfg.asidCount ∧ 0 < q.2.asidCount ∧
            cfg.asidFirst < q.2.asidFirst + q.2.asidCount ∧ q.2.asidFirst < cfg.asidFirst + cfg.asidCount)) →
        exec (.partset cmd cfg) s = .next (s.setPage cmd 2 (some 2))) ∧
      (∀ cfg : PartCfg, partCfgOk cfg = true → s.partFits cfg = true → (s.part cfg.part).deleting = none →
        s.coursesIdle ((s.part cfg.part).courses.filter fun k => !cfg.courses.contains k) = true →
        ∃ t : State, exec (.partset cmd cfg) s = .next t ∧ is t 2 2 0 ∧ (t.part cfg.part).valid = true ∧ (t.part cfg.part).courses = cfg.courses ∧
          (t.part cfg.part).owned = cfg.owned ∧ (t.part cfg.part).writable = cfg.writable ∧
          (t.part cfg.part).quantum = cfg.quantum ∧ (t.part cfg.part).vaultGroups = cfg.vaultGroups ∧
          (t.part cfg.part).trange = BitVec.ofNat 64 (cfg.asidFirst + cfg.asidCount * 65536))) ∧
    (∀ part l, s.killLaunch l = ((List.range (s.launch l).n).filter fun k => (s.teamOf l k).state.alive ||
        s.suspended.any fun p => p.ident.launch == l && p.ident.team == k).foldl (fun u k => u.killTeam l k) s ∧
      ((∃ l ∈ s.launches, l.2.live = true ∧ l.2.part = part) → s.finishDelete part = s) ∧
      ((∀ l ∈ s.launches, ¬ (l.2.live = true ∧ l.2.part = part)) → (s.part part).deleting = some cmd →
        let t := s.finishDelete part
        is t 3 2 0 ∧ t.part part = Part.zero ∧ t.threads = s.threads ∧ (∀ r ∈ t.seqs, r.2.part ≠ part) ∧
        (∀ v ∈ t.vdies, ∀ q ∈ v.2.reqs, q.part ≠ part) ∧
        ∀ k ∈ (s.part part).courses, (∀ c, c < 8 → (t.core (8 * k + c)).tm.spad = []) ∧
          ∀ x ∈ (t.course k).slots, x.2.payload = [] ∧ x.2.side = [])) ∧
    (∀ g, let t := s.reassign g
      ((t.vgroup g).cfg = .unconfigured ∧ (t.vgroup g).dict = [] ∧ (t.vgroup g).cells = [] ∧ (t.vgroup g).x = [] ∧
        (t.vgroup g).scale = [] ∧ (t.vgroup g).init = [] ∧ (t.vgroup g).run = .holding ∧ (t.vgroup g).runTime = 0) ∧
      ∀ k, k ≠ g → k / 8 = g / 8 → (s.vgroup k).cfg = .configured → s.usesGroup k g = true →
        (t.vgroup k).cfg = .unconfigured ∧ ((∀ h mask a b, (s.token h).op = .acfg mask a b → (s.token h).state = .running →
            mask.getLsbD k = false) → (t.vgroup k).cells = ((s.vgroup k).cutFrom k g).cells) ∧ ∀ q ∈ t.paths k,
          (∀ j, q.src = .integ j → j / 256 ≠ g) ∧ ∀ x y, q.src = .prod true x y →
            (Tbl.get 0 (t.vgroup k).cells q.cell).toNat % 4096 < 0x811 → x / 256 ≠ g ∧ y / 256 ≠ g)

/-- Freezes. The pin, low, freezes the device, and so does a thermal trip, where a monitor's reading asks for one (a free
value, log entry 70); the pin's release thaws it unless a freeze of R394 stands; the threads keep their state. At a thaw the
values that the vault's integrators held have drifted, by free values (log entry 88). A scan reads all ones from a die that
runs, and from one that is frozen what its chain holds; with dbgctl[0] = 1 it writes back what is shifted in, where that has
the units and numbers of its chain. A halted thread is reported once, held. A device reset keeps memory, fuses and the pin's
freeze, and leaves no partition, thread or token, no trained link, no permit and no valid column; then the phases follow in
order, and the first that fails ends the boot with its status; whether a course passes the test of phase 4 is a free value
(log entry 48) (R387, R411-R421). The model's readings in it: log entries 43 and 49. -/
def Obligations.FreezeAndReset : Prop :=
  ∀ (s : State) (die chain thr : Nat) (detail : Byte) (image : List Byte),
    (∃ t : State, exec .freezePinAssert s = .next t ∧ t.fw.frozen = true ∧ t.fw.pinLow = true ∧ t.threads = s.threads) ∧
    (s.fw.pinLow = false → exec .freezePinRelease s = .next s) ∧
    (s.fw.pinLow = true → ∃ t : State, exec .freezePinRelease s = .next t ∧ t.fw.pinLow = false ∧ t.threads = s.threads ∧
      t.fw.frozen = (s.fw.frozen && s.fw.frozenHard)) ∧
    (s.fw.frozen = true → s.fw.frozenHard = false → s.fw.pinLow = true → ∃ t : State, exec .freezePinRelease s = .next t ∧
      ∀ g, g < 16 → ∀ p, p < 256 → Tbl.get 0 (t.vgroup g).x p = Tbl.get 0 (s.vgroup g).x p +
        if p ∈ (s.vgroup g).integrators then Config.freezeDrift (s.fresh + 256 * g + p) else 0) ∧
    (let trips := 110 ≤ Config.dieJunction s.fresh die ∨ Config.coolantFlow s.fresh < 10
     (trips → ∃ t : State, exec (.thermalTrip die detail) s = .next t ∧ t.fw.frozen = true ∧ t.threads = s.threads) ∧
     (¬ trips → exec (.thermalTrip die detail) s = .next { s with fresh := s.fresh + 1 })) ∧
    (let r := if die < 8 then s.chainOf die chain else s.vaultChain (die - 8) chain
     let read := fun (bs : List Byte) (r : Readout) =>
       { s with fresh := s.fresh + 1, fw := { s.fw with scan := bs, readout := r } }
     (s.fw.frozen = false → exec (.scanReadout die chain) s =
       .next (read (List.replicate (Config.scanLength die chain) 0xFF) .ones)) ∧
     (s.fw.frozen = true → ∃ bs,
       (8 ≤ die → chain = 0 → bs = ((List.range 64).map fun k => s.calib (64 * (die - 8) + k)).flatMap Calib.bytes) ∧
       (s.fw.dbgctl.getLsbD 0 = false ∨ Config.shiftedIn s.fresh r = none → exec (.scanReadout die chain) s = .next (read bs r)) ∧
       (s.fw.dbgctl.getLsbD 0 = true → ∀ x, Config.shiftedIn s.fresh r = some x → exec (.scanReadout die chain) s =
         .next (if r.fits x then (read bs r).scanBack die chain x else read bs r)))) ∧
    (∀ (cs : List Calib) d x, ((Readout.columns cs).fits x = true ↔ ∃ cs', x = .columns cs' ∧ cs'.length = cs.length) ∧
      ((Readout.remap d).fits x = true ↔ ∃ d', x = .remap d') ∧ Readout.ones.fits x = false) ∧
    (s.chainOf die 29 = .tokens (((List.range 20).map fun k => 20 * die + k).map fun k => (k, (s.course k).tokens)) (s.die die).pcount
      (s.die die).held (s.parts.map fun p => (p.1, vget 0 p.2.held die)) (s.die die).waiting) ∧
    (∀ cs : List Calib, cs.length = 64 → ∀ k c, k < 64 → cs[k]? = some c →
      (s.scanBack die chain (.columns cs)).calib (64 * (die - 8) + k) = c) ∧
    (let c := s.ctx thr
     let due := c.live = true ∧ c.dbgAsked = true ∧ c.dbgHeld = false ∧ c.wait.boundary = true
     (due → exec (.debugHaltReached thr) s = .next (((s.modCtx thr fun c => { c with dbgHeld := true }).viewed thr).mgmtReport 6 0
       (BitVec.ofNat 32 (dieOfCore (coreOf thr))) (BitVec.ofNat 64 thr))) ∧
     (¬ due → exec (.debugHaltReached thr) s = .next s)) ∧
    (∃ t : State, exec (.deviceReset image) s = .next t ∧ t.mem = s.mem ∧ t.threads = [] ∧ t.parts = [] ∧ t.launches = [] ∧
      (∀ k, (t.course k).tokens = []) ∧ t.vcols = [] ∧ (∀ d, d < 8 → (t.die d).pcount = 0 ∧ (t.die d).mhz = 1000) ∧
      (∀ k l, (k, l) ∈ t.links → l.state = 2) ∧ t.fw.floor = s.fw.floor ∧ t.fw.keyHash = s.fw.keyHash ∧
      t.fw.secret = s.fw.secret ∧ t.fw.frozen = s.fw.pinLow ∧ t.fw.boot = 0 ∧ t.fw.phase = 1 ∧ t.fw.image = image) ∧
    (s.fw.boot ≠ 0 → s.bootPhase = s) ∧
    (s.fw.boot = 0 →
      let t := s.bootPhase
      (s.fw.phase = 1 → t = { s with fw := { s.fw with phase := 2 } }) ∧
      (s.fw.phase = 2 → imageOk s.fw s.fw.image = false → t = { s with fw := { s.fw with boot := 2 } }) ∧
      (s.fw.phase = 2 → imageOk s.fw s.fw.image = true → t = { s with fw := { s.fw with phase := 3 } }) ∧
      (s.fw.phase = 3 →
        let works := (∀ d, d < 8 → (s.die d).disabled.toNat ≤ 20) ∧ ∀ c, c < 160 → Config.courseWorks s.fresh c = true
        (¬ works → t.fw.boot = 3 ∧ t.links = s.links) ∧
        (works → t.fw.boot = 0 ∧ t.fw.phase = 4 ∧ t.links = s.links.map fun (l : Nat × Link) =>
          (l.1, if l.2.state = 2 then { l.2 with state := 1 } else l.2))) ∧
      (s.fw.phase = 4 → t.fw.phase = 5 ∧ t.keystone = 0 ∧ t.cores = [] ∧ t.courses = [] ∧ t.vgroups = [] ∧
        t.caches.l2 = [] ∧ t.caches.l1 = [] ∧ t.caches.l1i = []) ∧
      (s.fw.phase = 5 → t.fw.phase = 6 ∧ t.mem = s.mem ∧ t.threads = s.threads) ∧
      (s.fw.phase = 6 → t.fw.phase = 7 ∧ ∀ k d, (k, d) ∈ t.dies → d.pcount = 28 ∧ d.mhz = 2000) ∧
      (s.fw.phase = 7 → t.fw.boot = 1 ∧ t.fw.imageKey = (s.fw.image.drop 16).take 32 ∧ t.fw.imageHash = sha256 s.fw.image ∧
        (t.fw.idSecret, t.fw.idPublic) = identity s.fw.secret))

/-! ## Reset and the memory's form -/

/-- After a device reset: no partition, thread or launch; every byte of memory reads 0 and the memory is in canonical form;
the keystone sequence is 0; every die holds 28 permits, runs at 2.0 GHz and has its row in ascending order; the power budget
is 3600 W; the links are up at full width; every calibration is valid (R343, R411, R415, R35). The value that an unlisted
byte reads as is the model's (log entry 1), and so is that order (log entry 68). The model's readings in it: log entries 6
and 28. -/
def Obligations.ResetState : Prop :=
  let s := State.reset
  Memory.wf s.mem = true ∧ (∀ a n, s.physRead a n = List.replicate n 0) ∧ (∀ c a n, s.spadRead c a n = List.replicate n 0) ∧
  (∀ t, (s.ctx t).live = false) ∧ (∀ p, (s.part p).valid = false) ∧ (∀ l, (s.launch l).live = false) ∧ s.keystone = 0 ∧
  s.fw.budget = 3600 ∧ s.fw.frozen = false ∧ s.fw.boot = 1 ∧
  (∀ d, d < 8 → (s.die d).pcount = 28 ∧ (s.die d).mhz = 2000 ∧ (s.die d).held = 0 ∧
    (s.die d).ranking = (List.range 160).map (160 * d + ·)) ∧
  (∀ c, c < 128 → (s.calib c).v = true) ∧
  (∀ m : Nat × Nat, (m.1 < 8 ∧ m.2 < 4 ∧ (m.2 = 0 → m.1 % 4 ≠ 3) ∧ (m.2 = 1 → m.1 % 4 ≠ 0)) →
    (s.linkAt (4 * m.1 + m.2)).state = 1 ∧ (s.linkAt (4 * m.1 + m.2)).width = 64)

/-- Every step keeps the memory in canonical form: addresses rise strictly, and no entry holds what an unlisted address reads
as. -/
def Obligations.MemoryStaysCanonical : Prop :=
  ∀ s t : State, Memory.wf s.mem = true → step s = .next t → Memory.wf t.mem = true
end

