-- ==== Sys2Proof/Laws/Tbl.lean ====
section
/-! SUPPORT. Sparse tables: a read after a write, and the canonical form that every write keeps. -/

namespace Sys2Proof.Machine

theorem Tbl.get_erase_self {α : Type} (d : α) (t : Tbl α) (k : Nat) : Tbl.get d (Tbl.erase t k) k = d := by
  induction t with
  | nil => rfl
  | cons p t ih =>
    obtain ⟨j, x⟩ := p
    simp only [Tbl.erase]
    split
    · exact ih
    · simp [Tbl.get, *]

theorem Tbl.get_erase_ne {α : Type} (d : α) (t : Tbl α) {k i : Nat} (h : i ≠ k) :
    Tbl.get d (Tbl.erase t k) i = Tbl.get d t i := by
  induction t with
  | nil => rfl
  | cons p t ih =>
    obtain ⟨j, x⟩ := p
    simp only [Tbl.erase, Tbl.get]
    split
    · next hj => rw [ih, if_neg (by omega)]
    · simp only [Tbl.get, ih]

theorem Tbl.get_put_self {α : Type} (d : α) (t : Tbl α) (k : Nat) (v : α) : Tbl.get d (Tbl.put t k v) k = v := by
  induction t with
  | nil => simp [Tbl.put, Tbl.get]
  | cons p t ih =>
    obtain ⟨j, x⟩ := p
    simp only [Tbl.put]
    split
    · simp [Tbl.get]
    · split
      · simp [Tbl.get]
      · simp [Tbl.get, *]

theorem Tbl.get_put_ne {α : Type} (d : α) (t : Tbl α) {k i : Nat} (v : α) (h : i ≠ k) :
    Tbl.get d (Tbl.put t k v) i = Tbl.get d t i := by
  induction t with
  | nil => simp [Tbl.put, Tbl.get]; omega
  | cons p t ih =>
    obtain ⟨j, x⟩ := p
    simp only [Tbl.put]
    split
    · next hj => simp only [Tbl.get]; rw [if_neg (by omega), if_neg (by omega)]
    · split
      · simp only [Tbl.get]; rw [if_neg (by omega)]
      · simp only [Tbl.get, ih]

/-- A read of the entry that was written. -/
@[simp] theorem Tbl.get_set_self {α : Type} [DecidableEq α] (d : α) (t : Tbl α) (k : Nat) (v : α) :
    Tbl.get d (Tbl.set d t k v) k = v := by
  unfold Tbl.set
  split
  · next h => rw [Tbl.get_erase_self, h]
  · exact Tbl.get_put_self ..

/-- A read of another entry. -/
theorem Tbl.get_set_ne {α : Type} [DecidableEq α] (d : α) (t : Tbl α) {k i : Nat} (v : α) (h : i ≠ k) :
    Tbl.get d (Tbl.set d t k v) i = Tbl.get d t i := by
  unfold Tbl.set
  split
  · exact Tbl.get_erase_ne _ _ h
  · exact Tbl.get_put_ne _ _ _ h

/-- Both in one. -/
theorem Tbl.get_set {α : Type} [DecidableEq α] (d : α) (t : Tbl α) (k i : Nat) (v : α) :
    Tbl.get d (Tbl.set d t k v) i = if i = k then v else Tbl.get d t i := by
  split
  · next h => rw [h, Tbl.get_set_self]
  · next h => exact Tbl.get_set_ne _ _ _ h

theorem Tbl.above_mono {α : Type} {k j : Nat} (h : k ≤ j) : (t : Tbl α) → Tbl.above j t = true → Tbl.above k t = true
  | [], _ => rfl
  | (i, _) :: t, ht => by
    simp only [Tbl.above, Bool.and_eq_true, decide_eq_true_eq] at ht ⊢
    exact ⟨by omega, ht.2⟩

theorem Tbl.above_erase {α : Type} (k : Nat) :
    (t : Tbl α) → (j : Nat) → Tbl.above j t = true → Tbl.above j (Tbl.erase t k) = true
  | [], _, _ => rfl
  | (i, _) :: t, j, ht => by
    simp only [Tbl.above, Bool.and_eq_true, decide_eq_true_eq, Tbl.erase] at ht ⊢
    split
    · exact Tbl.above_mono (by omega) _ (Tbl.above_erase k t i ht.2)
    · simp [Tbl.above, ht.1, Tbl.above_erase k t i ht.2]

theorem Tbl.above_put {α : Type} (k : Nat) (v : α) :
    (t : Tbl α) → (j : Nat) → j < k → Tbl.above j t = true → Tbl.above j (Tbl.put t k v) = true
  | [], _, h, _ => by simp [Tbl.put, Tbl.above, h]
  | (i, _) :: t, j, h, ht => by
    simp only [Tbl.above, Bool.and_eq_true, decide_eq_true_eq, Tbl.put] at ht ⊢
    split
    · next hi => subst hi; simp [Tbl.above, h, ht.2]
    · split
      · simp [Tbl.above, *]
      · simp [Tbl.above, ht.1, Tbl.above_put k v t i (by omega) ht.2]

theorem Tbl.wf_erase {α : Type} [DecidableEq α] (d : α) (k : Nat) :
    (t : Tbl α) → Tbl.wf d t = true → Tbl.wf d (Tbl.erase t k) = true
  | [], _ => rfl
  | (i, x) :: t, ht => by
    simp only [Tbl.wf, Bool.and_eq_true, Tbl.erase] at ht ⊢
    split
    · exact Tbl.wf_erase d k t ht.2
    · simp only [Tbl.wf, Bool.and_eq_true]
      exact ⟨⟨Tbl.above_erase k t i ht.1.1, ht.1.2⟩, Tbl.wf_erase d k t ht.2⟩

theorem Tbl.wf_put {α : Type} [DecidableEq α] (d : α) (k : Nat) (v : α) (hv : v ≠ d) :
    (t : Tbl α) → Tbl.wf d t = true → Tbl.wf d (Tbl.put t k v) = true
  | [], _ => by simp [Tbl.put, Tbl.wf, Tbl.above, hv]
  | (i, x) :: t, ht => by
    simp only [Tbl.wf, Bool.and_eq_true, Tbl.put] at ht ⊢
    split
    · next h => subst h; simp [Tbl.wf, hv, ht.1.1, ht.2]
    · split
      · next h =>
        simp only [Tbl.wf, Tbl.above, Bool.and_eq_true, decide_eq_true_eq]
        exact ⟨⟨⟨h, ht.1.1⟩, by simp [hv]⟩, ⟨ht.1, ht.2⟩⟩
      · simp only [Tbl.wf, Bool.and_eq_true]
        exact ⟨⟨Tbl.above_put k v t i (by omega) ht.1.1, ht.1.2⟩, Tbl.wf_put d k v hv t ht.2⟩

/-- Every write keeps the canonical form. -/
theorem Tbl.wf_set {α : Type} [DecidableEq α] (d : α) (t : Tbl α) (k : Nat) (v : α) (h : Tbl.wf d t = true) :
    Tbl.wf d (Tbl.set d t k v) = true := by
  unfold Tbl.set
  split
  · exact Tbl.wf_erase d k t h
  · next hv => exact Tbl.wf_put d k v hv t h

/-- Writing bytes keeps the canonical form of a memory. -/
theorem Mem.wf_write (bs : List Byte) : (m : Tbl Byte) → (a : Nat) → Memory.wf m = true → Memory.wf (Mem.write m a bs) = true := by
  induction bs with
  | nil => intro m a h; exact h
  | cons b bs ih => intro m a h; exact ih _ _ (Tbl.wf_set 0 m a b h)

/-- A byte outside the bytes written reads as before. -/
theorem Mem.get_write_out (bs : List Byte) : (m : Tbl Byte) → (a i : Nat) → (i < a ∨ a + bs.length ≤ i) →
    Tbl.get 0 (Mem.write m a bs) i = Tbl.get 0 m i := by
  induction bs with
  | nil => intros; rfl
  | cons b bs ih =>
    intro m a i h
    simp only [List.length_cons] at h
    rw [Mem.write, ih _ _ _ (by omega), Tbl.get_set_ne _ _ _ (by omega)]

/-- A byte of the bytes written reads as written. -/
theorem Mem.get_write_in (bs : List Byte) : (m : Tbl Byte) → (a i : Nat) → (h : i < bs.length) →
    Tbl.get 0 (Mem.write m a bs) (a + i) = bs[i] := by
  induction bs with
  | nil => intro m a i h; simp at h
  | cons b bs ih =>
    intro m a i h
    cases i with
    | zero => rw [Mem.write, Mem.get_write_out _ _ _ _ (by omega)]; simp
    | succ i =>
      have := ih (Tbl.set 0 m a b) (a + 1) i (by simpa using h)
      rw [Mem.write, show a + (i + 1) = a + 1 + i by omega, this]; simp

theorem Mem.length_read (m : Tbl Byte) (a n : Nat) : (Mem.read m a n).length = n := by
  induction n generalizing a with
  | zero => rfl
  | succ n ih => simp [Mem.read, ih]

/-- Each byte of a read. -/
theorem Mem.getElem_read (m : Tbl Byte) (a n i : Nat) (h : i < (Mem.read m a n).length) :
    (Mem.read m a n)[i] = Tbl.get 0 m (a + i) := by
  induction n generalizing a i with
  | zero => simp [Mem.read] at h
  | succ n ih =>
    cases i with
    | zero => rfl
    | succ i => simp only [Mem.read, List.getElem_cons_succ, ih]; congr 1; omega

/-- A read after a write to the same place gives the value written. -/
theorem Mem.read_write (m : Tbl Byte) (a : Nat) (bs : List Byte) : Mem.read (Mem.write m a bs) a bs.length = bs := by
  apply List.ext_getElem
  · exact Mem.length_read ..
  · intro i h1 h2
    rw [Mem.getElem_read, Mem.get_write_in _ _ _ _ h2]

end Sys2Proof.Machine
end

