-- ==== Sys2Proof/Laws/State.lean ====
section
/-! SUPPORT. The state under each of its updates: a lemma for each field and each accessor, so that no proof unfolds a
record update. -/

namespace Sys2Proof.Machine

/-! ## Fields that an update leaves alone -/

@[simp] theorem State.setCtx_cores (s : State) (k : Nat) (c : Ctx) : (s.setCtx k c).cores = s.cores := rfl
@[simp] theorem State.setCtx_courses (s : State) (k : Nat) (c : Ctx) : (s.setCtx k c).courses = s.courses := rfl
@[simp] theorem State.setCtx_dies (s : State) (k : Nat) (c : Ctx) : (s.setCtx k c).dies = s.dies := rfl
@[simp] theorem State.setCtx_parts (s : State) (k : Nat) (c : Ctx) : (s.setCtx k c).parts = s.parts := rfl
@[simp] theorem State.setCtx_groups (s : State) (k : Nat) (c : Ctx) : (s.setCtx k c).groups = s.groups := rfl
@[simp] theorem State.setCtx_launches (s : State) (k : Nat) (c : Ctx) : (s.setCtx k c).launches = s.launches := rfl
@[simp] theorem State.setCtx_teams (s : State) (k : Nat) (c : Ctx) : (s.setCtx k c).teams = s.teams := rfl
@[simp] theorem State.setCtx_chans (s : State) (k : Nat) (c : Ctx) : (s.setCtx k c).chans = s.chans := rfl
@[simp] theorem State.setCtx_barriers (s : State) (k : Nat) (c : Ctx) : (s.setCtx k c).barriers = s.barriers := rfl
@[simp] theorem State.setCtx_colls (s : State) (k : Nat) (c : Ctx) : (s.setCtx k c).colls = s.colls := rfl
@[simp] theorem State.setCtx_collSeq (s : State) (k : Nat) (c : Ctx) : (s.setCtx k c).collSeq = s.collSeq := rfl
@[simp] theorem State.setCtx_suspended (s : State) (k : Nat) (c : Ctx) : (s.setCtx k c).suspended = s.suspended := rfl
@[simp] theorem State.setCtx_seqs (s : State) (k : Nat) (c : Ctx) : (s.setCtx k c).seqs = s.seqs := rfl
@[simp] theorem State.setCtx_mem (s : State) (k : Nat) (c : Ctx) : (s.setCtx k c).mem = s.mem := rfl
@[simp] theorem State.setCtx_badSectors (s : State) (k : Nat) (c : Ctx) : (s.setCtx k c).badSectors = s.badSectors := rfl
@[simp] theorem State.setCtx_corrSectors (s : State) (k : Nat) (c : Ctx) : (s.setCtx k c).corrSectors = s.corrSectors := rfl
@[simp] theorem State.setCtx_badSpad (s : State) (k : Nat) (c : Ctx) : (s.setCtx k c).badSpad = s.badSpad := rfl
@[simp] theorem State.setCtx_corrWords (s : State) (k : Nat) (c : Ctx) : (s.setCtx k c).corrWords = s.corrWords := rfl
@[simp] theorem State.setCtx_corrSpad (s : State) (k : Nat) (c : Ctx) : (s.setCtx k c).corrSpad = s.corrSpad := rfl
@[simp] theorem State.setCtx_badL1 (s : State) (k : Nat) (c : Ctx) : (s.setCtx k c).badL1 = s.badL1 := rfl
@[simp] theorem State.setCtx_badL1i (s : State) (k : Nat) (c : Ctx) : (s.setCtx k c).badL1i = s.badL1i := rfl
@[simp] theorem State.setCtx_badTlb (s : State) (k : Nat) (c : Ctx) : (s.setCtx k c).badTlb = s.badTlb := rfl
@[simp] theorem State.setCtx_badWords (s : State) (k : Nat) (c : Ctx) : (s.setCtx k c).badWords = s.badWords := rfl
@[simp] theorem State.setCtx_caches (s : State) (k : Nat) (c : Ctx) : (s.setCtx k c).caches = s.caches := rfl
@[simp] theorem State.setCtx_flights (s : State) (k : Nat) (c : Ctx) : (s.setCtx k c).flights = s.flights := rfl
@[simp] theorem State.setCtx_keystone (s : State) (k : Nat) (c : Ctx) : (s.setCtx k c).keystone = s.keystone := rfl
@[simp] theorem State.setCtx_vgroups (s : State) (k : Nat) (c : Ctx) : (s.setCtx k c).vgroups = s.vgroups := rfl
@[simp] theorem State.setCtx_vcols (s : State) (k : Nat) (c : Ctx) : (s.setCtx k c).vcols = s.vcols := rfl
@[simp] theorem State.setCtx_vdies (s : State) (k : Nat) (c : Ctx) : (s.setCtx k c).vdies = s.vdies := rfl
@[simp] theorem State.setCtx_links (s : State) (k : Nat) (c : Ctx) : (s.setCtx k c).links = s.links := rfl
@[simp] theorem State.setCtx_fw (s : State) (k : Nat) (c : Ctx) : (s.setCtx k c).fw = s.fw := rfl
@[simp] theorem State.setCtx_cur (s : State) (k : Nat) (c : Ctx) : (s.setCtx k c).cur = s.cur := rfl
@[simp] theorem State.setCtx_plan (s : State) (k : Nat) (c : Ctx) : (s.setCtx k c).plan = s.plan := rfl
@[simp] theorem State.setCtx_agenda (s : State) (k : Nat) (c : Ctx) : (s.setCtx k c).agenda = s.agenda := rfl
@[simp] theorem State.setCtx_turn (s : State) (k : Nat) (c : Ctx) : (s.setCtx k c).turn = s.turn := rfl
@[simp] theorem State.setCtx_fresh (s : State) (k : Nat) (c : Ctx) : (s.setCtx k c).fresh = s.fresh := rfl
@[simp] theorem State.setCtx_writes (s : State) (k : Nat) (c : Ctx) : (s.setCtx k c).writes = s.writes := rfl
@[simp] theorem State.setCtx_hist (s : State) (k : Nat) (c : Ctx) : (s.setCtx k c).hist = s.hist := rfl
@[simp] theorem State.setCtx_nextArr (s : State) (k : Nat) (c : Ctx) : (s.setCtx k c).nextArr = s.nextArr := rfl
@[simp] theorem State.setCtx_nextOrder (s : State) (k : Nat) (c : Ctx) : (s.setCtx k c).nextOrder = s.nextOrder := rfl
@[simp] theorem State.setCtx_nextLaunch (s : State) (k : Nat) (c : Ctx) : (s.setCtx k c).nextLaunch = s.nextLaunch := rfl
@[simp] theorem State.modCtx_cores (s : State) (k : Nat) (f : Ctx → Ctx) : (s.modCtx k f).cores = s.cores := rfl
@[simp] theorem State.modCtx_courses (s : State) (k : Nat) (f : Ctx → Ctx) : (s.modCtx k f).courses = s.courses := rfl
@[simp] theorem State.modCtx_dies (s : State) (k : Nat) (f : Ctx → Ctx) : (s.modCtx k f).dies = s.dies := rfl
@[simp] theorem State.modCtx_parts (s : State) (k : Nat) (f : Ctx → Ctx) : (s.modCtx k f).parts = s.parts := rfl
@[simp] theorem State.modCtx_groups (s : State) (k : Nat) (f : Ctx → Ctx) : (s.modCtx k f).groups = s.groups := rfl
@[simp] theorem State.modCtx_launches (s : State) (k : Nat) (f : Ctx → Ctx) : (s.modCtx k f).launches = s.launches := rfl
@[simp] theorem State.modCtx_teams (s : State) (k : Nat) (f : Ctx → Ctx) : (s.modCtx k f).teams = s.teams := rfl
@[simp] theorem State.modCtx_chans (s : State) (k : Nat) (f : Ctx → Ctx) : (s.modCtx k f).chans = s.chans := rfl
@[simp] theorem State.modCtx_barriers (s : State) (k : Nat) (f : Ctx → Ctx) : (s.modCtx k f).barriers = s.barriers := rfl
@[simp] theorem State.modCtx_colls (s : State) (k : Nat) (f : Ctx → Ctx) : (s.modCtx k f).colls = s.colls := rfl
@[simp] theorem State.modCtx_collSeq (s : State) (k : Nat) (f : Ctx → Ctx) : (s.modCtx k f).collSeq = s.collSeq := rfl
@[simp] theorem State.modCtx_suspended (s : State) (k : Nat) (f : Ctx → Ctx) : (s.modCtx k f).suspended = s.suspended := rfl
@[simp] theorem State.modCtx_seqs (s : State) (k : Nat) (f : Ctx → Ctx) : (s.modCtx k f).seqs = s.seqs := rfl
@[simp] theorem State.modCtx_mem (s : State) (k : Nat) (f : Ctx → Ctx) : (s.modCtx k f).mem = s.mem := rfl
@[simp] theorem State.modCtx_badSectors (s : State) (k : Nat) (f : Ctx → Ctx) : (s.modCtx k f).badSectors = s.badSectors := rfl
@[simp] theorem State.modCtx_corrSectors (s : State) (k : Nat) (f : Ctx → Ctx) : (s.modCtx k f).corrSectors = s.corrSectors := rfl
@[simp] theorem State.modCtx_badSpad (s : State) (k : Nat) (f : Ctx → Ctx) : (s.modCtx k f).badSpad = s.badSpad := rfl
@[simp] theorem State.modCtx_corrWords (s : State) (k : Nat) (f : Ctx → Ctx) : (s.modCtx k f).corrWords = s.corrWords := rfl
@[simp] theorem State.modCtx_corrSpad (s : State) (k : Nat) (f : Ctx → Ctx) : (s.modCtx k f).corrSpad = s.corrSpad := rfl
@[simp] theorem State.modCtx_badL1 (s : State) (k : Nat) (f : Ctx → Ctx) : (s.modCtx k f).badL1 = s.badL1 := rfl
@[simp] theorem State.modCtx_badL1i (s : State) (k : Nat) (f : Ctx → Ctx) : (s.modCtx k f).badL1i = s.badL1i := rfl
@[simp] theorem State.modCtx_badTlb (s : State) (k : Nat) (f : Ctx → Ctx) : (s.modCtx k f).badTlb = s.badTlb := rfl
@[simp] theorem State.modCtx_badWords (s : State) (k : Nat) (f : Ctx → Ctx) : (s.modCtx k f).badWords = s.badWords := rfl
@[simp] theorem State.modCtx_caches (s : State) (k : Nat) (f : Ctx → Ctx) : (s.modCtx k f).caches = s.caches := rfl
@[simp] theorem State.modCtx_flights (s : State) (k : Nat) (f : Ctx → Ctx) : (s.modCtx k f).flights = s.flights := rfl
@[simp] theorem State.modCtx_keystone (s : State) (k : Nat) (f : Ctx → Ctx) : (s.modCtx k f).keystone = s.keystone := rfl
@[simp] theorem State.modCtx_vgroups (s : State) (k : Nat) (f : Ctx → Ctx) : (s.modCtx k f).vgroups = s.vgroups := rfl
@[simp] theorem State.modCtx_vcols (s : State) (k : Nat) (f : Ctx → Ctx) : (s.modCtx k f).vcols = s.vcols := rfl
@[simp] theorem State.modCtx_vdies (s : State) (k : Nat) (f : Ctx → Ctx) : (s.modCtx k f).vdies = s.vdies := rfl
@[simp] theorem State.modCtx_links (s : State) (k : Nat) (f : Ctx → Ctx) : (s.modCtx k f).links = s.links := rfl
@[simp] theorem State.modCtx_fw (s : State) (k : Nat) (f : Ctx → Ctx) : (s.modCtx k f).fw = s.fw := rfl
@[simp] theorem State.modCtx_cur (s : State) (k : Nat) (f : Ctx → Ctx) : (s.modCtx k f).cur = s.cur := rfl
@[simp] theorem State.modCtx_plan (s : State) (k : Nat) (f : Ctx → Ctx) : (s.modCtx k f).plan = s.plan := rfl
@[simp] theorem State.modCtx_agenda (s : State) (k : Nat) (f : Ctx → Ctx) : (s.modCtx k f).agenda = s.agenda := rfl
@[simp] theorem State.modCtx_turn (s : State) (k : Nat) (f : Ctx → Ctx) : (s.modCtx k f).turn = s.turn := rfl
@[simp] theorem State.modCtx_fresh (s : State) (k : Nat) (f : Ctx → Ctx) : (s.modCtx k f).fresh = s.fresh := rfl
@[simp] theorem State.modCtx_writes (s : State) (k : Nat) (f : Ctx → Ctx) : (s.modCtx k f).writes = s.writes := rfl
@[simp] theorem State.modCtx_hist (s : State) (k : Nat) (f : Ctx → Ctx) : (s.modCtx k f).hist = s.hist := rfl
@[simp] theorem State.modCtx_nextArr (s : State) (k : Nat) (f : Ctx → Ctx) : (s.modCtx k f).nextArr = s.nextArr := rfl
@[simp] theorem State.modCtx_nextOrder (s : State) (k : Nat) (f : Ctx → Ctx) : (s.modCtx k f).nextOrder = s.nextOrder := rfl
@[simp] theorem State.modCtx_nextLaunch (s : State) (k : Nat) (f : Ctx → Ctx) : (s.modCtx k f).nextLaunch = s.nextLaunch := rfl
@[simp] theorem State.modMe_cores (s : State) (f : Ctx → Ctx) : (s.modMe f).cores = s.cores := rfl
@[simp] theorem State.modMe_courses (s : State) (f : Ctx → Ctx) : (s.modMe f).courses = s.courses := rfl
@[simp] theorem State.modMe_dies (s : State) (f : Ctx → Ctx) : (s.modMe f).dies = s.dies := rfl
@[simp] theorem State.modMe_parts (s : State) (f : Ctx → Ctx) : (s.modMe f).parts = s.parts := rfl
@[simp] theorem State.modMe_groups (s : State) (f : Ctx → Ctx) : (s.modMe f).groups = s.groups := rfl
@[simp] theorem State.modMe_launches (s : State) (f : Ctx → Ctx) : (s.modMe f).launches = s.launches := rfl
@[simp] theorem State.modMe_teams (s : State) (f : Ctx → Ctx) : (s.modMe f).teams = s.teams := rfl
@[simp] theorem State.modMe_chans (s : State) (f : Ctx → Ctx) : (s.modMe f).chans = s.chans := rfl
@[simp] theorem State.modMe_barriers (s : State) (f : Ctx → Ctx) : (s.modMe f).barriers = s.barriers := rfl
@[simp] theorem State.modMe_colls (s : State) (f : Ctx → Ctx) : (s.modMe f).colls = s.colls := rfl
@[simp] theorem State.modMe_collSeq (s : State) (f : Ctx → Ctx) : (s.modMe f).collSeq = s.collSeq := rfl
@[simp] theorem State.modMe_suspended (s : State) (f : Ctx → Ctx) : (s.modMe f).suspended = s.suspended := rfl
@[simp] theorem State.modMe_seqs (s : State) (f : Ctx → Ctx) : (s.modMe f).seqs = s.seqs := rfl
@[simp] theorem State.modMe_mem (s : State) (f : Ctx → Ctx) : (s.modMe f).mem = s.mem := rfl
@[simp] theorem State.modMe_badSectors (s : State) (f : Ctx → Ctx) : (s.modMe f).badSectors = s.badSectors := rfl
@[simp] theorem State.modMe_corrSectors (s : State) (f : Ctx → Ctx) : (s.modMe f).corrSectors = s.corrSectors := rfl
@[simp] theorem State.modMe_badSpad (s : State) (f : Ctx → Ctx) : (s.modMe f).badSpad = s.badSpad := rfl
@[simp] theorem State.modMe_corrWords (s : State) (f : Ctx → Ctx) : (s.modMe f).corrWords = s.corrWords := rfl
@[simp] theorem State.modMe_corrSpad (s : State) (f : Ctx → Ctx) : (s.modMe f).corrSpad = s.corrSpad := rfl
@[simp] theorem State.modMe_badL1 (s : State) (f : Ctx → Ctx) : (s.modMe f).badL1 = s.badL1 := rfl
@[simp] theorem State.modMe_badL1i (s : State) (f : Ctx → Ctx) : (s.modMe f).badL1i = s.badL1i := rfl
@[simp] theorem State.modMe_badTlb (s : State) (f : Ctx → Ctx) : (s.modMe f).badTlb = s.badTlb := rfl
@[simp] theorem State.modMe_badWords (s : State) (f : Ctx → Ctx) : (s.modMe f).badWords = s.badWords := rfl
@[simp] theorem State.modMe_caches (s : State) (f : Ctx → Ctx) : (s.modMe f).caches = s.caches := rfl
@[simp] theorem State.modMe_flights (s : State) (f : Ctx → Ctx) : (s.modMe f).flights = s.flights := rfl
@[simp] theorem State.modMe_keystone (s : State) (f : Ctx → Ctx) : (s.modMe f).keystone = s.keystone := rfl
@[simp] theorem State.modMe_vgroups (s : State) (f : Ctx → Ctx) : (s.modMe f).vgroups = s.vgroups := rfl
@[simp] theorem State.modMe_vcols (s : State) (f : Ctx → Ctx) : (s.modMe f).vcols = s.vcols := rfl
@[simp] theorem State.modMe_vdies (s : State) (f : Ctx → Ctx) : (s.modMe f).vdies = s.vdies := rfl
@[simp] theorem State.modMe_links (s : State) (f : Ctx → Ctx) : (s.modMe f).links = s.links := rfl
@[simp] theorem State.modMe_fw (s : State) (f : Ctx → Ctx) : (s.modMe f).fw = s.fw := rfl
@[simp] theorem State.modMe_cur (s : State) (f : Ctx → Ctx) : (s.modMe f).cur = s.cur := rfl
@[simp] theorem State.modMe_plan (s : State) (f : Ctx → Ctx) : (s.modMe f).plan = s.plan := rfl
@[simp] theorem State.modMe_agenda (s : State) (f : Ctx → Ctx) : (s.modMe f).agenda = s.agenda := rfl
@[simp] theorem State.modMe_turn (s : State) (f : Ctx → Ctx) : (s.modMe f).turn = s.turn := rfl
@[simp] theorem State.modMe_fresh (s : State) (f : Ctx → Ctx) : (s.modMe f).fresh = s.fresh := rfl
@[simp] theorem State.modMe_writes (s : State) (f : Ctx → Ctx) : (s.modMe f).writes = s.writes := rfl
@[simp] theorem State.modMe_hist (s : State) (f : Ctx → Ctx) : (s.modMe f).hist = s.hist := rfl
@[simp] theorem State.modMe_nextArr (s : State) (f : Ctx → Ctx) : (s.modMe f).nextArr = s.nextArr := rfl
@[simp] theorem State.modMe_nextOrder (s : State) (f : Ctx → Ctx) : (s.modMe f).nextOrder = s.nextOrder := rfl
@[simp] theorem State.modMe_nextLaunch (s : State) (f : Ctx → Ctx) : (s.modMe f).nextLaunch = s.nextLaunch := rfl
@[simp] theorem State.setCore_threads (s : State) (k : Nat) (c : Core) : (s.setCore k c).threads = s.threads := rfl
@[simp] theorem State.setCore_courses (s : State) (k : Nat) (c : Core) : (s.setCore k c).courses = s.courses := rfl
@[simp] theorem State.setCore_dies (s : State) (k : Nat) (c : Core) : (s.setCore k c).dies = s.dies := rfl
@[simp] theorem State.setCore_parts (s : State) (k : Nat) (c : Core) : (s.setCore k c).parts = s.parts := rfl
@[simp] theorem State.setCore_groups (s : State) (k : Nat) (c : Core) : (s.setCore k c).groups = s.groups := rfl
@[simp] theorem State.setCore_launches (s : State) (k : Nat) (c : Core) : (s.setCore k c).launches = s.launches := rfl
@[simp] theorem State.setCore_teams (s : State) (k : Nat) (c : Core) : (s.setCore k c).teams = s.teams := rfl
@[simp] theorem State.setCore_chans (s : State) (k : Nat) (c : Core) : (s.setCore k c).chans = s.chans := rfl
@[simp] theorem State.setCore_barriers (s : State) (k : Nat) (c : Core) : (s.setCore k c).barriers = s.barriers := rfl
@[simp] theorem State.setCore_colls (s : State) (k : Nat) (c : Core) : (s.setCore k c).colls = s.colls := rfl
@[simp] theorem State.setCore_collSeq (s : State) (k : Nat) (c : Core) : (s.setCore k c).collSeq = s.collSeq := rfl
@[simp] theorem State.setCore_suspended (s : State) (k : Nat) (c : Core) : (s.setCore k c).suspended = s.suspended := rfl
@[simp] theorem State.setCore_seqs (s : State) (k : Nat) (c : Core) : (s.setCore k c).seqs = s.seqs := rfl
@[simp] theorem State.setCore_mem (s : State) (k : Nat) (c : Core) : (s.setCore k c).mem = s.mem := rfl
@[simp] theorem State.setCore_badSectors (s : State) (k : Nat) (c : Core) : (s.setCore k c).badSectors = s.badSectors := rfl
@[simp] theorem State.setCore_corrSectors (s : State) (k : Nat) (c : Core) : (s.setCore k c).corrSectors = s.corrSectors := rfl
@[simp] theorem State.setCore_badSpad (s : State) (k : Nat) (c : Core) : (s.setCore k c).badSpad = s.badSpad := rfl
@[simp] theorem State.setCore_corrWords (s : State) (k : Nat) (c : Core) : (s.setCore k c).corrWords = s.corrWords := rfl
@[simp] theorem State.setCore_corrSpad (s : State) (k : Nat) (c : Core) : (s.setCore k c).corrSpad = s.corrSpad := rfl
@[simp] theorem State.setCore_badL1 (s : State) (k : Nat) (c : Core) : (s.setCore k c).badL1 = s.badL1 := rfl
@[simp] theorem State.setCore_badL1i (s : State) (k : Nat) (c : Core) : (s.setCore k c).badL1i = s.badL1i := rfl
@[simp] theorem State.setCore_badTlb (s : State) (k : Nat) (c : Core) : (s.setCore k c).badTlb = s.badTlb := rfl
@[simp] theorem State.setCore_badWords (s : State) (k : Nat) (c : Core) : (s.setCore k c).badWords = s.badWords := rfl
@[simp] theorem State.setCore_caches (s : State) (k : Nat) (c : Core) : (s.setCore k c).caches = s.caches := rfl
@[simp] theorem State.setCore_flights (s : State) (k : Nat) (c : Core) : (s.setCore k c).flights = s.flights := rfl
@[simp] theorem State.setCore_keystone (s : State) (k : Nat) (c : Core) : (s.setCore k c).keystone = s.keystone := rfl
@[simp] theorem State.setCore_vgroups (s : State) (k : Nat) (c : Core) : (s.setCore k c).vgroups = s.vgroups := rfl
@[simp] theorem State.setCore_vcols (s : State) (k : Nat) (c : Core) : (s.setCore k c).vcols = s.vcols := rfl
@[simp] theorem State.setCore_vdies (s : State) (k : Nat) (c : Core) : (s.setCore k c).vdies = s.vdies := rfl
@[simp] theorem State.setCore_links (s : State) (k : Nat) (c : Core) : (s.setCore k c).links = s.links := rfl
@[simp] theorem State.setCore_fw (s : State) (k : Nat) (c : Core) : (s.setCore k c).fw = s.fw := rfl
@[simp] theorem State.setCore_cur (s : State) (k : Nat) (c : Core) : (s.setCore k c).cur = s.cur := rfl
@[simp] theorem State.setCore_plan (s : State) (k : Nat) (c : Core) : (s.setCore k c).plan = s.plan := rfl
@[simp] theorem State.setCore_agenda (s : State) (k : Nat) (c : Core) : (s.setCore k c).agenda = s.agenda := rfl
@[simp] theorem State.setCore_turn (s : State) (k : Nat) (c : Core) : (s.setCore k c).turn = s.turn := rfl
@[simp] theorem State.setCore_fresh (s : State) (k : Nat) (c : Core) : (s.setCore k c).fresh = s.fresh := rfl
@[simp] theorem State.setCore_writes (s : State) (k : Nat) (c : Core) : (s.setCore k c).writes = s.writes := rfl
@[simp] theorem State.setCore_hist (s : State) (k : Nat) (c : Core) : (s.setCore k c).hist = s.hist := rfl
@[simp] theorem State.setCore_nextArr (s : State) (k : Nat) (c : Core) : (s.setCore k c).nextArr = s.nextArr := rfl
@[simp] theorem State.setCore_nextOrder (s : State) (k : Nat) (c : Core) : (s.setCore k c).nextOrder = s.nextOrder := rfl
@[simp] theorem State.setCore_nextLaunch (s : State) (k : Nat) (c : Core) : (s.setCore k c).nextLaunch = s.nextLaunch := rfl
@[simp] theorem State.modCore_threads (s : State) (k : Nat) (f : Core → Core) : (s.modCore k f).threads = s.threads := rfl
@[simp] theorem State.modCore_courses (s : State) (k : Nat) (f : Core → Core) : (s.modCore k f).courses = s.courses := rfl
@[simp] theorem State.modCore_dies (s : State) (k : Nat) (f : Core → Core) : (s.modCore k f).dies = s.dies := rfl
@[simp] theorem State.modCore_parts (s : State) (k : Nat) (f : Core → Core) : (s.modCore k f).parts = s.parts := rfl
@[simp] theorem State.modCore_groups (s : State) (k : Nat) (f : Core → Core) : (s.modCore k f).groups = s.groups := rfl
@[simp] theorem State.modCore_launches (s : State) (k : Nat) (f : Core → Core) : (s.modCore k f).launches = s.launches := rfl
@[simp] theorem State.modCore_teams (s : State) (k : Nat) (f : Core → Core) : (s.modCore k f).teams = s.teams := rfl
@[simp] theorem State.modCore_chans (s : State) (k : Nat) (f : Core → Core) : (s.modCore k f).chans = s.chans := rfl
@[simp] theorem State.modCore_barriers (s : State) (k : Nat) (f : Core → Core) : (s.modCore k f).barriers = s.barriers := rfl
@[simp] theorem State.modCore_colls (s : State) (k : Nat) (f : Core → Core) : (s.modCore k f).colls = s.colls := rfl
@[simp] theorem State.modCore_collSeq (s : State) (k : Nat) (f : Core → Core) : (s.modCore k f).collSeq = s.collSeq := rfl
@[simp] theorem State.modCore_suspended (s : State) (k : Nat) (f : Core → Core) : (s.modCore k f).suspended = s.suspended := rfl
@[simp] theorem State.modCore_seqs (s : State) (k : Nat) (f : Core → Core) : (s.modCore k f).seqs = s.seqs := rfl
@[simp] theorem State.modCore_mem (s : State) (k : Nat) (f : Core → Core) : (s.modCore k f).mem = s.mem := rfl
@[simp] theorem State.modCore_badSectors (s : State) (k : Nat) (f : Core → Core) : (s.modCore k f).badSectors = s.badSectors := rfl
@[simp] theorem State.modCore_corrSectors (s : State) (k : Nat) (f : Core → Core) : (s.modCore k f).corrSectors = s.corrSectors := rfl
@[simp] theorem State.modCore_badSpad (s : State) (k : Nat) (f : Core → Core) : (s.modCore k f).badSpad = s.badSpad := rfl
@[simp] theorem State.modCore_corrWords (s : State) (k : Nat) (f : Core → Core) : (s.modCore k f).corrWords = s.corrWords := rfl
@[simp] theorem State.modCore_corrSpad (s : State) (k : Nat) (f : Core → Core) : (s.modCore k f).corrSpad = s.corrSpad := rfl
@[simp] theorem State.modCore_badL1 (s : State) (k : Nat) (f : Core → Core) : (s.modCore k f).badL1 = s.badL1 := rfl
@[simp] theorem State.modCore_badL1i (s : State) (k : Nat) (f : Core → Core) : (s.modCore k f).badL1i = s.badL1i := rfl
@[simp] theorem State.modCore_badTlb (s : State) (k : Nat) (f : Core → Core) : (s.modCore k f).badTlb = s.badTlb := rfl
@[simp] theorem State.modCore_badWords (s : State) (k : Nat) (f : Core → Core) : (s.modCore k f).badWords = s.badWords := rfl
@[simp] theorem State.modCore_caches (s : State) (k : Nat) (f : Core → Core) : (s.modCore k f).caches = s.caches := rfl
@[simp] theorem State.modCore_flights (s : State) (k : Nat) (f : Core → Core) : (s.modCore k f).flights = s.flights := rfl
@[simp] theorem State.modCore_keystone (s : State) (k : Nat) (f : Core → Core) : (s.modCore k f).keystone = s.keystone := rfl
@[simp] theorem State.modCore_vgroups (s : State) (k : Nat) (f : Core → Core) : (s.modCore k f).vgroups = s.vgroups := rfl
@[simp] theorem State.modCore_vcols (s : State) (k : Nat) (f : Core → Core) : (s.modCore k f).vcols = s.vcols := rfl
@[simp] theorem State.modCore_vdies (s : State) (k : Nat) (f : Core → Core) : (s.modCore k f).vdies = s.vdies := rfl
@[simp] theorem State.modCore_links (s : State) (k : Nat) (f : Core → Core) : (s.modCore k f).links = s.links := rfl
@[simp] theorem State.modCore_fw (s : State) (k : Nat) (f : Core → Core) : (s.modCore k f).fw = s.fw := rfl
@[simp] theorem State.modCore_cur (s : State) (k : Nat) (f : Core → Core) : (s.modCore k f).cur = s.cur := rfl
@[simp] theorem State.modCore_plan (s : State) (k : Nat) (f : Core → Core) : (s.modCore k f).plan = s.plan := rfl
@[simp] theorem State.modCore_agenda (s : State) (k : Nat) (f : Core → Core) : (s.modCore k f).agenda = s.agenda := rfl
@[simp] theorem State.modCore_turn (s : State) (k : Nat) (f : Core → Core) : (s.modCore k f).turn = s.turn := rfl
@[simp] theorem State.modCore_fresh (s : State) (k : Nat) (f : Core → Core) : (s.modCore k f).fresh = s.fresh := rfl
@[simp] theorem State.modCore_writes (s : State) (k : Nat) (f : Core → Core) : (s.modCore k f).writes = s.writes := rfl
@[simp] theorem State.modCore_hist (s : State) (k : Nat) (f : Core → Core) : (s.modCore k f).hist = s.hist := rfl
@[simp] theorem State.modCore_nextArr (s : State) (k : Nat) (f : Core → Core) : (s.modCore k f).nextArr = s.nextArr := rfl
@[simp] theorem State.modCore_nextOrder (s : State) (k : Nat) (f : Core → Core) : (s.modCore k f).nextOrder = s.nextOrder := rfl
@[simp] theorem State.modCore_nextLaunch (s : State) (k : Nat) (f : Core → Core) : (s.modCore k f).nextLaunch = s.nextLaunch := rfl
@[simp] theorem State.modTm_threads (s : State) (k : Nat) (f : TeamMem → TeamMem) : (s.modTm k f).threads = s.threads := rfl
@[simp] theorem State.modTm_courses (s : State) (k : Nat) (f : TeamMem → TeamMem) : (s.modTm k f).courses = s.courses := rfl
@[simp] theorem State.modTm_dies (s : State) (k : Nat) (f : TeamMem → TeamMem) : (s.modTm k f).dies = s.dies := rfl
@[simp] theorem State.modTm_parts (s : State) (k : Nat) (f : TeamMem → TeamMem) : (s.modTm k f).parts = s.parts := rfl
@[simp] theorem State.modTm_groups (s : State) (k : Nat) (f : TeamMem → TeamMem) : (s.modTm k f).groups = s.groups := rfl
@[simp] theorem State.modTm_launches (s : State) (k : Nat) (f : TeamMem → TeamMem) : (s.modTm k f).launches = s.launches := rfl
@[simp] theorem State.modTm_teams (s : State) (k : Nat) (f : TeamMem → TeamMem) : (s.modTm k f).teams = s.teams := rfl
@[simp] theorem State.modTm_chans (s : State) (k : Nat) (f : TeamMem → TeamMem) : (s.modTm k f).chans = s.chans := rfl
@[simp] theorem State.modTm_barriers (s : State) (k : Nat) (f : TeamMem → TeamMem) : (s.modTm k f).barriers = s.barriers := rfl
@[simp] theorem State.modTm_colls (s : State) (k : Nat) (f : TeamMem → TeamMem) : (s.modTm k f).colls = s.colls := rfl
@[simp] theorem State.modTm_collSeq (s : State) (k : Nat) (f : TeamMem → TeamMem) : (s.modTm k f).collSeq = s.collSeq := rfl
@[simp] theorem State.modTm_suspended (s : State) (k : Nat) (f : TeamMem → TeamMem) : (s.modTm k f).suspended = s.suspended := rfl
@[simp] theorem State.modTm_seqs (s : State) (k : Nat) (f : TeamMem → TeamMem) : (s.modTm k f).seqs = s.seqs := rfl
@[simp] theorem State.modTm_mem (s : State) (k : Nat) (f : TeamMem → TeamMem) : (s.modTm k f).mem = s.mem := rfl
@[simp] theorem State.modTm_badSectors (s : State) (k : Nat) (f : TeamMem → TeamMem) : (s.modTm k f).badSectors = s.badSectors := rfl
@[simp] theorem State.modTm_corrSectors (s : State) (k : Nat) (f : TeamMem → TeamMem) : (s.modTm k f).corrSectors = s.corrSectors := rfl
@[simp] theorem State.modTm_badSpad (s : State) (k : Nat) (f : TeamMem → TeamMem) : (s.modTm k f).badSpad = s.badSpad := rfl
@[simp] theorem State.modTm_corrWords (s : State) (k : Nat) (f : TeamMem → TeamMem) : (s.modTm k f).corrWords = s.corrWords := rfl
@[simp] theorem State.modTm_corrSpad (s : State) (k : Nat) (f : TeamMem → TeamMem) : (s.modTm k f).corrSpad = s.corrSpad := rfl
@[simp] theorem State.modTm_badL1 (s : State) (k : Nat) (f : TeamMem → TeamMem) : (s.modTm k f).badL1 = s.badL1 := rfl
@[simp] theorem State.modTm_badL1i (s : State) (k : Nat) (f : TeamMem → TeamMem) : (s.modTm k f).badL1i = s.badL1i := rfl
@[simp] theorem State.modTm_badTlb (s : State) (k : Nat) (f : TeamMem → TeamMem) : (s.modTm k f).badTlb = s.badTlb := rfl
@[simp] theorem State.modTm_badWords (s : State) (k : Nat) (f : TeamMem → TeamMem) : (s.modTm k f).badWords = s.badWords := rfl
@[simp] theorem State.modTm_caches (s : State) (k : Nat) (f : TeamMem → TeamMem) : (s.modTm k f).caches = s.caches := rfl
@[simp] theorem State.modTm_flights (s : State) (k : Nat) (f : TeamMem → TeamMem) : (s.modTm k f).flights = s.flights := rfl
@[simp] theorem State.modTm_keystone (s : State) (k : Nat) (f : TeamMem → TeamMem) : (s.modTm k f).keystone = s.keystone := rfl
@[simp] theorem State.modTm_vgroups (s : State) (k : Nat) (f : TeamMem → TeamMem) : (s.modTm k f).vgroups = s.vgroups := rfl
@[simp] theorem State.modTm_vcols (s : State) (k : Nat) (f : TeamMem → TeamMem) : (s.modTm k f).vcols = s.vcols := rfl
@[simp] theorem State.modTm_vdies (s : State) (k : Nat) (f : TeamMem → TeamMem) : (s.modTm k f).vdies = s.vdies := rfl
@[simp] theorem State.modTm_links (s : State) (k : Nat) (f : TeamMem → TeamMem) : (s.modTm k f).links = s.links := rfl
@[simp] theorem State.modTm_fw (s : State) (k : Nat) (f : TeamMem → TeamMem) : (s.modTm k f).fw = s.fw := rfl
@[simp] theorem State.modTm_cur (s : State) (k : Nat) (f : TeamMem → TeamMem) : (s.modTm k f).cur = s.cur := rfl
@[simp] theorem State.modTm_plan (s : State) (k : Nat) (f : TeamMem → TeamMem) : (s.modTm k f).plan = s.plan := rfl
@[simp] theorem State.modTm_agenda (s : State) (k : Nat) (f : TeamMem → TeamMem) : (s.modTm k f).agenda = s.agenda := rfl
@[simp] theorem State.modTm_turn (s : State) (k : Nat) (f : TeamMem → TeamMem) : (s.modTm k f).turn = s.turn := rfl
@[simp] theorem State.modTm_fresh (s : State) (k : Nat) (f : TeamMem → TeamMem) : (s.modTm k f).fresh = s.fresh := rfl
@[simp] theorem State.modTm_writes (s : State) (k : Nat) (f : TeamMem → TeamMem) : (s.modTm k f).writes = s.writes := rfl
@[simp] theorem State.modTm_hist (s : State) (k : Nat) (f : TeamMem → TeamMem) : (s.modTm k f).hist = s.hist := rfl
@[simp] theorem State.modTm_nextArr (s : State) (k : Nat) (f : TeamMem → TeamMem) : (s.modTm k f).nextArr = s.nextArr := rfl
@[simp] theorem State.modTm_nextOrder (s : State) (k : Nat) (f : TeamMem → TeamMem) : (s.modTm k f).nextOrder = s.nextOrder := rfl
@[simp] theorem State.modTm_nextLaunch (s : State) (k : Nat) (f : TeamMem → TeamMem) : (s.modTm k f).nextLaunch = s.nextLaunch := rfl
@[simp] theorem State.setCourse_threads (s : State) (k : Nat) (c : Course) : (s.setCourse k c).threads = s.threads := rfl
@[simp] theorem State.setCourse_cores (s : State) (k : Nat) (c : Course) : (s.setCourse k c).cores = s.cores := rfl
@[simp] theorem State.setCourse_dies (s : State) (k : Nat) (c : Course) : (s.setCourse k c).dies = s.dies := rfl
@[simp] theorem State.setCourse_parts (s : State) (k : Nat) (c : Course) : (s.setCourse k c).parts = s.parts := rfl
@[simp] theorem State.setCourse_groups (s : State) (k : Nat) (c : Course) : (s.setCourse k c).groups = s.groups := rfl
@[simp] theorem State.setCourse_launches (s : State) (k : Nat) (c : Course) : (s.setCourse k c).launches = s.launches := rfl
@[simp] theorem State.setCourse_teams (s : State) (k : Nat) (c : Course) : (s.setCourse k c).teams = s.teams := rfl
@[simp] theorem State.setCourse_chans (s : State) (k : Nat) (c : Course) : (s.setCourse k c).chans = s.chans := rfl
@[simp] theorem State.setCourse_barriers (s : State) (k : Nat) (c : Course) : (s.setCourse k c).barriers = s.barriers := rfl
@[simp] theorem State.setCourse_colls (s : State) (k : Nat) (c : Course) : (s.setCourse k c).colls = s.colls := rfl
@[simp] theorem State.setCourse_collSeq (s : State) (k : Nat) (c : Course) : (s.setCourse k c).collSeq = s.collSeq := rfl
@[simp] theorem State.setCourse_suspended (s : State) (k : Nat) (c : Course) : (s.setCourse k c).suspended = s.suspended := rfl
@[simp] theorem State.setCourse_seqs (s : State) (k : Nat) (c : Course) : (s.setCourse k c).seqs = s.seqs := rfl
@[simp] theorem State.setCourse_mem (s : State) (k : Nat) (c : Course) : (s.setCourse k c).mem = s.mem := rfl
@[simp] theorem State.setCourse_badSectors (s : State) (k : Nat) (c : Course) : (s.setCourse k c).badSectors = s.badSectors := rfl
@[simp] theorem State.setCourse_corrSectors (s : State) (k : Nat) (c : Course) : (s.setCourse k c).corrSectors = s.corrSectors := rfl
@[simp] theorem State.setCourse_badSpad (s : State) (k : Nat) (c : Course) : (s.setCourse k c).badSpad = s.badSpad := rfl
@[simp] theorem State.setCourse_corrWords (s : State) (k : Nat) (c : Course) : (s.setCourse k c).corrWords = s.corrWords := rfl
@[simp] theorem State.setCourse_corrSpad (s : State) (k : Nat) (c : Course) : (s.setCourse k c).corrSpad = s.corrSpad := rfl
@[simp] theorem State.setCourse_badL1 (s : State) (k : Nat) (c : Course) : (s.setCourse k c).badL1 = s.badL1 := rfl
@[simp] theorem State.setCourse_badL1i (s : State) (k : Nat) (c : Course) : (s.setCourse k c).badL1i = s.badL1i := rfl
@[simp] theorem State.setCourse_badTlb (s : State) (k : Nat) (c : Course) : (s.setCourse k c).badTlb = s.badTlb := rfl
@[simp] theorem State.setCourse_badWords (s : State) (k : Nat) (c : Course) : (s.setCourse k c).badWords = s.badWords := rfl
@[simp] theorem State.setCourse_caches (s : State) (k : Nat) (c : Course) : (s.setCourse k c).caches = s.caches := rfl
@[simp] theorem State.setCourse_flights (s : State) (k : Nat) (c : Course) : (s.setCourse k c).flights = s.flights := rfl
@[simp] theorem State.setCourse_keystone (s : State) (k : Nat) (c : Course) : (s.setCourse k c).keystone = s.keystone := rfl
@[simp] theorem State.setCourse_vgroups (s : State) (k : Nat) (c : Course) : (s.setCourse k c).vgroups = s.vgroups := rfl
@[simp] theorem State.setCourse_vcols (s : State) (k : Nat) (c : Course) : (s.setCourse k c).vcols = s.vcols := rfl
@[simp] theorem State.setCourse_vdies (s : State) (k : Nat) (c : Course) : (s.setCourse k c).vdies = s.vdies := rfl
@[simp] theorem State.setCourse_links (s : State) (k : Nat) (c : Course) : (s.setCourse k c).links = s.links := rfl
@[simp] theorem State.setCourse_fw (s : State) (k : Nat) (c : Course) : (s.setCourse k c).fw = s.fw := rfl
@[simp] theorem State.setCourse_cur (s : State) (k : Nat) (c : Course) : (s.setCourse k c).cur = s.cur := rfl
@[simp] theorem State.setCourse_plan (s : State) (k : Nat) (c : Course) : (s.setCourse k c).plan = s.plan := rfl
@[simp] theorem State.setCourse_agenda (s : State) (k : Nat) (c : Course) : (s.setCourse k c).agenda = s.agenda := rfl
@[simp] theorem State.setCourse_turn (s : State) (k : Nat) (c : Course) : (s.setCourse k c).turn = s.turn := rfl
@[simp] theorem State.setCourse_fresh (s : State) (k : Nat) (c : Course) : (s.setCourse k c).fresh = s.fresh := rfl
@[simp] theorem State.setCourse_writes (s : State) (k : Nat) (c : Course) : (s.setCourse k c).writes = s.writes := rfl
@[simp] theorem State.setCourse_hist (s : State) (k : Nat) (c : Course) : (s.setCourse k c).hist = s.hist := rfl
@[simp] theorem State.setCourse_nextArr (s : State) (k : Nat) (c : Course) : (s.setCourse k c).nextArr = s.nextArr := rfl
@[simp] theorem State.setCourse_nextOrder (s : State) (k : Nat) (c : Course) : (s.setCourse k c).nextOrder = s.nextOrder := rfl
@[simp] theorem State.setCourse_nextLaunch (s : State) (k : Nat) (c : Course) : (s.setCourse k c).nextLaunch = s.nextLaunch := rfl
@[simp] theorem State.modCourse_threads (s : State) (k : Nat) (f : Course → Course) : (s.modCourse k f).threads = s.threads := rfl
@[simp] theorem State.modCourse_cores (s : State) (k : Nat) (f : Course → Course) : (s.modCourse k f).cores = s.cores := rfl
@[simp] theorem State.modCourse_dies (s : State) (k : Nat) (f : Course → Course) : (s.modCourse k f).dies = s.dies := rfl
@[simp] theorem State.modCourse_parts (s : State) (k : Nat) (f : Course → Course) : (s.modCourse k f).parts = s.parts := rfl
@[simp] theorem State.modCourse_groups (s : State) (k : Nat) (f : Course → Course) : (s.modCourse k f).groups = s.groups := rfl
@[simp] theorem State.modCourse_launches (s : State) (k : Nat) (f : Course → Course) : (s.modCourse k f).launches = s.launches := rfl
@[simp] theorem State.modCourse_teams (s : State) (k : Nat) (f : Course → Course) : (s.modCourse k f).teams = s.teams := rfl
@[simp] theorem State.modCourse_chans (s : State) (k : Nat) (f : Course → Course) : (s.modCourse k f).chans = s.chans := rfl
@[simp] theorem State.modCourse_barriers (s : State) (k : Nat) (f : Course → Course) : (s.modCourse k f).barriers = s.barriers := rfl
@[simp] theorem State.modCourse_colls (s : State) (k : Nat) (f : Course → Course) : (s.modCourse k f).colls = s.colls := rfl
@[simp] theorem State.modCourse_collSeq (s : State) (k : Nat) (f : Course → Course) : (s.modCourse k f).collSeq = s.collSeq := rfl
@[simp] theorem State.modCourse_suspended (s : State) (k : Nat) (f : Course → Course) : (s.modCourse k f).suspended = s.suspended := rfl
@[simp] theorem State.modCourse_seqs (s : State) (k : Nat) (f : Course → Course) : (s.modCourse k f).seqs = s.seqs := rfl
@[simp] theorem State.modCourse_mem (s : State) (k : Nat) (f : Course → Course) : (s.modCourse k f).mem = s.mem := rfl
@[simp] theorem State.modCourse_badSectors (s : State) (k : Nat) (f : Course → Course) : (s.modCourse k f).badSectors = s.badSectors := rfl
@[simp] theorem State.modCourse_corrSectors (s : State) (k : Nat) (f : Course → Course) : (s.modCourse k f).corrSectors = s.corrSectors := rfl
@[simp] theorem State.modCourse_badSpad (s : State) (k : Nat) (f : Course → Course) : (s.modCourse k f).badSpad = s.badSpad := rfl
@[simp] theorem State.modCourse_corrWords (s : State) (k : Nat) (f : Course → Course) : (s.modCourse k f).corrWords = s.corrWords := rfl
@[simp] theorem State.modCourse_corrSpad (s : State) (k : Nat) (f : Course → Course) : (s.modCourse k f).corrSpad = s.corrSpad := rfl
@[simp] theorem State.modCourse_badL1 (s : State) (k : Nat) (f : Course → Course) : (s.modCourse k f).badL1 = s.badL1 := rfl
@[simp] theorem State.modCourse_badL1i (s : State) (k : Nat) (f : Course → Course) : (s.modCourse k f).badL1i = s.badL1i := rfl
@[simp] theorem State.modCourse_badTlb (s : State) (k : Nat) (f : Course → Course) : (s.modCourse k f).badTlb = s.badTlb := rfl
@[simp] theorem State.modCourse_badWords (s : State) (k : Nat) (f : Course → Course) : (s.modCourse k f).badWords = s.badWords := rfl
@[simp] theorem State.modCourse_caches (s : State) (k : Nat) (f : Course → Course) : (s.modCourse k f).caches = s.caches := rfl
@[simp] theorem State.modCourse_flights (s : State) (k : Nat) (f : Course → Course) : (s.modCourse k f).flights = s.flights := rfl
@[simp] theorem State.modCourse_keystone (s : State) (k : Nat) (f : Course → Course) : (s.modCourse k f).keystone = s.keystone := rfl
@[simp] theorem State.modCourse_vgroups (s : State) (k : Nat) (f : Course → Course) : (s.modCourse k f).vgroups = s.vgroups := rfl
@[simp] theorem State.modCourse_vcols (s : State) (k : Nat) (f : Course → Course) : (s.modCourse k f).vcols = s.vcols := rfl
@[simp] theorem State.modCourse_vdies (s : State) (k : Nat) (f : Course → Course) : (s.modCourse k f).vdies = s.vdies := rfl
@[simp] theorem State.modCourse_links (s : State) (k : Nat) (f : Course → Course) : (s.modCourse k f).links = s.links := rfl
@[simp] theorem State.modCourse_fw (s : State) (k : Nat) (f : Course → Course) : (s.modCourse k f).fw = s.fw := rfl
@[simp] theorem State.modCourse_cur (s : State) (k : Nat) (f : Course → Course) : (s.modCourse k f).cur = s.cur := rfl
@[simp] theorem State.modCourse_plan (s : State) (k : Nat) (f : Course → Course) : (s.modCourse k f).plan = s.plan := rfl
@[simp] theorem State.modCourse_agenda (s : State) (k : Nat) (f : Course → Course) : (s.modCourse k f).agenda = s.agenda := rfl
@[simp] theorem State.modCourse_turn (s : State) (k : Nat) (f : Course → Course) : (s.modCourse k f).turn = s.turn := rfl
@[simp] theorem State.modCourse_fresh (s : State) (k : Nat) (f : Course → Course) : (s.modCourse k f).fresh = s.fresh := rfl
@[simp] theorem State.modCourse_writes (s : State) (k : Nat) (f : Course → Course) : (s.modCourse k f).writes = s.writes := rfl
@[simp] theorem State.modCourse_hist (s : State) (k : Nat) (f : Course → Course) : (s.modCourse k f).hist = s.hist := rfl
@[simp] theorem State.modCourse_nextArr (s : State) (k : Nat) (f : Course → Course) : (s.modCourse k f).nextArr = s.nextArr := rfl
@[simp] theorem State.modCourse_nextOrder (s : State) (k : Nat) (f : Course → Course) : (s.modCourse k f).nextOrder = s.nextOrder := rfl
@[simp] theorem State.modCourse_nextLaunch (s : State) (k : Nat) (f : Course → Course) : (s.modCourse k f).nextLaunch = s.nextLaunch := rfl
@[simp] theorem State.modSlot_threads (s : State) (k i : Nat) (f : Slot → Slot) : (s.modSlot k i f).threads = s.threads := rfl
@[simp] theorem State.modSlot_cores (s : State) (k i : Nat) (f : Slot → Slot) : (s.modSlot k i f).cores = s.cores := rfl
@[simp] theorem State.modSlot_dies (s : State) (k i : Nat) (f : Slot → Slot) : (s.modSlot k i f).dies = s.dies := rfl
@[simp] theorem State.modSlot_parts (s : State) (k i : Nat) (f : Slot → Slot) : (s.modSlot k i f).parts = s.parts := rfl
@[simp] theorem State.modSlot_groups (s : State) (k i : Nat) (f : Slot → Slot) : (s.modSlot k i f).groups = s.groups := rfl
@[simp] theorem State.modSlot_launches (s : State) (k i : Nat) (f : Slot → Slot) : (s.modSlot k i f).launches = s.launches := rfl
@[simp] theorem State.modSlot_teams (s : State) (k i : Nat) (f : Slot → Slot) : (s.modSlot k i f).teams = s.teams := rfl
@[simp] theorem State.modSlot_chans (s : State) (k i : Nat) (f : Slot → Slot) : (s.modSlot k i f).chans = s.chans := rfl
@[simp] theorem State.modSlot_barriers (s : State) (k i : Nat) (f : Slot → Slot) : (s.modSlot k i f).barriers = s.barriers := rfl
@[simp] theorem State.modSlot_colls (s : State) (k i : Nat) (f : Slot → Slot) : (s.modSlot k i f).colls = s.colls := rfl
@[simp] theorem State.modSlot_collSeq (s : State) (k i : Nat) (f : Slot → Slot) : (s.modSlot k i f).collSeq = s.collSeq := rfl
@[simp] theorem State.modSlot_suspended (s : State) (k i : Nat) (f : Slot → Slot) : (s.modSlot k i f).suspended = s.suspended := rfl
@[simp] theorem State.modSlot_seqs (s : State) (k i : Nat) (f : Slot → Slot) : (s.modSlot k i f).seqs = s.seqs := rfl
@[simp] theorem State.modSlot_mem (s : State) (k i : Nat) (f : Slot → Slot) : (s.modSlot k i f).mem = s.mem := rfl
@[simp] theorem State.modSlot_badSectors (s : State) (k i : Nat) (f : Slot → Slot) : (s.modSlot k i f).badSectors = s.badSectors := rfl
@[simp] theorem State.modSlot_corrSectors (s : State) (k i : Nat) (f : Slot → Slot) : (s.modSlot k i f).corrSectors = s.corrSectors := rfl
@[simp] theorem State.modSlot_badSpad (s : State) (k i : Nat) (f : Slot → Slot) : (s.modSlot k i f).badSpad = s.badSpad := rfl
@[simp] theorem State.modSlot_corrWords (s : State) (k i : Nat) (f : Slot → Slot) : (s.modSlot k i f).corrWords = s.corrWords := rfl
@[simp] theorem State.modSlot_corrSpad (s : State) (k i : Nat) (f : Slot → Slot) : (s.modSlot k i f).corrSpad = s.corrSpad := rfl
@[simp] theorem State.modSlot_badL1 (s : State) (k i : Nat) (f : Slot → Slot) : (s.modSlot k i f).badL1 = s.badL1 := rfl
@[simp] theorem State.modSlot_badL1i (s : State) (k i : Nat) (f : Slot → Slot) : (s.modSlot k i f).badL1i = s.badL1i := rfl
@[simp] theorem State.modSlot_badTlb (s : State) (k i : Nat) (f : Slot → Slot) : (s.modSlot k i f).badTlb = s.badTlb := rfl
@[simp] theorem State.modSlot_badWords (s : State) (k i : Nat) (f : Slot → Slot) : (s.modSlot k i f).badWords = s.badWords := rfl
@[simp] theorem State.modSlot_caches (s : State) (k i : Nat) (f : Slot → Slot) : (s.modSlot k i f).caches = s.caches := rfl
@[simp] theorem State.modSlot_flights (s : State) (k i : Nat) (f : Slot → Slot) : (s.modSlot k i f).flights = s.flights := rfl
@[simp] theorem State.modSlot_keystone (s : State) (k i : Nat) (f : Slot → Slot) : (s.modSlot k i f).keystone = s.keystone := rfl
@[simp] theorem State.modSlot_vgroups (s : State) (k i : Nat) (f : Slot → Slot) : (s.modSlot k i f).vgroups = s.vgroups := rfl
@[simp] theorem State.modSlot_vcols (s : State) (k i : Nat) (f : Slot → Slot) : (s.modSlot k i f).vcols = s.vcols := rfl
@[simp] theorem State.modSlot_vdies (s : State) (k i : Nat) (f : Slot → Slot) : (s.modSlot k i f).vdies = s.vdies := rfl
@[simp] theorem State.modSlot_links (s : State) (k i : Nat) (f : Slot → Slot) : (s.modSlot k i f).links = s.links := rfl
@[simp] theorem State.modSlot_fw (s : State) (k i : Nat) (f : Slot → Slot) : (s.modSlot k i f).fw = s.fw := rfl
@[simp] theorem State.modSlot_cur (s : State) (k i : Nat) (f : Slot → Slot) : (s.modSlot k i f).cur = s.cur := rfl
@[simp] theorem State.modSlot_plan (s : State) (k i : Nat) (f : Slot → Slot) : (s.modSlot k i f).plan = s.plan := rfl
@[simp] theorem State.modSlot_agenda (s : State) (k i : Nat) (f : Slot → Slot) : (s.modSlot k i f).agenda = s.agenda := rfl
@[simp] theorem State.modSlot_turn (s : State) (k i : Nat) (f : Slot → Slot) : (s.modSlot k i f).turn = s.turn := rfl
@[simp] theorem State.modSlot_fresh (s : State) (k i : Nat) (f : Slot → Slot) : (s.modSlot k i f).fresh = s.fresh := rfl
@[simp] theorem State.modSlot_writes (s : State) (k i : Nat) (f : Slot → Slot) : (s.modSlot k i f).writes = s.writes := rfl
@[simp] theorem State.modSlot_hist (s : State) (k i : Nat) (f : Slot → Slot) : (s.modSlot k i f).hist = s.hist := rfl
@[simp] theorem State.modSlot_nextArr (s : State) (k i : Nat) (f : Slot → Slot) : (s.modSlot k i f).nextArr = s.nextArr := rfl
@[simp] theorem State.modSlot_nextOrder (s : State) (k i : Nat) (f : Slot → Slot) : (s.modSlot k i f).nextOrder = s.nextOrder := rfl
@[simp] theorem State.modSlot_nextLaunch (s : State) (k i : Nat) (f : Slot → Slot) : (s.modSlot k i f).nextLaunch = s.nextLaunch := rfl
@[simp] theorem State.modDie_threads (s : State) (k : Nat) (f : Die → Die) : (s.modDie k f).threads = s.threads := rfl
@[simp] theorem State.modDie_cores (s : State) (k : Nat) (f : Die → Die) : (s.modDie k f).cores = s.cores := rfl
@[simp] theorem State.modDie_courses (s : State) (k : Nat) (f : Die → Die) : (s.modDie k f).courses = s.courses := rfl
@[simp] theorem State.modDie_parts (s : State) (k : Nat) (f : Die → Die) : (s.modDie k f).parts = s.parts := rfl
@[simp] theorem State.modDie_groups (s : State) (k : Nat) (f : Die → Die) : (s.modDie k f).groups = s.groups := rfl
@[simp] theorem State.modDie_launches (s : State) (k : Nat) (f : Die → Die) : (s.modDie k f).launches = s.launches := rfl
@[simp] theorem State.modDie_teams (s : State) (k : Nat) (f : Die → Die) : (s.modDie k f).teams = s.teams := rfl
@[simp] theorem State.modDie_chans (s : State) (k : Nat) (f : Die → Die) : (s.modDie k f).chans = s.chans := rfl
@[simp] theorem State.modDie_barriers (s : State) (k : Nat) (f : Die → Die) : (s.modDie k f).barriers = s.barriers := rfl
@[simp] theorem State.modDie_colls (s : State) (k : Nat) (f : Die → Die) : (s.modDie k f).colls = s.colls := rfl
@[simp] theorem State.modDie_collSeq (s : State) (k : Nat) (f : Die → Die) : (s.modDie k f).collSeq = s.collSeq := rfl
@[simp] theorem State.modDie_suspended (s : State) (k : Nat) (f : Die → Die) : (s.modDie k f).suspended = s.suspended := rfl
@[simp] theorem State.modDie_seqs (s : State) (k : Nat) (f : Die → Die) : (s.modDie k f).seqs = s.seqs := rfl
@[simp] theorem State.modDie_mem (s : State) (k : Nat) (f : Die → Die) : (s.modDie k f).mem = s.mem := rfl
@[simp] theorem State.modDie_badSectors (s : State) (k : Nat) (f : Die → Die) : (s.modDie k f).badSectors = s.badSectors := rfl
@[simp] theorem State.modDie_corrSectors (s : State) (k : Nat) (f : Die → Die) : (s.modDie k f).corrSectors = s.corrSectors := rfl
@[simp] theorem State.modDie_badSpad (s : State) (k : Nat) (f : Die → Die) : (s.modDie k f).badSpad = s.badSpad := rfl
@[simp] theorem State.modDie_corrWords (s : State) (k : Nat) (f : Die → Die) : (s.modDie k f).corrWords = s.corrWords := rfl
@[simp] theorem State.modDie_corrSpad (s : State) (k : Nat) (f : Die → Die) : (s.modDie k f).corrSpad = s.corrSpad := rfl
@[simp] theorem State.modDie_badL1 (s : State) (k : Nat) (f : Die → Die) : (s.modDie k f).badL1 = s.badL1 := rfl
@[simp] theorem State.modDie_badL1i (s : State) (k : Nat) (f : Die → Die) : (s.modDie k f).badL1i = s.badL1i := rfl
@[simp] theorem State.modDie_badTlb (s : State) (k : Nat) (f : Die → Die) : (s.modDie k f).badTlb = s.badTlb := rfl
@[simp] theorem State.modDie_badWords (s : State) (k : Nat) (f : Die → Die) : (s.modDie k f).badWords = s.badWords := rfl
@[simp] theorem State.modDie_caches (s : State) (k : Nat) (f : Die → Die) : (s.modDie k f).caches = s.caches := rfl
@[simp] theorem State.modDie_flights (s : State) (k : Nat) (f : Die → Die) : (s.modDie k f).flights = s.flights := rfl
@[simp] theorem State.modDie_keystone (s : State) (k : Nat) (f : Die → Die) : (s.modDie k f).keystone = s.keystone := rfl
@[simp] theorem State.modDie_vgroups (s : State) (k : Nat) (f : Die → Die) : (s.modDie k f).vgroups = s.vgroups := rfl
@[simp] theorem State.modDie_vcols (s : State) (k : Nat) (f : Die → Die) : (s.modDie k f).vcols = s.vcols := rfl
@[simp] theorem State.modDie_vdies (s : State) (k : Nat) (f : Die → Die) : (s.modDie k f).vdies = s.vdies := rfl
@[simp] theorem State.modDie_links (s : State) (k : Nat) (f : Die → Die) : (s.modDie k f).links = s.links := rfl
@[simp] theorem State.modDie_fw (s : State) (k : Nat) (f : Die → Die) : (s.modDie k f).fw = s.fw := rfl
@[simp] theorem State.modDie_cur (s : State) (k : Nat) (f : Die → Die) : (s.modDie k f).cur = s.cur := rfl
@[simp] theorem State.modDie_plan (s : State) (k : Nat) (f : Die → Die) : (s.modDie k f).plan = s.plan := rfl
@[simp] theorem State.modDie_agenda (s : State) (k : Nat) (f : Die → Die) : (s.modDie k f).agenda = s.agenda := rfl
@[simp] theorem State.modDie_turn (s : State) (k : Nat) (f : Die → Die) : (s.modDie k f).turn = s.turn := rfl
@[simp] theorem State.modDie_fresh (s : State) (k : Nat) (f : Die → Die) : (s.modDie k f).fresh = s.fresh := rfl
@[simp] theorem State.modDie_writes (s : State) (k : Nat) (f : Die → Die) : (s.modDie k f).writes = s.writes := rfl
@[simp] theorem State.modDie_hist (s : State) (k : Nat) (f : Die → Die) : (s.modDie k f).hist = s.hist := rfl
@[simp] theorem State.modDie_nextArr (s : State) (k : Nat) (f : Die → Die) : (s.modDie k f).nextArr = s.nextArr := rfl
@[simp] theorem State.modDie_nextOrder (s : State) (k : Nat) (f : Die → Die) : (s.modDie k f).nextOrder = s.nextOrder := rfl
@[simp] theorem State.modDie_nextLaunch (s : State) (k : Nat) (f : Die → Die) : (s.modDie k f).nextLaunch = s.nextLaunch := rfl
@[simp] theorem State.modPart_threads (s : State) (k : Nat) (f : Part → Part) : (s.modPart k f).threads = s.threads := rfl
@[simp] theorem State.modPart_cores (s : State) (k : Nat) (f : Part → Part) : (s.modPart k f).cores = s.cores := rfl
@[simp] theorem State.modPart_courses (s : State) (k : Nat) (f : Part → Part) : (s.modPart k f).courses = s.courses := rfl
@[simp] theorem State.modPart_dies (s : State) (k : Nat) (f : Part → Part) : (s.modPart k f).dies = s.dies := rfl
@[simp] theorem State.modPart_groups (s : State) (k : Nat) (f : Part → Part) : (s.modPart k f).groups = s.groups := rfl
@[simp] theorem State.modPart_launches (s : State) (k : Nat) (f : Part → Part) : (s.modPart k f).launches = s.launches := rfl
@[simp] theorem State.modPart_teams (s : State) (k : Nat) (f : Part → Part) : (s.modPart k f).teams = s.teams := rfl
@[simp] theorem State.modPart_chans (s : State) (k : Nat) (f : Part → Part) : (s.modPart k f).chans = s.chans := rfl
@[simp] theorem State.modPart_barriers (s : State) (k : Nat) (f : Part → Part) : (s.modPart k f).barriers = s.barriers := rfl
@[simp] theorem State.modPart_colls (s : State) (k : Nat) (f : Part → Part) : (s.modPart k f).colls = s.colls := rfl
@[simp] theorem State.modPart_collSeq (s : State) (k : Nat) (f : Part → Part) : (s.modPart k f).collSeq = s.collSeq := rfl
@[simp] theorem State.modPart_suspended (s : State) (k : Nat) (f : Part → Part) : (s.modPart k f).suspended = s.suspended := rfl
@[simp] theorem State.modPart_seqs (s : State) (k : Nat) (f : Part → Part) : (s.modPart k f).seqs = s.seqs := rfl
@[simp] theorem State.modPart_mem (s : State) (k : Nat) (f : Part → Part) : (s.modPart k f).mem = s.mem := rfl
@[simp] theorem State.modPart_badSectors (s : State) (k : Nat) (f : Part → Part) : (s.modPart k f).badSectors = s.badSectors := rfl
@[simp] theorem State.modPart_corrSectors (s : State) (k : Nat) (f : Part → Part) : (s.modPart k f).corrSectors = s.corrSectors := rfl
@[simp] theorem State.modPart_badSpad (s : State) (k : Nat) (f : Part → Part) : (s.modPart k f).badSpad = s.badSpad := rfl
@[simp] theorem State.modPart_corrWords (s : State) (k : Nat) (f : Part → Part) : (s.modPart k f).corrWords = s.corrWords := rfl
@[simp] theorem State.modPart_corrSpad (s : State) (k : Nat) (f : Part → Part) : (s.modPart k f).corrSpad = s.corrSpad := rfl
@[simp] theorem State.modPart_badL1 (s : State) (k : Nat) (f : Part → Part) : (s.modPart k f).badL1 = s.badL1 := rfl
@[simp] theorem State.modPart_badL1i (s : State) (k : Nat) (f : Part → Part) : (s.modPart k f).badL1i = s.badL1i := rfl
@[simp] theorem State.modPart_badTlb (s : State) (k : Nat) (f : Part → Part) : (s.modPart k f).badTlb = s.badTlb := rfl
@[simp] theorem State.modPart_badWords (s : State) (k : Nat) (f : Part → Part) : (s.modPart k f).badWords = s.badWords := rfl
@[simp] theorem State.modPart_caches (s : State) (k : Nat) (f : Part → Part) : (s.modPart k f).caches = s.caches := rfl
@[simp] theorem State.modPart_flights (s : State) (k : Nat) (f : Part → Part) : (s.modPart k f).flights = s.flights := rfl
@[simp] theorem State.modPart_keystone (s : State) (k : Nat) (f : Part → Part) : (s.modPart k f).keystone = s.keystone := rfl
@[simp] theorem State.modPart_vgroups (s : State) (k : Nat) (f : Part → Part) : (s.modPart k f).vgroups = s.vgroups := rfl
@[simp] theorem State.modPart_vcols (s : State) (k : Nat) (f : Part → Part) : (s.modPart k f).vcols = s.vcols := rfl
@[simp] theorem State.modPart_vdies (s : State) (k : Nat) (f : Part → Part) : (s.modPart k f).vdies = s.vdies := rfl
@[simp] theorem State.modPart_links (s : State) (k : Nat) (f : Part → Part) : (s.modPart k f).links = s.links := rfl
@[simp] theorem State.modPart_fw (s : State) (k : Nat) (f : Part → Part) : (s.modPart k f).fw = s.fw := rfl
@[simp] theorem State.modPart_cur (s : State) (k : Nat) (f : Part → Part) : (s.modPart k f).cur = s.cur := rfl
@[simp] theorem State.modPart_plan (s : State) (k : Nat) (f : Part → Part) : (s.modPart k f).plan = s.plan := rfl
@[simp] theorem State.modPart_agenda (s : State) (k : Nat) (f : Part → Part) : (s.modPart k f).agenda = s.agenda := rfl
@[simp] theorem State.modPart_turn (s : State) (k : Nat) (f : Part → Part) : (s.modPart k f).turn = s.turn := rfl
@[simp] theorem State.modPart_fresh (s : State) (k : Nat) (f : Part → Part) : (s.modPart k f).fresh = s.fresh := rfl
@[simp] theorem State.modPart_writes (s : State) (k : Nat) (f : Part → Part) : (s.modPart k f).writes = s.writes := rfl
@[simp] theorem State.modPart_hist (s : State) (k : Nat) (f : Part → Part) : (s.modPart k f).hist = s.hist := rfl
@[simp] theorem State.modPart_nextArr (s : State) (k : Nat) (f : Part → Part) : (s.modPart k f).nextArr = s.nextArr := rfl
@[simp] theorem State.modPart_nextOrder (s : State) (k : Nat) (f : Part → Part) : (s.modPart k f).nextOrder = s.nextOrder := rfl
@[simp] theorem State.modPart_nextLaunch (s : State) (k : Nat) (f : Part → Part) : (s.modPart k f).nextLaunch = s.nextLaunch := rfl
@[simp] theorem State.setGroup_threads (s : State) (k : Nat) (g : Group) : (s.setGroup k g).threads = s.threads := rfl
@[simp] theorem State.setGroup_cores (s : State) (k : Nat) (g : Group) : (s.setGroup k g).cores = s.cores := rfl
@[simp] theorem State.setGroup_courses (s : State) (k : Nat) (g : Group) : (s.setGroup k g).courses = s.courses := rfl
@[simp] theorem State.setGroup_dies (s : State) (k : Nat) (g : Group) : (s.setGroup k g).dies = s.dies := rfl
@[simp] theorem State.setGroup_parts (s : State) (k : Nat) (g : Group) : (s.setGroup k g).parts = s.parts := rfl
@[simp] theorem State.setGroup_launches (s : State) (k : Nat) (g : Group) : (s.setGroup k g).launches = s.launches := rfl
@[simp] theorem State.setGroup_teams (s : State) (k : Nat) (g : Group) : (s.setGroup k g).teams = s.teams := rfl
@[simp] theorem State.setGroup_chans (s : State) (k : Nat) (g : Group) : (s.setGroup k g).chans = s.chans := rfl
@[simp] theorem State.setGroup_barriers (s : State) (k : Nat) (g : Group) : (s.setGroup k g).barriers = s.barriers := rfl
@[simp] theorem State.setGroup_colls (s : State) (k : Nat) (g : Group) : (s.setGroup k g).colls = s.colls := rfl
@[simp] theorem State.setGroup_collSeq (s : State) (k : Nat) (g : Group) : (s.setGroup k g).collSeq = s.collSeq := rfl
@[simp] theorem State.setGroup_suspended (s : State) (k : Nat) (g : Group) : (s.setGroup k g).suspended = s.suspended := rfl
@[simp] theorem State.setGroup_seqs (s : State) (k : Nat) (g : Group) : (s.setGroup k g).seqs = s.seqs := rfl
@[simp] theorem State.setGroup_mem (s : State) (k : Nat) (g : Group) : (s.setGroup k g).mem = s.mem := rfl
@[simp] theorem State.setGroup_badSectors (s : State) (k : Nat) (g : Group) : (s.setGroup k g).badSectors = s.badSectors := rfl
@[simp] theorem State.setGroup_corrSectors (s : State) (k : Nat) (g : Group) : (s.setGroup k g).corrSectors = s.corrSectors := rfl
@[simp] theorem State.setGroup_badSpad (s : State) (k : Nat) (g : Group) : (s.setGroup k g).badSpad = s.badSpad := rfl
@[simp] theorem State.setGroup_corrWords (s : State) (k : Nat) (g : Group) : (s.setGroup k g).corrWords = s.corrWords := rfl
@[simp] theorem State.setGroup_corrSpad (s : State) (k : Nat) (g : Group) : (s.setGroup k g).corrSpad = s.corrSpad := rfl
@[simp] theorem State.setGroup_badL1 (s : State) (k : Nat) (g : Group) : (s.setGroup k g).badL1 = s.badL1 := rfl
@[simp] theorem State.setGroup_badL1i (s : State) (k : Nat) (g : Group) : (s.setGroup k g).badL1i = s.badL1i := rfl
@[simp] theorem State.setGroup_badTlb (s : State) (k : Nat) (g : Group) : (s.setGroup k g).badTlb = s.badTlb := rfl
@[simp] theorem State.setGroup_badWords (s : State) (k : Nat) (g : Group) : (s.setGroup k g).badWords = s.badWords := rfl
@[simp] theorem State.setGroup_caches (s : State) (k : Nat) (g : Group) : (s.setGroup k g).caches = s.caches := rfl
@[simp] theorem State.setGroup_flights (s : State) (k : Nat) (g : Group) : (s.setGroup k g).flights = s.flights := rfl
@[simp] theorem State.setGroup_keystone (s : State) (k : Nat) (g : Group) : (s.setGroup k g).keystone = s.keystone := rfl
@[simp] theorem State.setGroup_vgroups (s : State) (k : Nat) (g : Group) : (s.setGroup k g).vgroups = s.vgroups := rfl
@[simp] theorem State.setGroup_vcols (s : State) (k : Nat) (g : Group) : (s.setGroup k g).vcols = s.vcols := rfl
@[simp] theorem State.setGroup_vdies (s : State) (k : Nat) (g : Group) : (s.setGroup k g).vdies = s.vdies := rfl
@[simp] theorem State.setGroup_links (s : State) (k : Nat) (g : Group) : (s.setGroup k g).links = s.links := rfl
@[simp] theorem State.setGroup_fw (s : State) (k : Nat) (g : Group) : (s.setGroup k g).fw = s.fw := rfl
@[simp] theorem State.setGroup_cur (s : State) (k : Nat) (g : Group) : (s.setGroup k g).cur = s.cur := rfl
@[simp] theorem State.setGroup_plan (s : State) (k : Nat) (g : Group) : (s.setGroup k g).plan = s.plan := rfl
@[simp] theorem State.setGroup_agenda (s : State) (k : Nat) (g : Group) : (s.setGroup k g).agenda = s.agenda := rfl
@[simp] theorem State.setGroup_turn (s : State) (k : Nat) (g : Group) : (s.setGroup k g).turn = s.turn := rfl
@[simp] theorem State.setGroup_fresh (s : State) (k : Nat) (g : Group) : (s.setGroup k g).fresh = s.fresh := rfl
@[simp] theorem State.setGroup_writes (s : State) (k : Nat) (g : Group) : (s.setGroup k g).writes = s.writes := rfl
@[simp] theorem State.setGroup_hist (s : State) (k : Nat) (g : Group) : (s.setGroup k g).hist = s.hist := rfl
@[simp] theorem State.setGroup_nextArr (s : State) (k : Nat) (g : Group) : (s.setGroup k g).nextArr = s.nextArr := rfl
@[simp] theorem State.setGroup_nextOrder (s : State) (k : Nat) (g : Group) : (s.setGroup k g).nextOrder = s.nextOrder := rfl
@[simp] theorem State.setGroup_nextLaunch (s : State) (k : Nat) (g : Group) : (s.setGroup k g).nextLaunch = s.nextLaunch := rfl
@[simp] theorem State.modLaunch_threads (s : State) (k : Nat) (f : Launch → Launch) : (s.modLaunch k f).threads = s.threads := rfl
@[simp] theorem State.modLaunch_cores (s : State) (k : Nat) (f : Launch → Launch) : (s.modLaunch k f).cores = s.cores := rfl
@[simp] theorem State.modLaunch_courses (s : State) (k : Nat) (f : Launch → Launch) : (s.modLaunch k f).courses = s.courses := rfl
@[simp] theorem State.modLaunch_dies (s : State) (k : Nat) (f : Launch → Launch) : (s.modLaunch k f).dies = s.dies := rfl
@[simp] theorem State.modLaunch_parts (s : State) (k : Nat) (f : Launch → Launch) : (s.modLaunch k f).parts = s.parts := rfl
@[simp] theorem State.modLaunch_groups (s : State) (k : Nat) (f : Launch → Launch) : (s.modLaunch k f).groups = s.groups := rfl
@[simp] theorem State.modLaunch_teams (s : State) (k : Nat) (f : Launch → Launch) : (s.modLaunch k f).teams = s.teams := rfl
@[simp] theorem State.modLaunch_chans (s : State) (k : Nat) (f : Launch → Launch) : (s.modLaunch k f).chans = s.chans := rfl
@[simp] theorem State.modLaunch_barriers (s : State) (k : Nat) (f : Launch → Launch) : (s.modLaunch k f).barriers = s.barriers := rfl
@[simp] theorem State.modLaunch_colls (s : State) (k : Nat) (f : Launch → Launch) : (s.modLaunch k f).colls = s.colls := rfl
@[simp] theorem State.modLaunch_collSeq (s : State) (k : Nat) (f : Launch → Launch) : (s.modLaunch k f).collSeq = s.collSeq := rfl
@[simp] theorem State.modLaunch_suspended (s : State) (k : Nat) (f : Launch → Launch) : (s.modLaunch k f).suspended = s.suspended := rfl
@[simp] theorem State.modLaunch_seqs (s : State) (k : Nat) (f : Launch → Launch) : (s.modLaunch k f).seqs = s.seqs := rfl
@[simp] theorem State.modLaunch_mem (s : State) (k : Nat) (f : Launch → Launch) : (s.modLaunch k f).mem = s.mem := rfl
@[simp] theorem State.modLaunch_badSectors (s : State) (k : Nat) (f : Launch → Launch) : (s.modLaunch k f).badSectors = s.badSectors := rfl
@[simp] theorem State.modLaunch_corrSectors (s : State) (k : Nat) (f : Launch → Launch) : (s.modLaunch k f).corrSectors = s.corrSectors := rfl
@[simp] theorem State.modLaunch_badSpad (s : State) (k : Nat) (f : Launch → Launch) : (s.modLaunch k f).badSpad = s.badSpad := rfl
@[simp] theorem State.modLaunch_corrWords (s : State) (k : Nat) (f : Launch → Launch) : (s.modLaunch k f).corrWords = s.corrWords := rfl
@[simp] theorem State.modLaunch_corrSpad (s : State) (k : Nat) (f : Launch → Launch) : (s.modLaunch k f).corrSpad = s.corrSpad := rfl
@[simp] theorem State.modLaunch_badL1 (s : State) (k : Nat) (f : Launch → Launch) : (s.modLaunch k f).badL1 = s.badL1 := rfl
@[simp] theorem State.modLaunch_badL1i (s : State) (k : Nat) (f : Launch → Launch) : (s.modLaunch k f).badL1i = s.badL1i := rfl
@[simp] theorem State.modLaunch_badTlb (s : State) (k : Nat) (f : Launch → Launch) : (s.modLaunch k f).badTlb = s.badTlb := rfl
@[simp] theorem State.modLaunch_badWords (s : State) (k : Nat) (f : Launch → Launch) : (s.modLaunch k f).badWords = s.badWords := rfl
@[simp] theorem State.modLaunch_caches (s : State) (k : Nat) (f : Launch → Launch) : (s.modLaunch k f).caches = s.caches := rfl
@[simp] theorem State.modLaunch_flights (s : State) (k : Nat) (f : Launch → Launch) : (s.modLaunch k f).flights = s.flights := rfl
@[simp] theorem State.modLaunch_keystone (s : State) (k : Nat) (f : Launch → Launch) : (s.modLaunch k f).keystone = s.keystone := rfl
@[simp] theorem State.modLaunch_vgroups (s : State) (k : Nat) (f : Launch → Launch) : (s.modLaunch k f).vgroups = s.vgroups := rfl
@[simp] theorem State.modLaunch_vcols (s : State) (k : Nat) (f : Launch → Launch) : (s.modLaunch k f).vcols = s.vcols := rfl
@[simp] theorem State.modLaunch_vdies (s : State) (k : Nat) (f : Launch → Launch) : (s.modLaunch k f).vdies = s.vdies := rfl
@[simp] theorem State.modLaunch_links (s : State) (k : Nat) (f : Launch → Launch) : (s.modLaunch k f).links = s.links := rfl
@[simp] theorem State.modLaunch_fw (s : State) (k : Nat) (f : Launch → Launch) : (s.modLaunch k f).fw = s.fw := rfl
@[simp] theorem State.modLaunch_cur (s : State) (k : Nat) (f : Launch → Launch) : (s.modLaunch k f).cur = s.cur := rfl
@[simp] theorem State.modLaunch_plan (s : State) (k : Nat) (f : Launch → Launch) : (s.modLaunch k f).plan = s.plan := rfl
@[simp] theorem State.modLaunch_agenda (s : State) (k : Nat) (f : Launch → Launch) : (s.modLaunch k f).agenda = s.agenda := rfl
@[simp] theorem State.modLaunch_turn (s : State) (k : Nat) (f : Launch → Launch) : (s.modLaunch k f).turn = s.turn := rfl
@[simp] theorem State.modLaunch_fresh (s : State) (k : Nat) (f : Launch → Launch) : (s.modLaunch k f).fresh = s.fresh := rfl
@[simp] theorem State.modLaunch_writes (s : State) (k : Nat) (f : Launch → Launch) : (s.modLaunch k f).writes = s.writes := rfl
@[simp] theorem State.modLaunch_hist (s : State) (k : Nat) (f : Launch → Launch) : (s.modLaunch k f).hist = s.hist := rfl
@[simp] theorem State.modLaunch_nextArr (s : State) (k : Nat) (f : Launch → Launch) : (s.modLaunch k f).nextArr = s.nextArr := rfl
@[simp] theorem State.modLaunch_nextOrder (s : State) (k : Nat) (f : Launch → Launch) : (s.modLaunch k f).nextOrder = s.nextOrder := rfl
@[simp] theorem State.modLaunch_nextLaunch (s : State) (k : Nat) (f : Launch → Launch) : (s.modLaunch k f).nextLaunch = s.nextLaunch := rfl
@[simp] theorem State.modTeam_threads (s : State) (l i : Nat) (f : Team → Team) : (s.modTeam l i f).threads = s.threads := rfl
@[simp] theorem State.modTeam_cores (s : State) (l i : Nat) (f : Team → Team) : (s.modTeam l i f).cores = s.cores := rfl
@[simp] theorem State.modTeam_courses (s : State) (l i : Nat) (f : Team → Team) : (s.modTeam l i f).courses = s.courses := rfl
@[simp] theorem State.modTeam_dies (s : State) (l i : Nat) (f : Team → Team) : (s.modTeam l i f).dies = s.dies := rfl
@[simp] theorem State.modTeam_parts (s : State) (l i : Nat) (f : Team → Team) : (s.modTeam l i f).parts = s.parts := rfl
@[simp] theorem State.modTeam_groups (s : State) (l i : Nat) (f : Team → Team) : (s.modTeam l i f).groups = s.groups := rfl
@[simp] theorem State.modTeam_launches (s : State) (l i : Nat) (f : Team → Team) : (s.modTeam l i f).launches = s.launches := rfl
@[simp] theorem State.modTeam_chans (s : State) (l i : Nat) (f : Team → Team) : (s.modTeam l i f).chans = s.chans := rfl
@[simp] theorem State.modTeam_barriers (s : State) (l i : Nat) (f : Team → Team) : (s.modTeam l i f).barriers = s.barriers := rfl
@[simp] theorem State.modTeam_colls (s : State) (l i : Nat) (f : Team → Team) : (s.modTeam l i f).colls = s.colls := rfl
@[simp] theorem State.modTeam_collSeq (s : State) (l i : Nat) (f : Team → Team) : (s.modTeam l i f).collSeq = s.collSeq := rfl
@[simp] theorem State.modTeam_suspended (s : State) (l i : Nat) (f : Team → Team) : (s.modTeam l i f).suspended = s.suspended := rfl
@[simp] theorem State.modTeam_seqs (s : State) (l i : Nat) (f : Team → Team) : (s.modTeam l i f).seqs = s.seqs := rfl
@[simp] theorem State.modTeam_mem (s : State) (l i : Nat) (f : Team → Team) : (s.modTeam l i f).mem = s.mem := rfl
@[simp] theorem State.modTeam_badSectors (s : State) (l i : Nat) (f : Team → Team) : (s.modTeam l i f).badSectors = s.badSectors := rfl
@[simp] theorem State.modTeam_corrSectors (s : State) (l i : Nat) (f : Team → Team) : (s.modTeam l i f).corrSectors = s.corrSectors := rfl
@[simp] theorem State.modTeam_badSpad (s : State) (l i : Nat) (f : Team → Team) : (s.modTeam l i f).badSpad = s.badSpad := rfl
@[simp] theorem State.modTeam_corrWords (s : State) (l i : Nat) (f : Team → Team) : (s.modTeam l i f).corrWords = s.corrWords := rfl
@[simp] theorem State.modTeam_corrSpad (s : State) (l i : Nat) (f : Team → Team) : (s.modTeam l i f).corrSpad = s.corrSpad := rfl
@[simp] theorem State.modTeam_badL1 (s : State) (l i : Nat) (f : Team → Team) : (s.modTeam l i f).badL1 = s.badL1 := rfl
@[simp] theorem State.modTeam_badL1i (s : State) (l i : Nat) (f : Team → Team) : (s.modTeam l i f).badL1i = s.badL1i := rfl
@[simp] theorem State.modTeam_badTlb (s : State) (l i : Nat) (f : Team → Team) : (s.modTeam l i f).badTlb = s.badTlb := rfl
@[simp] theorem State.modTeam_badWords (s : State) (l i : Nat) (f : Team → Team) : (s.modTeam l i f).badWords = s.badWords := rfl
@[simp] theorem State.modTeam_caches (s : State) (l i : Nat) (f : Team → Team) : (s.modTeam l i f).caches = s.caches := rfl
@[simp] theorem State.modTeam_flights (s : State) (l i : Nat) (f : Team → Team) : (s.modTeam l i f).flights = s.flights := rfl
@[simp] theorem State.modTeam_keystone (s : State) (l i : Nat) (f : Team → Team) : (s.modTeam l i f).keystone = s.keystone := rfl
@[simp] theorem State.modTeam_vgroups (s : State) (l i : Nat) (f : Team → Team) : (s.modTeam l i f).vgroups = s.vgroups := rfl
@[simp] theorem State.modTeam_vcols (s : State) (l i : Nat) (f : Team → Team) : (s.modTeam l i f).vcols = s.vcols := rfl
@[simp] theorem State.modTeam_vdies (s : State) (l i : Nat) (f : Team → Team) : (s.modTeam l i f).vdies = s.vdies := rfl
@[simp] theorem State.modTeam_links (s : State) (l i : Nat) (f : Team → Team) : (s.modTeam l i f).links = s.links := rfl
@[simp] theorem State.modTeam_fw (s : State) (l i : Nat) (f : Team → Team) : (s.modTeam l i f).fw = s.fw := rfl
@[simp] theorem State.modTeam_cur (s : State) (l i : Nat) (f : Team → Team) : (s.modTeam l i f).cur = s.cur := rfl
@[simp] theorem State.modTeam_plan (s : State) (l i : Nat) (f : Team → Team) : (s.modTeam l i f).plan = s.plan := rfl
@[simp] theorem State.modTeam_agenda (s : State) (l i : Nat) (f : Team → Team) : (s.modTeam l i f).agenda = s.agenda := rfl
@[simp] theorem State.modTeam_turn (s : State) (l i : Nat) (f : Team → Team) : (s.modTeam l i f).turn = s.turn := rfl
@[simp] theorem State.modTeam_fresh (s : State) (l i : Nat) (f : Team → Team) : (s.modTeam l i f).fresh = s.fresh := rfl
@[simp] theorem State.modTeam_writes (s : State) (l i : Nat) (f : Team → Team) : (s.modTeam l i f).writes = s.writes := rfl
@[simp] theorem State.modTeam_hist (s : State) (l i : Nat) (f : Team → Team) : (s.modTeam l i f).hist = s.hist := rfl
@[simp] theorem State.modTeam_nextArr (s : State) (l i : Nat) (f : Team → Team) : (s.modTeam l i f).nextArr = s.nextArr := rfl
@[simp] theorem State.modTeam_nextOrder (s : State) (l i : Nat) (f : Team → Team) : (s.modTeam l i f).nextOrder = s.nextOrder := rfl
@[simp] theorem State.modTeam_nextLaunch (s : State) (l i : Nat) (f : Team → Team) : (s.modTeam l i f).nextLaunch = s.nextLaunch := rfl
@[simp] theorem State.modChan_threads (s : State) (k : Nat) (f : Chan → Chan) : (s.modChan k f).threads = s.threads := rfl
@[simp] theorem State.modChan_cores (s : State) (k : Nat) (f : Chan → Chan) : (s.modChan k f).cores = s.cores := rfl
@[simp] theorem State.modChan_courses (s : State) (k : Nat) (f : Chan → Chan) : (s.modChan k f).courses = s.courses := rfl
@[simp] theorem State.modChan_dies (s : State) (k : Nat) (f : Chan → Chan) : (s.modChan k f).dies = s.dies := rfl
@[simp] theorem State.modChan_parts (s : State) (k : Nat) (f : Chan → Chan) : (s.modChan k f).parts = s.parts := rfl
@[simp] theorem State.modChan_groups (s : State) (k : Nat) (f : Chan → Chan) : (s.modChan k f).groups = s.groups := rfl
@[simp] theorem State.modChan_launches (s : State) (k : Nat) (f : Chan → Chan) : (s.modChan k f).launches = s.launches := rfl
@[simp] theorem State.modChan_teams (s : State) (k : Nat) (f : Chan → Chan) : (s.modChan k f).teams = s.teams := rfl
@[simp] theorem State.modChan_barriers (s : State) (k : Nat) (f : Chan → Chan) : (s.modChan k f).barriers = s.barriers := rfl
@[simp] theorem State.modChan_colls (s : State) (k : Nat) (f : Chan → Chan) : (s.modChan k f).colls = s.colls := rfl
@[simp] theorem State.modChan_collSeq (s : State) (k : Nat) (f : Chan → Chan) : (s.modChan k f).collSeq = s.collSeq := rfl
@[simp] theorem State.modChan_suspended (s : State) (k : Nat) (f : Chan → Chan) : (s.modChan k f).suspended = s.suspended := rfl
@[simp] theorem State.modChan_seqs (s : State) (k : Nat) (f : Chan → Chan) : (s.modChan k f).seqs = s.seqs := rfl
@[simp] theorem State.modChan_mem (s : State) (k : Nat) (f : Chan → Chan) : (s.modChan k f).mem = s.mem := rfl
@[simp] theorem State.modChan_badSectors (s : State) (k : Nat) (f : Chan → Chan) : (s.modChan k f).badSectors = s.badSectors := rfl
@[simp] theorem State.modChan_corrSectors (s : State) (k : Nat) (f : Chan → Chan) : (s.modChan k f).corrSectors = s.corrSectors := rfl
@[simp] theorem State.modChan_badSpad (s : State) (k : Nat) (f : Chan → Chan) : (s.modChan k f).badSpad = s.badSpad := rfl
@[simp] theorem State.modChan_corrWords (s : State) (k : Nat) (f : Chan → Chan) : (s.modChan k f).corrWords = s.corrWords := rfl
@[simp] theorem State.modChan_corrSpad (s : State) (k : Nat) (f : Chan → Chan) : (s.modChan k f).corrSpad = s.corrSpad := rfl
@[simp] theorem State.modChan_badL1 (s : State) (k : Nat) (f : Chan → Chan) : (s.modChan k f).badL1 = s.badL1 := rfl
@[simp] theorem State.modChan_badL1i (s : State) (k : Nat) (f : Chan → Chan) : (s.modChan k f).badL1i = s.badL1i := rfl
@[simp] theorem State.modChan_badTlb (s : State) (k : Nat) (f : Chan → Chan) : (s.modChan k f).badTlb = s.badTlb := rfl
@[simp] theorem State.modChan_badWords (s : State) (k : Nat) (f : Chan → Chan) : (s.modChan k f).badWords = s.badWords := rfl
@[simp] theorem State.modChan_caches (s : State) (k : Nat) (f : Chan → Chan) : (s.modChan k f).caches = s.caches := rfl
@[simp] theorem State.modChan_flights (s : State) (k : Nat) (f : Chan → Chan) : (s.modChan k f).flights = s.flights := rfl
@[simp] theorem State.modChan_keystone (s : State) (k : Nat) (f : Chan → Chan) : (s.modChan k f).keystone = s.keystone := rfl
@[simp] theorem State.modChan_vgroups (s : State) (k : Nat) (f : Chan → Chan) : (s.modChan k f).vgroups = s.vgroups := rfl
@[simp] theorem State.modChan_vcols (s : State) (k : Nat) (f : Chan → Chan) : (s.modChan k f).vcols = s.vcols := rfl
@[simp] theorem State.modChan_vdies (s : State) (k : Nat) (f : Chan → Chan) : (s.modChan k f).vdies = s.vdies := rfl
@[simp] theorem State.modChan_links (s : State) (k : Nat) (f : Chan → Chan) : (s.modChan k f).links = s.links := rfl
@[simp] theorem State.modChan_fw (s : State) (k : Nat) (f : Chan → Chan) : (s.modChan k f).fw = s.fw := rfl
@[simp] theorem State.modChan_cur (s : State) (k : Nat) (f : Chan → Chan) : (s.modChan k f).cur = s.cur := rfl
@[simp] theorem State.modChan_plan (s : State) (k : Nat) (f : Chan → Chan) : (s.modChan k f).plan = s.plan := rfl
@[simp] theorem State.modChan_agenda (s : State) (k : Nat) (f : Chan → Chan) : (s.modChan k f).agenda = s.agenda := rfl
@[simp] theorem State.modChan_turn (s : State) (k : Nat) (f : Chan → Chan) : (s.modChan k f).turn = s.turn := rfl
@[simp] theorem State.modChan_fresh (s : State) (k : Nat) (f : Chan → Chan) : (s.modChan k f).fresh = s.fresh := rfl
@[simp] theorem State.modChan_writes (s : State) (k : Nat) (f : Chan → Chan) : (s.modChan k f).writes = s.writes := rfl
@[simp] theorem State.modChan_hist (s : State) (k : Nat) (f : Chan → Chan) : (s.modChan k f).hist = s.hist := rfl
@[simp] theorem State.modChan_nextArr (s : State) (k : Nat) (f : Chan → Chan) : (s.modChan k f).nextArr = s.nextArr := rfl
@[simp] theorem State.modChan_nextOrder (s : State) (k : Nat) (f : Chan → Chan) : (s.modChan k f).nextOrder = s.nextOrder := rfl
@[simp] theorem State.modChan_nextLaunch (s : State) (k : Nat) (f : Chan → Chan) : (s.modChan k f).nextLaunch = s.nextLaunch := rfl
@[simp] theorem State.modVGroup_threads (s : State) (k : Nat) (f : VGroup → VGroup) : (s.modVGroup k f).threads = s.threads := rfl
@[simp] theorem State.modVGroup_cores (s : State) (k : Nat) (f : VGroup → VGroup) : (s.modVGroup k f).cores = s.cores := rfl
@[simp] theorem State.modVGroup_courses (s : State) (k : Nat) (f : VGroup → VGroup) : (s.modVGroup k f).courses = s.courses := rfl
@[simp] theorem State.modVGroup_dies (s : State) (k : Nat) (f : VGroup → VGroup) : (s.modVGroup k f).dies = s.dies := rfl
@[simp] theorem State.modVGroup_parts (s : State) (k : Nat) (f : VGroup → VGroup) : (s.modVGroup k f).parts = s.parts := rfl
@[simp] theorem State.modVGroup_groups (s : State) (k : Nat) (f : VGroup → VGroup) : (s.modVGroup k f).groups = s.groups := rfl
@[simp] theorem State.modVGroup_launches (s : State) (k : Nat) (f : VGroup → VGroup) : (s.modVGroup k f).launches = s.launches := rfl
@[simp] theorem State.modVGroup_teams (s : State) (k : Nat) (f : VGroup → VGroup) : (s.modVGroup k f).teams = s.teams := rfl
@[simp] theorem State.modVGroup_chans (s : State) (k : Nat) (f : VGroup → VGroup) : (s.modVGroup k f).chans = s.chans := rfl
@[simp] theorem State.modVGroup_barriers (s : State) (k : Nat) (f : VGroup → VGroup) : (s.modVGroup k f).barriers = s.barriers := rfl
@[simp] theorem State.modVGroup_colls (s : State) (k : Nat) (f : VGroup → VGroup) : (s.modVGroup k f).colls = s.colls := rfl
@[simp] theorem State.modVGroup_collSeq (s : State) (k : Nat) (f : VGroup → VGroup) : (s.modVGroup k f).collSeq = s.collSeq := rfl
@[simp] theorem State.modVGroup_suspended (s : State) (k : Nat) (f : VGroup → VGroup) : (s.modVGroup k f).suspended = s.suspended := rfl
@[simp] theorem State.modVGroup_seqs (s : State) (k : Nat) (f : VGroup → VGroup) : (s.modVGroup k f).seqs = s.seqs := rfl
@[simp] theorem State.modVGroup_mem (s : State) (k : Nat) (f : VGroup → VGroup) : (s.modVGroup k f).mem = s.mem := rfl
@[simp] theorem State.modVGroup_badSectors (s : State) (k : Nat) (f : VGroup → VGroup) : (s.modVGroup k f).badSectors = s.badSectors := rfl
@[simp] theorem State.modVGroup_corrSectors (s : State) (k : Nat) (f : VGroup → VGroup) : (s.modVGroup k f).corrSectors = s.corrSectors := rfl
@[simp] theorem State.modVGroup_badSpad (s : State) (k : Nat) (f : VGroup → VGroup) : (s.modVGroup k f).badSpad = s.badSpad := rfl
@[simp] theorem State.modVGroup_corrWords (s : State) (k : Nat) (f : VGroup → VGroup) : (s.modVGroup k f).corrWords = s.corrWords := rfl
@[simp] theorem State.modVGroup_corrSpad (s : State) (k : Nat) (f : VGroup → VGroup) : (s.modVGroup k f).corrSpad = s.corrSpad := rfl
@[simp] theorem State.modVGroup_badL1 (s : State) (k : Nat) (f : VGroup → VGroup) : (s.modVGroup k f).badL1 = s.badL1 := rfl
@[simp] theorem State.modVGroup_badL1i (s : State) (k : Nat) (f : VGroup → VGroup) : (s.modVGroup k f).badL1i = s.badL1i := rfl
@[simp] theorem State.modVGroup_badTlb (s : State) (k : Nat) (f : VGroup → VGroup) : (s.modVGroup k f).badTlb = s.badTlb := rfl
@[simp] theorem State.modVGroup_badWords (s : State) (k : Nat) (f : VGroup → VGroup) : (s.modVGroup k f).badWords = s.badWords := rfl
@[simp] theorem State.modVGroup_caches (s : State) (k : Nat) (f : VGroup → VGroup) : (s.modVGroup k f).caches = s.caches := rfl
@[simp] theorem State.modVGroup_flights (s : State) (k : Nat) (f : VGroup → VGroup) : (s.modVGroup k f).flights = s.flights := rfl
@[simp] theorem State.modVGroup_keystone (s : State) (k : Nat) (f : VGroup → VGroup) : (s.modVGroup k f).keystone = s.keystone := rfl
@[simp] theorem State.modVGroup_vcols (s : State) (k : Nat) (f : VGroup → VGroup) : (s.modVGroup k f).vcols = s.vcols := rfl
@[simp] theorem State.modVGroup_vdies (s : State) (k : Nat) (f : VGroup → VGroup) : (s.modVGroup k f).vdies = s.vdies := rfl
@[simp] theorem State.modVGroup_links (s : State) (k : Nat) (f : VGroup → VGroup) : (s.modVGroup k f).links = s.links := rfl
@[simp] theorem State.modVGroup_fw (s : State) (k : Nat) (f : VGroup → VGroup) : (s.modVGroup k f).fw = s.fw := rfl
@[simp] theorem State.modVGroup_cur (s : State) (k : Nat) (f : VGroup → VGroup) : (s.modVGroup k f).cur = s.cur := rfl
@[simp] theorem State.modVGroup_plan (s : State) (k : Nat) (f : VGroup → VGroup) : (s.modVGroup k f).plan = s.plan := rfl
@[simp] theorem State.modVGroup_agenda (s : State) (k : Nat) (f : VGroup → VGroup) : (s.modVGroup k f).agenda = s.agenda := rfl
@[simp] theorem State.modVGroup_turn (s : State) (k : Nat) (f : VGroup → VGroup) : (s.modVGroup k f).turn = s.turn := rfl
@[simp] theorem State.modVGroup_fresh (s : State) (k : Nat) (f : VGroup → VGroup) : (s.modVGroup k f).fresh = s.fresh := rfl
@[simp] theorem State.modVGroup_writes (s : State) (k : Nat) (f : VGroup → VGroup) : (s.modVGroup k f).writes = s.writes := rfl
@[simp] theorem State.modVGroup_hist (s : State) (k : Nat) (f : VGroup → VGroup) : (s.modVGroup k f).hist = s.hist := rfl
@[simp] theorem State.modVGroup_nextArr (s : State) (k : Nat) (f : VGroup → VGroup) : (s.modVGroup k f).nextArr = s.nextArr := rfl
@[simp] theorem State.modVGroup_nextOrder (s : State) (k : Nat) (f : VGroup → VGroup) : (s.modVGroup k f).nextOrder = s.nextOrder := rfl
@[simp] theorem State.modVGroup_nextLaunch (s : State) (k : Nat) (f : VGroup → VGroup) : (s.modVGroup k f).nextLaunch = s.nextLaunch := rfl
@[simp] theorem State.modCalib_threads (s : State) (k : Nat) (f : Calib → Calib) : (s.modCalib k f).threads = s.threads := rfl
@[simp] theorem State.modCalib_cores (s : State) (k : Nat) (f : Calib → Calib) : (s.modCalib k f).cores = s.cores := rfl
@[simp] theorem State.modCalib_courses (s : State) (k : Nat) (f : Calib → Calib) : (s.modCalib k f).courses = s.courses := rfl
@[simp] theorem State.modCalib_dies (s : State) (k : Nat) (f : Calib → Calib) : (s.modCalib k f).dies = s.dies := rfl
@[simp] theorem State.modCalib_parts (s : State) (k : Nat) (f : Calib → Calib) : (s.modCalib k f).parts = s.parts := rfl
@[simp] theorem State.modCalib_groups (s : State) (k : Nat) (f : Calib → Calib) : (s.modCalib k f).groups = s.groups := rfl
@[simp] theorem State.modCalib_launches (s : State) (k : Nat) (f : Calib → Calib) : (s.modCalib k f).launches = s.launches := rfl
@[simp] theorem State.modCalib_teams (s : State) (k : Nat) (f : Calib → Calib) : (s.modCalib k f).teams = s.teams := rfl
@[simp] theorem State.modCalib_chans (s : State) (k : Nat) (f : Calib → Calib) : (s.modCalib k f).chans = s.chans := rfl
@[simp] theorem State.modCalib_barriers (s : State) (k : Nat) (f : Calib → Calib) : (s.modCalib k f).barriers = s.barriers := rfl
@[simp] theorem State.modCalib_colls (s : State) (k : Nat) (f : Calib → Calib) : (s.modCalib k f).colls = s.colls := rfl
@[simp] theorem State.modCalib_collSeq (s : State) (k : Nat) (f : Calib → Calib) : (s.modCalib k f).collSeq = s.collSeq := rfl
@[simp] theorem State.modCalib_suspended (s : State) (k : Nat) (f : Calib → Calib) : (s.modCalib k f).suspended = s.suspended := rfl
@[simp] theorem State.modCalib_seqs (s : State) (k : Nat) (f : Calib → Calib) : (s.modCalib k f).seqs = s.seqs := rfl
@[simp] theorem State.modCalib_mem (s : State) (k : Nat) (f : Calib → Calib) : (s.modCalib k f).mem = s.mem := rfl
@[simp] theorem State.modCalib_badSectors (s : State) (k : Nat) (f : Calib → Calib) : (s.modCalib k f).badSectors = s.badSectors := rfl
@[simp] theorem State.modCalib_corrSectors (s : State) (k : Nat) (f : Calib → Calib) : (s.modCalib k f).corrSectors = s.corrSectors := rfl
@[simp] theorem State.modCalib_badSpad (s : State) (k : Nat) (f : Calib → Calib) : (s.modCalib k f).badSpad = s.badSpad := rfl
@[simp] theorem State.modCalib_corrWords (s : State) (k : Nat) (f : Calib → Calib) : (s.modCalib k f).corrWords = s.corrWords := rfl
@[simp] theorem State.modCalib_corrSpad (s : State) (k : Nat) (f : Calib → Calib) : (s.modCalib k f).corrSpad = s.corrSpad := rfl
@[simp] theorem State.modCalib_badL1 (s : State) (k : Nat) (f : Calib → Calib) : (s.modCalib k f).badL1 = s.badL1 := rfl
@[simp] theorem State.modCalib_badL1i (s : State) (k : Nat) (f : Calib → Calib) : (s.modCalib k f).badL1i = s.badL1i := rfl
@[simp] theorem State.modCalib_badTlb (s : State) (k : Nat) (f : Calib → Calib) : (s.modCalib k f).badTlb = s.badTlb := rfl
@[simp] theorem State.modCalib_badWords (s : State) (k : Nat) (f : Calib → Calib) : (s.modCalib k f).badWords = s.badWords := rfl
@[simp] theorem State.modCalib_caches (s : State) (k : Nat) (f : Calib → Calib) : (s.modCalib k f).caches = s.caches := rfl
@[simp] theorem State.modCalib_flights (s : State) (k : Nat) (f : Calib → Calib) : (s.modCalib k f).flights = s.flights := rfl
@[simp] theorem State.modCalib_keystone (s : State) (k : Nat) (f : Calib → Calib) : (s.modCalib k f).keystone = s.keystone := rfl
@[simp] theorem State.modCalib_vgroups (s : State) (k : Nat) (f : Calib → Calib) : (s.modCalib k f).vgroups = s.vgroups := rfl
@[simp] theorem State.modCalib_vdies (s : State) (k : Nat) (f : Calib → Calib) : (s.modCalib k f).vdies = s.vdies := rfl
@[simp] theorem State.modCalib_links (s : State) (k : Nat) (f : Calib → Calib) : (s.modCalib k f).links = s.links := rfl
@[simp] theorem State.modCalib_fw (s : State) (k : Nat) (f : Calib → Calib) : (s.modCalib k f).fw = s.fw := rfl
@[simp] theorem State.modCalib_cur (s : State) (k : Nat) (f : Calib → Calib) : (s.modCalib k f).cur = s.cur := rfl
@[simp] theorem State.modCalib_plan (s : State) (k : Nat) (f : Calib → Calib) : (s.modCalib k f).plan = s.plan := rfl
@[simp] theorem State.modCalib_agenda (s : State) (k : Nat) (f : Calib → Calib) : (s.modCalib k f).agenda = s.agenda := rfl
@[simp] theorem State.modCalib_turn (s : State) (k : Nat) (f : Calib → Calib) : (s.modCalib k f).turn = s.turn := rfl
@[simp] theorem State.modCalib_fresh (s : State) (k : Nat) (f : Calib → Calib) : (s.modCalib k f).fresh = s.fresh := rfl
@[simp] theorem State.modCalib_writes (s : State) (k : Nat) (f : Calib → Calib) : (s.modCalib k f).writes = s.writes := rfl
@[simp] theorem State.modCalib_hist (s : State) (k : Nat) (f : Calib → Calib) : (s.modCalib k f).hist = s.hist := rfl
@[simp] theorem State.modCalib_nextArr (s : State) (k : Nat) (f : Calib → Calib) : (s.modCalib k f).nextArr = s.nextArr := rfl
@[simp] theorem State.modCalib_nextOrder (s : State) (k : Nat) (f : Calib → Calib) : (s.modCalib k f).nextOrder = s.nextOrder := rfl
@[simp] theorem State.modCalib_nextLaunch (s : State) (k : Nat) (f : Calib → Calib) : (s.modCalib k f).nextLaunch = s.nextLaunch := rfl
@[simp] theorem State.modVDie_threads (s : State) (k : Nat) (f : VDie → VDie) : (s.modVDie k f).threads = s.threads := rfl
@[simp] theorem State.modVDie_cores (s : State) (k : Nat) (f : VDie → VDie) : (s.modVDie k f).cores = s.cores := rfl
@[simp] theorem State.modVDie_courses (s : State) (k : Nat) (f : VDie → VDie) : (s.modVDie k f).courses = s.courses := rfl
@[simp] theorem State.modVDie_dies (s : State) (k : Nat) (f : VDie → VDie) : (s.modVDie k f).dies = s.dies := rfl
@[simp] theorem State.modVDie_parts (s : State) (k : Nat) (f : VDie → VDie) : (s.modVDie k f).parts = s.parts := rfl
@[simp] theorem State.modVDie_groups (s : State) (k : Nat) (f : VDie → VDie) : (s.modVDie k f).groups = s.groups := rfl
@[simp] theorem State.modVDie_launches (s : State) (k : Nat) (f : VDie → VDie) : (s.modVDie k f).launches = s.launches := rfl
@[simp] theorem State.modVDie_teams (s : State) (k : Nat) (f : VDie → VDie) : (s.modVDie k f).teams = s.teams := rfl
@[simp] theorem State.modVDie_chans (s : State) (k : Nat) (f : VDie → VDie) : (s.modVDie k f).chans = s.chans := rfl
@[simp] theorem State.modVDie_barriers (s : State) (k : Nat) (f : VDie → VDie) : (s.modVDie k f).barriers = s.barriers := rfl
@[simp] theorem State.modVDie_colls (s : State) (k : Nat) (f : VDie → VDie) : (s.modVDie k f).colls = s.colls := rfl
@[simp] theorem State.modVDie_collSeq (s : State) (k : Nat) (f : VDie → VDie) : (s.modVDie k f).collSeq = s.collSeq := rfl
@[simp] theorem State.modVDie_suspended (s : State) (k : Nat) (f : VDie → VDie) : (s.modVDie k f).suspended = s.suspended := rfl
@[simp] theorem State.modVDie_seqs (s : State) (k : Nat) (f : VDie → VDie) : (s.modVDie k f).seqs = s.seqs := rfl
@[simp] theorem State.modVDie_mem (s : State) (k : Nat) (f : VDie → VDie) : (s.modVDie k f).mem = s.mem := rfl
@[simp] theorem State.modVDie_badSectors (s : State) (k : Nat) (f : VDie → VDie) : (s.modVDie k f).badSectors = s.badSectors := rfl
@[simp] theorem State.modVDie_corrSectors (s : State) (k : Nat) (f : VDie → VDie) : (s.modVDie k f).corrSectors = s.corrSectors := rfl
@[simp] theorem State.modVDie_badSpad (s : State) (k : Nat) (f : VDie → VDie) : (s.modVDie k f).badSpad = s.badSpad := rfl
@[simp] theorem State.modVDie_corrWords (s : State) (k : Nat) (f : VDie → VDie) : (s.modVDie k f).corrWords = s.corrWords := rfl
@[simp] theorem State.modVDie_corrSpad (s : State) (k : Nat) (f : VDie → VDie) : (s.modVDie k f).corrSpad = s.corrSpad := rfl
@[simp] theorem State.modVDie_badL1 (s : State) (k : Nat) (f : VDie → VDie) : (s.modVDie k f).badL1 = s.badL1 := rfl
@[simp] theorem State.modVDie_badL1i (s : State) (k : Nat) (f : VDie → VDie) : (s.modVDie k f).badL1i = s.badL1i := rfl
@[simp] theorem State.modVDie_badTlb (s : State) (k : Nat) (f : VDie → VDie) : (s.modVDie k f).badTlb = s.badTlb := rfl
@[simp] theorem State.modVDie_badWords (s : State) (k : Nat) (f : VDie → VDie) : (s.modVDie k f).badWords = s.badWords := rfl
@[simp] theorem State.modVDie_caches (s : State) (k : Nat) (f : VDie → VDie) : (s.modVDie k f).caches = s.caches := rfl
@[simp] theorem State.modVDie_flights (s : State) (k : Nat) (f : VDie → VDie) : (s.modVDie k f).flights = s.flights := rfl
@[simp] theorem State.modVDie_keystone (s : State) (k : Nat) (f : VDie → VDie) : (s.modVDie k f).keystone = s.keystone := rfl
@[simp] theorem State.modVDie_vgroups (s : State) (k : Nat) (f : VDie → VDie) : (s.modVDie k f).vgroups = s.vgroups := rfl
@[simp] theorem State.modVDie_vcols (s : State) (k : Nat) (f : VDie → VDie) : (s.modVDie k f).vcols = s.vcols := rfl
@[simp] theorem State.modVDie_links (s : State) (k : Nat) (f : VDie → VDie) : (s.modVDie k f).links = s.links := rfl
@[simp] theorem State.modVDie_fw (s : State) (k : Nat) (f : VDie → VDie) : (s.modVDie k f).fw = s.fw := rfl
@[simp] theorem State.modVDie_cur (s : State) (k : Nat) (f : VDie → VDie) : (s.modVDie k f).cur = s.cur := rfl
@[simp] theorem State.modVDie_plan (s : State) (k : Nat) (f : VDie → VDie) : (s.modVDie k f).plan = s.plan := rfl
@[simp] theorem State.modVDie_agenda (s : State) (k : Nat) (f : VDie → VDie) : (s.modVDie k f).agenda = s.agenda := rfl
@[simp] theorem State.modVDie_turn (s : State) (k : Nat) (f : VDie → VDie) : (s.modVDie k f).turn = s.turn := rfl
@[simp] theorem State.modVDie_fresh (s : State) (k : Nat) (f : VDie → VDie) : (s.modVDie k f).fresh = s.fresh := rfl
@[simp] theorem State.modVDie_writes (s : State) (k : Nat) (f : VDie → VDie) : (s.modVDie k f).writes = s.writes := rfl
@[simp] theorem State.modVDie_hist (s : State) (k : Nat) (f : VDie → VDie) : (s.modVDie k f).hist = s.hist := rfl
@[simp] theorem State.modVDie_nextArr (s : State) (k : Nat) (f : VDie → VDie) : (s.modVDie k f).nextArr = s.nextArr := rfl
@[simp] theorem State.modVDie_nextOrder (s : State) (k : Nat) (f : VDie → VDie) : (s.modVDie k f).nextOrder = s.nextOrder := rfl
@[simp] theorem State.modVDie_nextLaunch (s : State) (k : Nat) (f : VDie → VDie) : (s.modVDie k f).nextLaunch = s.nextLaunch := rfl
@[simp] theorem State.setSeq_threads (s : State) (k : Nat) (r : SeqRec) : (s.setSeq k r).threads = s.threads := rfl
@[simp] theorem State.setSeq_cores (s : State) (k : Nat) (r : SeqRec) : (s.setSeq k r).cores = s.cores := rfl
@[simp] theorem State.setSeq_courses (s : State) (k : Nat) (r : SeqRec) : (s.setSeq k r).courses = s.courses := rfl
@[simp] theorem State.setSeq_dies (s : State) (k : Nat) (r : SeqRec) : (s.setSeq k r).dies = s.dies := rfl
@[simp] theorem State.setSeq_parts (s : State) (k : Nat) (r : SeqRec) : (s.setSeq k r).parts = s.parts := rfl
@[simp] theorem State.setSeq_groups (s : State) (k : Nat) (r : SeqRec) : (s.setSeq k r).groups = s.groups := rfl
@[simp] theorem State.setSeq_launches (s : State) (k : Nat) (r : SeqRec) : (s.setSeq k r).launches = s.launches := rfl
@[simp] theorem State.setSeq_teams (s : State) (k : Nat) (r : SeqRec) : (s.setSeq k r).teams = s.teams := rfl
@[simp] theorem State.setSeq_chans (s : State) (k : Nat) (r : SeqRec) : (s.setSeq k r).chans = s.chans := rfl
@[simp] theorem State.setSeq_barriers (s : State) (k : Nat) (r : SeqRec) : (s.setSeq k r).barriers = s.barriers := rfl
@[simp] theorem State.setSeq_colls (s : State) (k : Nat) (r : SeqRec) : (s.setSeq k r).colls = s.colls := rfl
@[simp] theorem State.setSeq_collSeq (s : State) (k : Nat) (r : SeqRec) : (s.setSeq k r).collSeq = s.collSeq := rfl
@[simp] theorem State.setSeq_suspended (s : State) (k : Nat) (r : SeqRec) : (s.setSeq k r).suspended = s.suspended := rfl
@[simp] theorem State.setSeq_mem (s : State) (k : Nat) (r : SeqRec) : (s.setSeq k r).mem = s.mem := rfl
@[simp] theorem State.setSeq_badSectors (s : State) (k : Nat) (r : SeqRec) : (s.setSeq k r).badSectors = s.badSectors := rfl
@[simp] theorem State.setSeq_corrSectors (s : State) (k : Nat) (r : SeqRec) : (s.setSeq k r).corrSectors = s.corrSectors := rfl
@[simp] theorem State.setSeq_badSpad (s : State) (k : Nat) (r : SeqRec) : (s.setSeq k r).badSpad = s.badSpad := rfl
@[simp] theorem State.setSeq_corrWords (s : State) (k : Nat) (r : SeqRec) : (s.setSeq k r).corrWords = s.corrWords := rfl
@[simp] theorem State.setSeq_corrSpad (s : State) (k : Nat) (r : SeqRec) : (s.setSeq k r).corrSpad = s.corrSpad := rfl
@[simp] theorem State.setSeq_badL1 (s : State) (k : Nat) (r : SeqRec) : (s.setSeq k r).badL1 = s.badL1 := rfl
@[simp] theorem State.setSeq_badL1i (s : State) (k : Nat) (r : SeqRec) : (s.setSeq k r).badL1i = s.badL1i := rfl
@[simp] theorem State.setSeq_badTlb (s : State) (k : Nat) (r : SeqRec) : (s.setSeq k r).badTlb = s.badTlb := rfl
@[simp] theorem State.setSeq_badWords (s : State) (k : Nat) (r : SeqRec) : (s.setSeq k r).badWords = s.badWords := rfl
@[simp] theorem State.setSeq_caches (s : State) (k : Nat) (r : SeqRec) : (s.setSeq k r).caches = s.caches := rfl
@[simp] theorem State.setSeq_flights (s : State) (k : Nat) (r : SeqRec) : (s.setSeq k r).flights = s.flights := rfl
@[simp] theorem State.setSeq_keystone (s : State) (k : Nat) (r : SeqRec) : (s.setSeq k r).keystone = s.keystone := rfl
@[simp] theorem State.setSeq_vgroups (s : State) (k : Nat) (r : SeqRec) : (s.setSeq k r).vgroups = s.vgroups := rfl
@[simp] theorem State.setSeq_vcols (s : State) (k : Nat) (r : SeqRec) : (s.setSeq k r).vcols = s.vcols := rfl
@[simp] theorem State.setSeq_vdies (s : State) (k : Nat) (r : SeqRec) : (s.setSeq k r).vdies = s.vdies := rfl
@[simp] theorem State.setSeq_links (s : State) (k : Nat) (r : SeqRec) : (s.setSeq k r).links = s.links := rfl
@[simp] theorem State.setSeq_fw (s : State) (k : Nat) (r : SeqRec) : (s.setSeq k r).fw = s.fw := rfl
@[simp] theorem State.setSeq_cur (s : State) (k : Nat) (r : SeqRec) : (s.setSeq k r).cur = s.cur := rfl
@[simp] theorem State.setSeq_plan (s : State) (k : Nat) (r : SeqRec) : (s.setSeq k r).plan = s.plan := rfl
@[simp] theorem State.setSeq_agenda (s : State) (k : Nat) (r : SeqRec) : (s.setSeq k r).agenda = s.agenda := rfl
@[simp] theorem State.setSeq_turn (s : State) (k : Nat) (r : SeqRec) : (s.setSeq k r).turn = s.turn := rfl
@[simp] theorem State.setSeq_fresh (s : State) (k : Nat) (r : SeqRec) : (s.setSeq k r).fresh = s.fresh := rfl
@[simp] theorem State.setSeq_writes (s : State) (k : Nat) (r : SeqRec) : (s.setSeq k r).writes = s.writes := rfl
@[simp] theorem State.setSeq_hist (s : State) (k : Nat) (r : SeqRec) : (s.setSeq k r).hist = s.hist := rfl
@[simp] theorem State.setSeq_nextArr (s : State) (k : Nat) (r : SeqRec) : (s.setSeq k r).nextArr = s.nextArr := rfl
@[simp] theorem State.setSeq_nextOrder (s : State) (k : Nat) (r : SeqRec) : (s.setSeq k r).nextOrder = s.nextOrder := rfl
@[simp] theorem State.setSeq_nextLaunch (s : State) (k : Nat) (r : SeqRec) : (s.setSeq k r).nextLaunch = s.nextLaunch := rfl
@[simp] theorem State.setBarrier_threads (s : State) (k : Nat) (b : Barrier) : (s.setBarrier k b).threads = s.threads := rfl
@[simp] theorem State.setBarrier_cores (s : State) (k : Nat) (b : Barrier) : (s.setBarrier k b).cores = s.cores := rfl
@[simp] theorem State.setBarrier_courses (s : State) (k : Nat) (b : Barrier) : (s.setBarrier k b).courses = s.courses := rfl
@[simp] theorem State.setBarrier_dies (s : State) (k : Nat) (b : Barrier) : (s.setBarrier k b).dies = s.dies := rfl
@[simp] theorem State.setBarrier_parts (s : State) (k : Nat) (b : Barrier) : (s.setBarrier k b).parts = s.parts := rfl
@[simp] theorem State.setBarrier_groups (s : State) (k : Nat) (b : Barrier) : (s.setBarrier k b).groups = s.groups := rfl
@[simp] theorem State.setBarrier_launches (s : State) (k : Nat) (b : Barrier) : (s.setBarrier k b).launches = s.launches := rfl
@[simp] theorem State.setBarrier_teams (s : State) (k : Nat) (b : Barrier) : (s.setBarrier k b).teams = s.teams := rfl
@[simp] theorem State.setBarrier_chans (s : State) (k : Nat) (b : Barrier) : (s.setBarrier k b).chans = s.chans := rfl
@[simp] theorem State.setBarrier_colls (s : State) (k : Nat) (b : Barrier) : (s.setBarrier k b).colls = s.colls := rfl
@[simp] theorem State.setBarrier_collSeq (s : State) (k : Nat) (b : Barrier) : (s.setBarrier k b).collSeq = s.collSeq := rfl
@[simp] theorem State.setBarrier_suspended (s : State) (k : Nat) (b : Barrier) : (s.setBarrier k b).suspended = s.suspended := rfl
@[simp] theorem State.setBarrier_seqs (s : State) (k : Nat) (b : Barrier) : (s.setBarrier k b).seqs = s.seqs := rfl
@[simp] theorem State.setBarrier_mem (s : State) (k : Nat) (b : Barrier) : (s.setBarrier k b).mem = s.mem := rfl
@[simp] theorem State.setBarrier_badSectors (s : State) (k : Nat) (b : Barrier) : (s.setBarrier k b).badSectors = s.badSectors := rfl
@[simp] theorem State.setBarrier_corrSectors (s : State) (k : Nat) (b : Barrier) : (s.setBarrier k b).corrSectors = s.corrSectors := rfl
@[simp] theorem State.setBarrier_badSpad (s : State) (k : Nat) (b : Barrier) : (s.setBarrier k b).badSpad = s.badSpad := rfl
@[simp] theorem State.setBarrier_corrWords (s : State) (k : Nat) (b : Barrier) : (s.setBarrier k b).corrWords = s.corrWords := rfl
@[simp] theorem State.setBarrier_corrSpad (s : State) (k : Nat) (b : Barrier) : (s.setBarrier k b).corrSpad = s.corrSpad := rfl
@[simp] theorem State.setBarrier_badL1 (s : State) (k : Nat) (b : Barrier) : (s.setBarrier k b).badL1 = s.badL1 := rfl
@[simp] theorem State.setBarrier_badL1i (s : State) (k : Nat) (b : Barrier) : (s.setBarrier k b).badL1i = s.badL1i := rfl
@[simp] theorem State.setBarrier_badTlb (s : State) (k : Nat) (b : Barrier) : (s.setBarrier k b).badTlb = s.badTlb := rfl
@[simp] theorem State.setBarrier_badWords (s : State) (k : Nat) (b : Barrier) : (s.setBarrier k b).badWords = s.badWords := rfl
@[simp] theorem State.setBarrier_caches (s : State) (k : Nat) (b : Barrier) : (s.setBarrier k b).caches = s.caches := rfl
@[simp] theorem State.setBarrier_flights (s : State) (k : Nat) (b : Barrier) : (s.setBarrier k b).flights = s.flights := rfl
@[simp] theorem State.setBarrier_keystone (s : State) (k : Nat) (b : Barrier) : (s.setBarrier k b).keystone = s.keystone := rfl
@[simp] theorem State.setBarrier_vgroups (s : State) (k : Nat) (b : Barrier) : (s.setBarrier k b).vgroups = s.vgroups := rfl
@[simp] theorem State.setBarrier_vcols (s : State) (k : Nat) (b : Barrier) : (s.setBarrier k b).vcols = s.vcols := rfl
@[simp] theorem State.setBarrier_vdies (s : State) (k : Nat) (b : Barrier) : (s.setBarrier k b).vdies = s.vdies := rfl
@[simp] theorem State.setBarrier_links (s : State) (k : Nat) (b : Barrier) : (s.setBarrier k b).links = s.links := rfl
@[simp] theorem State.setBarrier_fw (s : State) (k : Nat) (b : Barrier) : (s.setBarrier k b).fw = s.fw := rfl
@[simp] theorem State.setBarrier_cur (s : State) (k : Nat) (b : Barrier) : (s.setBarrier k b).cur = s.cur := rfl
@[simp] theorem State.setBarrier_plan (s : State) (k : Nat) (b : Barrier) : (s.setBarrier k b).plan = s.plan := rfl
@[simp] theorem State.setBarrier_agenda (s : State) (k : Nat) (b : Barrier) : (s.setBarrier k b).agenda = s.agenda := rfl
@[simp] theorem State.setBarrier_turn (s : State) (k : Nat) (b : Barrier) : (s.setBarrier k b).turn = s.turn := rfl
@[simp] theorem State.setBarrier_fresh (s : State) (k : Nat) (b : Barrier) : (s.setBarrier k b).fresh = s.fresh := rfl
@[simp] theorem State.setBarrier_writes (s : State) (k : Nat) (b : Barrier) : (s.setBarrier k b).writes = s.writes := rfl
@[simp] theorem State.setBarrier_hist (s : State) (k : Nat) (b : Barrier) : (s.setBarrier k b).hist = s.hist := rfl
@[simp] theorem State.setBarrier_nextArr (s : State) (k : Nat) (b : Barrier) : (s.setBarrier k b).nextArr = s.nextArr := rfl
@[simp] theorem State.setBarrier_nextOrder (s : State) (k : Nat) (b : Barrier) : (s.setBarrier k b).nextOrder = s.nextOrder := rfl
@[simp] theorem State.setBarrier_nextLaunch (s : State) (k : Nat) (b : Barrier) : (s.setBarrier k b).nextLaunch = s.nextLaunch := rfl
@[simp] theorem State.modLink_threads (s : State) (k : Nat) (f : Link → Link) : (s.modLink k f).threads = s.threads := rfl
@[simp] theorem State.modLink_cores (s : State) (k : Nat) (f : Link → Link) : (s.modLink k f).cores = s.cores := rfl
@[simp] theorem State.modLink_courses (s : State) (k : Nat) (f : Link → Link) : (s.modLink k f).courses = s.courses := rfl
@[simp] theorem State.modLink_dies (s : State) (k : Nat) (f : Link → Link) : (s.modLink k f).dies = s.dies := rfl
@[simp] theorem State.modLink_parts (s : State) (k : Nat) (f : Link → Link) : (s.modLink k f).parts = s.parts := rfl
@[simp] theorem State.modLink_groups (s : State) (k : Nat) (f : Link → Link) : (s.modLink k f).groups = s.groups := rfl
@[simp] theorem State.modLink_launches (s : State) (k : Nat) (f : Link → Link) : (s.modLink k f).launches = s.launches := rfl
@[simp] theorem State.modLink_teams (s : State) (k : Nat) (f : Link → Link) : (s.modLink k f).teams = s.teams := rfl
@[simp] theorem State.modLink_chans (s : State) (k : Nat) (f : Link → Link) : (s.modLink k f).chans = s.chans := rfl
@[simp] theorem State.modLink_barriers (s : State) (k : Nat) (f : Link → Link) : (s.modLink k f).barriers = s.barriers := rfl
@[simp] theorem State.modLink_colls (s : State) (k : Nat) (f : Link → Link) : (s.modLink k f).colls = s.colls := rfl
@[simp] theorem State.modLink_collSeq (s : State) (k : Nat) (f : Link → Link) : (s.modLink k f).collSeq = s.collSeq := rfl
@[simp] theorem State.modLink_suspended (s : State) (k : Nat) (f : Link → Link) : (s.modLink k f).suspended = s.suspended := rfl
@[simp] theorem State.modLink_seqs (s : State) (k : Nat) (f : Link → Link) : (s.modLink k f).seqs = s.seqs := rfl
@[simp] theorem State.modLink_mem (s : State) (k : Nat) (f : Link → Link) : (s.modLink k f).mem = s.mem := rfl
@[simp] theorem State.modLink_badSectors (s : State) (k : Nat) (f : Link → Link) : (s.modLink k f).badSectors = s.badSectors := rfl
@[simp] theorem State.modLink_corrSectors (s : State) (k : Nat) (f : Link → Link) : (s.modLink k f).corrSectors = s.corrSectors := rfl
@[simp] theorem State.modLink_badSpad (s : State) (k : Nat) (f : Link → Link) : (s.modLink k f).badSpad = s.badSpad := rfl
@[simp] theorem State.modLink_corrWords (s : State) (k : Nat) (f : Link → Link) : (s.modLink k f).corrWords = s.corrWords := rfl
@[simp] theorem State.modLink_corrSpad (s : State) (k : Nat) (f : Link → Link) : (s.modLink k f).corrSpad = s.corrSpad := rfl
@[simp] theorem State.modLink_badL1 (s : State) (k : Nat) (f : Link → Link) : (s.modLink k f).badL1 = s.badL1 := rfl
@[simp] theorem State.modLink_badL1i (s : State) (k : Nat) (f : Link → Link) : (s.modLink k f).badL1i = s.badL1i := rfl
@[simp] theorem State.modLink_badTlb (s : State) (k : Nat) (f : Link → Link) : (s.modLink k f).badTlb = s.badTlb := rfl
@[simp] theorem State.modLink_badWords (s : State) (k : Nat) (f : Link → Link) : (s.modLink k f).badWords = s.badWords := rfl
@[simp] theorem State.modLink_caches (s : State) (k : Nat) (f : Link → Link) : (s.modLink k f).caches = s.caches := rfl
@[simp] theorem State.modLink_flights (s : State) (k : Nat) (f : Link → Link) : (s.modLink k f).flights = s.flights := rfl
@[simp] theorem State.modLink_keystone (s : State) (k : Nat) (f : Link → Link) : (s.modLink k f).keystone = s.keystone := rfl
@[simp] theorem State.modLink_vgroups (s : State) (k : Nat) (f : Link → Link) : (s.modLink k f).vgroups = s.vgroups := rfl
@[simp] theorem State.modLink_vcols (s : State) (k : Nat) (f : Link → Link) : (s.modLink k f).vcols = s.vcols := rfl
@[simp] theorem State.modLink_vdies (s : State) (k : Nat) (f : Link → Link) : (s.modLink k f).vdies = s.vdies := rfl
@[simp] theorem State.modLink_fw (s : State) (k : Nat) (f : Link → Link) : (s.modLink k f).fw = s.fw := rfl
@[simp] theorem State.modLink_cur (s : State) (k : Nat) (f : Link → Link) : (s.modLink k f).cur = s.cur := rfl
@[simp] theorem State.modLink_plan (s : State) (k : Nat) (f : Link → Link) : (s.modLink k f).plan = s.plan := rfl
@[simp] theorem State.modLink_agenda (s : State) (k : Nat) (f : Link → Link) : (s.modLink k f).agenda = s.agenda := rfl
@[simp] theorem State.modLink_turn (s : State) (k : Nat) (f : Link → Link) : (s.modLink k f).turn = s.turn := rfl
@[simp] theorem State.modLink_fresh (s : State) (k : Nat) (f : Link → Link) : (s.modLink k f).fresh = s.fresh := rfl
@[simp] theorem State.modLink_writes (s : State) (k : Nat) (f : Link → Link) : (s.modLink k f).writes = s.writes := rfl
@[simp] theorem State.modLink_hist (s : State) (k : Nat) (f : Link → Link) : (s.modLink k f).hist = s.hist := rfl
@[simp] theorem State.modLink_nextArr (s : State) (k : Nat) (f : Link → Link) : (s.modLink k f).nextArr = s.nextArr := rfl
@[simp] theorem State.modLink_nextOrder (s : State) (k : Nat) (f : Link → Link) : (s.modLink k f).nextOrder = s.nextOrder := rfl
@[simp] theorem State.modLink_nextLaunch (s : State) (k : Nat) (f : Link → Link) : (s.modLink k f).nextLaunch = s.nextLaunch := rfl
@[simp] theorem State.post_threads (s : State) (d : Due) : (s.post d).threads = s.threads := rfl
@[simp] theorem State.post_cores (s : State) (d : Due) : (s.post d).cores = s.cores := rfl
@[simp] theorem State.post_courses (s : State) (d : Due) : (s.post d).courses = s.courses := rfl
@[simp] theorem State.post_dies (s : State) (d : Due) : (s.post d).dies = s.dies := rfl
@[simp] theorem State.post_parts (s : State) (d : Due) : (s.post d).parts = s.parts := rfl
@[simp] theorem State.post_groups (s : State) (d : Due) : (s.post d).groups = s.groups := rfl
@[simp] theorem State.post_launches (s : State) (d : Due) : (s.post d).launches = s.launches := rfl
@[simp] theorem State.post_teams (s : State) (d : Due) : (s.post d).teams = s.teams := rfl
@[simp] theorem State.post_chans (s : State) (d : Due) : (s.post d).chans = s.chans := rfl
@[simp] theorem State.post_barriers (s : State) (d : Due) : (s.post d).barriers = s.barriers := rfl
@[simp] theorem State.post_colls (s : State) (d : Due) : (s.post d).colls = s.colls := rfl
@[simp] theorem State.post_collSeq (s : State) (d : Due) : (s.post d).collSeq = s.collSeq := rfl
@[simp] theorem State.post_suspended (s : State) (d : Due) : (s.post d).suspended = s.suspended := rfl
@[simp] theorem State.post_seqs (s : State) (d : Due) : (s.post d).seqs = s.seqs := rfl
@[simp] theorem State.post_mem (s : State) (d : Due) : (s.post d).mem = s.mem := rfl
@[simp] theorem State.post_badSectors (s : State) (d : Due) : (s.post d).badSectors = s.badSectors := rfl
@[simp] theorem State.post_corrSectors (s : State) (d : Due) : (s.post d).corrSectors = s.corrSectors := rfl
@[simp] theorem State.post_badSpad (s : State) (d : Due) : (s.post d).badSpad = s.badSpad := rfl
@[simp] theorem State.post_corrWords (s : State) (d : Due) : (s.post d).corrWords = s.corrWords := rfl
@[simp] theorem State.post_corrSpad (s : State) (d : Due) : (s.post d).corrSpad = s.corrSpad := rfl
@[simp] theorem State.post_badL1 (s : State) (d : Due) : (s.post d).badL1 = s.badL1 := rfl
@[simp] theorem State.post_badL1i (s : State) (d : Due) : (s.post d).badL1i = s.badL1i := rfl
@[simp] theorem State.post_badTlb (s : State) (d : Due) : (s.post d).badTlb = s.badTlb := rfl
@[simp] theorem State.post_badWords (s : State) (d : Due) : (s.post d).badWords = s.badWords := rfl
@[simp] theorem State.post_caches (s : State) (d : Due) : (s.post d).caches = s.caches := rfl
@[simp] theorem State.post_flights (s : State) (d : Due) : (s.post d).flights = s.flights := rfl
@[simp] theorem State.post_keystone (s : State) (d : Due) : (s.post d).keystone = s.keystone := rfl
@[simp] theorem State.post_vgroups (s : State) (d : Due) : (s.post d).vgroups = s.vgroups := rfl
@[simp] theorem State.post_vcols (s : State) (d : Due) : (s.post d).vcols = s.vcols := rfl
@[simp] theorem State.post_vdies (s : State) (d : Due) : (s.post d).vdies = s.vdies := rfl
@[simp] theorem State.post_links (s : State) (d : Due) : (s.post d).links = s.links := rfl
@[simp] theorem State.post_fw (s : State) (d : Due) : (s.post d).fw = s.fw := rfl
@[simp] theorem State.post_cur (s : State) (d : Due) : (s.post d).cur = s.cur := rfl
@[simp] theorem State.post_plan (s : State) (d : Due) : (s.post d).plan = s.plan := rfl
@[simp] theorem State.post_turn (s : State) (d : Due) : (s.post d).turn = s.turn := rfl
@[simp] theorem State.post_fresh (s : State) (d : Due) : (s.post d).fresh = s.fresh := rfl
@[simp] theorem State.post_writes (s : State) (d : Due) : (s.post d).writes = s.writes := rfl
@[simp] theorem State.post_hist (s : State) (d : Due) : (s.post d).hist = s.hist := rfl
@[simp] theorem State.post_nextArr (s : State) (d : Due) : (s.post d).nextArr = s.nextArr := rfl
@[simp] theorem State.post_nextOrder (s : State) (d : Due) : (s.post d).nextOrder = s.nextOrder := rfl
@[simp] theorem State.post_nextLaunch (s : State) (d : Due) : (s.post d).nextLaunch = s.nextLaunch := rfl

/-! ## Accessors of other parts -/

@[simp] theorem State.core_setCtx (s : State) (k : Nat) (c : Ctx) (i : Nat) : (s.setCtx k c).core i = s.core i := rfl
@[simp] theorem State.course_setCtx (s : State) (k : Nat) (c : Ctx) (i : Nat) : (s.setCtx k c).course i = s.course i := rfl
@[simp] theorem State.die_setCtx (s : State) (k : Nat) (c : Ctx) (i : Nat) : (s.setCtx k c).die i = s.die i := rfl
@[simp] theorem State.part_setCtx (s : State) (k : Nat) (c : Ctx) (i : Nat) : (s.setCtx k c).part i = s.part i := rfl
@[simp] theorem State.group_setCtx (s : State) (k : Nat) (c : Ctx) (i : Nat) : (s.setCtx k c).group i = s.group i := rfl
@[simp] theorem State.launch_setCtx (s : State) (k : Nat) (c : Ctx) (i : Nat) : (s.setCtx k c).launch i = s.launch i := rfl
@[simp] theorem State.teamOf_setCtx (s : State) (k : Nat) (c : Ctx) (i j : Nat) : (s.setCtx k c).teamOf i j = s.teamOf i j := rfl
@[simp] theorem State.chan_setCtx (s : State) (k : Nat) (c : Ctx) (i : Nat) : (s.setCtx k c).chan i = s.chan i := rfl
@[simp] theorem State.slot_setCtx (s : State) (k : Nat) (c : Ctx) (i j : Nat) : (s.setCtx k c).slot i j = s.slot i j := rfl
@[simp] theorem State.vgroup_setCtx (s : State) (k : Nat) (c : Ctx) (i : Nat) : (s.setCtx k c).vgroup i = s.vgroup i := rfl
@[simp] theorem State.calib_setCtx (s : State) (k : Nat) (c : Ctx) (i : Nat) : (s.setCtx k c).calib i = s.calib i := rfl
@[simp] theorem State.vdie_setCtx (s : State) (k : Nat) (c : Ctx) (i : Nat) : (s.setCtx k c).vdie i = s.vdie i := rfl
@[simp] theorem State.seqRec_setCtx (s : State) (k : Nat) (c : Ctx) (i : Nat) : (s.setCtx k c).seqRec i = s.seqRec i := rfl
@[simp] theorem State.barrier_setCtx (s : State) (k : Nat) (c : Ctx) (i : Nat) : (s.setCtx k c).barrier i = s.barrier i := rfl
@[simp] theorem State.linkAt_setCtx (s : State) (k : Nat) (c : Ctx) (i : Nat) : (s.setCtx k c).linkAt i = s.linkAt i := rfl
@[simp] theorem State.core_modCtx (s : State) (k : Nat) (f : Ctx → Ctx) (i : Nat) : (s.modCtx k f).core i = s.core i := rfl
@[simp] theorem State.course_modCtx (s : State) (k : Nat) (f : Ctx → Ctx) (i : Nat) : (s.modCtx k f).course i = s.course i := rfl
@[simp] theorem State.die_modCtx (s : State) (k : Nat) (f : Ctx → Ctx) (i : Nat) : (s.modCtx k f).die i = s.die i := rfl
@[simp] theorem State.part_modCtx (s : State) (k : Nat) (f : Ctx → Ctx) (i : Nat) : (s.modCtx k f).part i = s.part i := rfl
@[simp] theorem State.group_modCtx (s : State) (k : Nat) (f : Ctx → Ctx) (i : Nat) : (s.modCtx k f).group i = s.group i := rfl
@[simp] theorem State.launch_modCtx (s : State) (k : Nat) (f : Ctx → Ctx) (i : Nat) : (s.modCtx k f).launch i = s.launch i := rfl
@[simp] theorem State.teamOf_modCtx (s : State) (k : Nat) (f : Ctx → Ctx) (i j : Nat) : (s.modCtx k f).teamOf i j = s.teamOf i j := rfl
@[simp] theorem State.chan_modCtx (s : State) (k : Nat) (f : Ctx → Ctx) (i : Nat) : (s.modCtx k f).chan i = s.chan i := rfl
@[simp] theorem State.slot_modCtx (s : State) (k : Nat) (f : Ctx → Ctx) (i j : Nat) : (s.modCtx k f).slot i j = s.slot i j := rfl
@[simp] theorem State.vgroup_modCtx (s : State) (k : Nat) (f : Ctx → Ctx) (i : Nat) : (s.modCtx k f).vgroup i = s.vgroup i := rfl
@[simp] theorem State.calib_modCtx (s : State) (k : Nat) (f : Ctx → Ctx) (i : Nat) : (s.modCtx k f).calib i = s.calib i := rfl
@[simp] theorem State.vdie_modCtx (s : State) (k : Nat) (f : Ctx → Ctx) (i : Nat) : (s.modCtx k f).vdie i = s.vdie i := rfl
@[simp] theorem State.seqRec_modCtx (s : State) (k : Nat) (f : Ctx → Ctx) (i : Nat) : (s.modCtx k f).seqRec i = s.seqRec i := rfl
@[simp] theorem State.barrier_modCtx (s : State) (k : Nat) (f : Ctx → Ctx) (i : Nat) : (s.modCtx k f).barrier i = s.barrier i := rfl
@[simp] theorem State.linkAt_modCtx (s : State) (k : Nat) (f : Ctx → Ctx) (i : Nat) : (s.modCtx k f).linkAt i = s.linkAt i := rfl
@[simp] theorem State.core_modMe (s : State) (f : Ctx → Ctx) (i : Nat) : (s.modMe f).core i = s.core i := rfl
@[simp] theorem State.course_modMe (s : State) (f : Ctx → Ctx) (i : Nat) : (s.modMe f).course i = s.course i := rfl
@[simp] theorem State.die_modMe (s : State) (f : Ctx → Ctx) (i : Nat) : (s.modMe f).die i = s.die i := rfl
@[simp] theorem State.part_modMe (s : State) (f : Ctx → Ctx) (i : Nat) : (s.modMe f).part i = s.part i := rfl
@[simp] theorem State.group_modMe (s : State) (f : Ctx → Ctx) (i : Nat) : (s.modMe f).group i = s.group i := rfl
@[simp] theorem State.launch_modMe (s : State) (f : Ctx → Ctx) (i : Nat) : (s.modMe f).launch i = s.launch i := rfl
@[simp] theorem State.teamOf_modMe (s : State) (f : Ctx → Ctx) (i j : Nat) : (s.modMe f).teamOf i j = s.teamOf i j := rfl
@[simp] theorem State.chan_modMe (s : State) (f : Ctx → Ctx) (i : Nat) : (s.modMe f).chan i = s.chan i := rfl
@[simp] theorem State.slot_modMe (s : State) (f : Ctx → Ctx) (i j : Nat) : (s.modMe f).slot i j = s.slot i j := rfl
@[simp] theorem State.vgroup_modMe (s : State) (f : Ctx → Ctx) (i : Nat) : (s.modMe f).vgroup i = s.vgroup i := rfl
@[simp] theorem State.calib_modMe (s : State) (f : Ctx → Ctx) (i : Nat) : (s.modMe f).calib i = s.calib i := rfl
@[simp] theorem State.vdie_modMe (s : State) (f : Ctx → Ctx) (i : Nat) : (s.modMe f).vdie i = s.vdie i := rfl
@[simp] theorem State.seqRec_modMe (s : State) (f : Ctx → Ctx) (i : Nat) : (s.modMe f).seqRec i = s.seqRec i := rfl
@[simp] theorem State.barrier_modMe (s : State) (f : Ctx → Ctx) (i : Nat) : (s.modMe f).barrier i = s.barrier i := rfl
@[simp] theorem State.linkAt_modMe (s : State) (f : Ctx → Ctx) (i : Nat) : (s.modMe f).linkAt i = s.linkAt i := rfl
@[simp] theorem State.ctx_setCore (s : State) (k : Nat) (c : Core) (i : Nat) : (s.setCore k c).ctx i = s.ctx i := rfl
@[simp] theorem State.course_setCore (s : State) (k : Nat) (c : Core) (i : Nat) : (s.setCore k c).course i = s.course i := rfl
@[simp] theorem State.die_setCore (s : State) (k : Nat) (c : Core) (i : Nat) : (s.setCore k c).die i = s.die i := rfl
@[simp] theorem State.part_setCore (s : State) (k : Nat) (c : Core) (i : Nat) : (s.setCore k c).part i = s.part i := rfl
@[simp] theorem State.group_setCore (s : State) (k : Nat) (c : Core) (i : Nat) : (s.setCore k c).group i = s.group i := rfl
@[simp] theorem State.launch_setCore (s : State) (k : Nat) (c : Core) (i : Nat) : (s.setCore k c).launch i = s.launch i := rfl
@[simp] theorem State.teamOf_setCore (s : State) (k : Nat) (c : Core) (i j : Nat) : (s.setCore k c).teamOf i j = s.teamOf i j := rfl
@[simp] theorem State.chan_setCore (s : State) (k : Nat) (c : Core) (i : Nat) : (s.setCore k c).chan i = s.chan i := rfl
@[simp] theorem State.slot_setCore (s : State) (k : Nat) (c : Core) (i j : Nat) : (s.setCore k c).slot i j = s.slot i j := rfl
@[simp] theorem State.vgroup_setCore (s : State) (k : Nat) (c : Core) (i : Nat) : (s.setCore k c).vgroup i = s.vgroup i := rfl
@[simp] theorem State.calib_setCore (s : State) (k : Nat) (c : Core) (i : Nat) : (s.setCore k c).calib i = s.calib i := rfl
@[simp] theorem State.vdie_setCore (s : State) (k : Nat) (c : Core) (i : Nat) : (s.setCore k c).vdie i = s.vdie i := rfl
@[simp] theorem State.seqRec_setCore (s : State) (k : Nat) (c : Core) (i : Nat) : (s.setCore k c).seqRec i = s.seqRec i := rfl
@[simp] theorem State.barrier_setCore (s : State) (k : Nat) (c : Core) (i : Nat) : (s.setCore k c).barrier i = s.barrier i := rfl
@[simp] theorem State.linkAt_setCore (s : State) (k : Nat) (c : Core) (i : Nat) : (s.setCore k c).linkAt i = s.linkAt i := rfl
@[simp] theorem State.me_setCore (s : State) (k : Nat) (c : Core)  : (s.setCore k c).me  = s.me  := rfl
@[simp] theorem State.myPart_setCore (s : State) (k : Nat) (c : Core)  : (s.setCore k c).myPart  = s.myPart  := rfl
@[simp] theorem State.ctx_modCore (s : State) (k : Nat) (f : Core → Core) (i : Nat) : (s.modCore k f).ctx i = s.ctx i := rfl
@[simp] theorem State.course_modCore (s : State) (k : Nat) (f : Core → Core) (i : Nat) : (s.modCore k f).course i = s.course i := rfl
@[simp] theorem State.die_modCore (s : State) (k : Nat) (f : Core → Core) (i : Nat) : (s.modCore k f).die i = s.die i := rfl
@[simp] theorem State.part_modCore (s : State) (k : Nat) (f : Core → Core) (i : Nat) : (s.modCore k f).part i = s.part i := rfl
@[simp] theorem State.group_modCore (s : State) (k : Nat) (f : Core → Core) (i : Nat) : (s.modCore k f).group i = s.group i := rfl
@[simp] theorem State.launch_modCore (s : State) (k : Nat) (f : Core → Core) (i : Nat) : (s.modCore k f).launch i = s.launch i := rfl
@[simp] theorem State.teamOf_modCore (s : State) (k : Nat) (f : Core → Core) (i j : Nat) : (s.modCore k f).teamOf i j = s.teamOf i j := rfl
@[simp] theorem State.chan_modCore (s : State) (k : Nat) (f : Core → Core) (i : Nat) : (s.modCore k f).chan i = s.chan i := rfl
@[simp] theorem State.slot_modCore (s : State) (k : Nat) (f : Core → Core) (i j : Nat) : (s.modCore k f).slot i j = s.slot i j := rfl
@[simp] theorem State.vgroup_modCore (s : State) (k : Nat) (f : Core → Core) (i : Nat) : (s.modCore k f).vgroup i = s.vgroup i := rfl
@[simp] theorem State.calib_modCore (s : State) (k : Nat) (f : Core → Core) (i : Nat) : (s.modCore k f).calib i = s.calib i := rfl
@[simp] theorem State.vdie_modCore (s : State) (k : Nat) (f : Core → Core) (i : Nat) : (s.modCore k f).vdie i = s.vdie i := rfl
@[simp] theorem State.seqRec_modCore (s : State) (k : Nat) (f : Core → Core) (i : Nat) : (s.modCore k f).seqRec i = s.seqRec i := rfl
@[simp] theorem State.barrier_modCore (s : State) (k : Nat) (f : Core → Core) (i : Nat) : (s.modCore k f).barrier i = s.barrier i := rfl
@[simp] theorem State.linkAt_modCore (s : State) (k : Nat) (f : Core → Core) (i : Nat) : (s.modCore k f).linkAt i = s.linkAt i := rfl
@[simp] theorem State.me_modCore (s : State) (k : Nat) (f : Core → Core)  : (s.modCore k f).me  = s.me  := rfl
@[simp] theorem State.myPart_modCore (s : State) (k : Nat) (f : Core → Core)  : (s.modCore k f).myPart  = s.myPart  := rfl
@[simp] theorem State.ctx_modTm (s : State) (k : Nat) (f : TeamMem → TeamMem) (i : Nat) : (s.modTm k f).ctx i = s.ctx i := rfl
@[simp] theorem State.course_modTm (s : State) (k : Nat) (f : TeamMem → TeamMem) (i : Nat) : (s.modTm k f).course i = s.course i := rfl
@[simp] theorem State.die_modTm (s : State) (k : Nat) (f : TeamMem → TeamMem) (i : Nat) : (s.modTm k f).die i = s.die i := rfl
@[simp] theorem State.part_modTm (s : State) (k : Nat) (f : TeamMem → TeamMem) (i : Nat) : (s.modTm k f).part i = s.part i := rfl
@[simp] theorem State.group_modTm (s : State) (k : Nat) (f : TeamMem → TeamMem) (i : Nat) : (s.modTm k f).group i = s.group i := rfl
@[simp] theorem State.launch_modTm (s : State) (k : Nat) (f : TeamMem → TeamMem) (i : Nat) : (s.modTm k f).launch i = s.launch i := rfl
@[simp] theorem State.teamOf_modTm (s : State) (k : Nat) (f : TeamMem → TeamMem) (i j : Nat) : (s.modTm k f).teamOf i j = s.teamOf i j := rfl
@[simp] theorem State.chan_modTm (s : State) (k : Nat) (f : TeamMem → TeamMem) (i : Nat) : (s.modTm k f).chan i = s.chan i := rfl
@[simp] theorem State.slot_modTm (s : State) (k : Nat) (f : TeamMem → TeamMem) (i j : Nat) : (s.modTm k f).slot i j = s.slot i j := rfl
@[simp] theorem State.vgroup_modTm (s : State) (k : Nat) (f : TeamMem → TeamMem) (i : Nat) : (s.modTm k f).vgroup i = s.vgroup i := rfl
@[simp] theorem State.calib_modTm (s : State) (k : Nat) (f : TeamMem → TeamMem) (i : Nat) : (s.modTm k f).calib i = s.calib i := rfl
@[simp] theorem State.vdie_modTm (s : State) (k : Nat) (f : TeamMem → TeamMem) (i : Nat) : (s.modTm k f).vdie i = s.vdie i := rfl
@[simp] theorem State.seqRec_modTm (s : State) (k : Nat) (f : TeamMem → TeamMem) (i : Nat) : (s.modTm k f).seqRec i = s.seqRec i := rfl
@[simp] theorem State.barrier_modTm (s : State) (k : Nat) (f : TeamMem → TeamMem) (i : Nat) : (s.modTm k f).barrier i = s.barrier i := rfl
@[simp] theorem State.linkAt_modTm (s : State) (k : Nat) (f : TeamMem → TeamMem) (i : Nat) : (s.modTm k f).linkAt i = s.linkAt i := rfl
@[simp] theorem State.me_modTm (s : State) (k : Nat) (f : TeamMem → TeamMem)  : (s.modTm k f).me  = s.me  := rfl
@[simp] theorem State.myPart_modTm (s : State) (k : Nat) (f : TeamMem → TeamMem)  : (s.modTm k f).myPart  = s.myPart  := rfl
@[simp] theorem State.ctx_setCourse (s : State) (k : Nat) (c : Course) (i : Nat) : (s.setCourse k c).ctx i = s.ctx i := rfl
@[simp] theorem State.core_setCourse (s : State) (k : Nat) (c : Course) (i : Nat) : (s.setCourse k c).core i = s.core i := rfl
@[simp] theorem State.die_setCourse (s : State) (k : Nat) (c : Course) (i : Nat) : (s.setCourse k c).die i = s.die i := rfl
@[simp] theorem State.part_setCourse (s : State) (k : Nat) (c : Course) (i : Nat) : (s.setCourse k c).part i = s.part i := rfl
@[simp] theorem State.group_setCourse (s : State) (k : Nat) (c : Course) (i : Nat) : (s.setCourse k c).group i = s.group i := rfl
@[simp] theorem State.launch_setCourse (s : State) (k : Nat) (c : Course) (i : Nat) : (s.setCourse k c).launch i = s.launch i := rfl
@[simp] theorem State.teamOf_setCourse (s : State) (k : Nat) (c : Course) (i j : Nat) : (s.setCourse k c).teamOf i j = s.teamOf i j := rfl
@[simp] theorem State.chan_setCourse (s : State) (k : Nat) (c : Course) (i : Nat) : (s.setCourse k c).chan i = s.chan i := rfl
@[simp] theorem State.vgroup_setCourse (s : State) (k : Nat) (c : Course) (i : Nat) : (s.setCourse k c).vgroup i = s.vgroup i := rfl
@[simp] theorem State.calib_setCourse (s : State) (k : Nat) (c : Course) (i : Nat) : (s.setCourse k c).calib i = s.calib i := rfl
@[simp] theorem State.vdie_setCourse (s : State) (k : Nat) (c : Course) (i : Nat) : (s.setCourse k c).vdie i = s.vdie i := rfl
@[simp] theorem State.seqRec_setCourse (s : State) (k : Nat) (c : Course) (i : Nat) : (s.setCourse k c).seqRec i = s.seqRec i := rfl
@[simp] theorem State.barrier_setCourse (s : State) (k : Nat) (c : Course) (i : Nat) : (s.setCourse k c).barrier i = s.barrier i := rfl
@[simp] theorem State.linkAt_setCourse (s : State) (k : Nat) (c : Course) (i : Nat) : (s.setCourse k c).linkAt i = s.linkAt i := rfl
@[simp] theorem State.me_setCourse (s : State) (k : Nat) (c : Course)  : (s.setCourse k c).me  = s.me  := rfl
@[simp] theorem State.myPart_setCourse (s : State) (k : Nat) (c : Course)  : (s.setCourse k c).myPart  = s.myPart  := rfl
@[simp] theorem State.ctx_modCourse (s : State) (k : Nat) (f : Course → Course) (i : Nat) : (s.modCourse k f).ctx i = s.ctx i := rfl
@[simp] theorem State.core_modCourse (s : State) (k : Nat) (f : Course → Course) (i : Nat) : (s.modCourse k f).core i = s.core i := rfl
@[simp] theorem State.die_modCourse (s : State) (k : Nat) (f : Course → Course) (i : Nat) : (s.modCourse k f).die i = s.die i := rfl
@[simp] theorem State.part_modCourse (s : State) (k : Nat) (f : Course → Course) (i : Nat) : (s.modCourse k f).part i = s.part i := rfl
@[simp] theorem State.group_modCourse (s : State) (k : Nat) (f : Course → Course) (i : Nat) : (s.modCourse k f).group i = s.group i := rfl
@[simp] theorem State.launch_modCourse (s : State) (k : Nat) (f : Course → Course) (i : Nat) : (s.modCourse k f).launch i = s.launch i := rfl
@[simp] theorem State.teamOf_modCourse (s : State) (k : Nat) (f : Course → Course) (i j : Nat) : (s.modCourse k f).teamOf i j = s.teamOf i j := rfl
@[simp] theorem State.chan_modCourse (s : State) (k : Nat) (f : Course → Course) (i : Nat) : (s.modCourse k f).chan i = s.chan i := rfl
@[simp] theorem State.vgroup_modCourse (s : State) (k : Nat) (f : Course → Course) (i : Nat) : (s.modCourse k f).vgroup i = s.vgroup i := rfl
@[simp] theorem State.calib_modCourse (s : State) (k : Nat) (f : Course → Course) (i : Nat) : (s.modCourse k f).calib i = s.calib i := rfl
@[simp] theorem State.vdie_modCourse (s : State) (k : Nat) (f : Course → Course) (i : Nat) : (s.modCourse k f).vdie i = s.vdie i := rfl
@[simp] theorem State.seqRec_modCourse (s : State) (k : Nat) (f : Course → Course) (i : Nat) : (s.modCourse k f).seqRec i = s.seqRec i := rfl
@[simp] theorem State.barrier_modCourse (s : State) (k : Nat) (f : Course → Course) (i : Nat) : (s.modCourse k f).barrier i = s.barrier i := rfl
@[simp] theorem State.linkAt_modCourse (s : State) (k : Nat) (f : Course → Course) (i : Nat) : (s.modCourse k f).linkAt i = s.linkAt i := rfl
@[simp] theorem State.me_modCourse (s : State) (k : Nat) (f : Course → Course)  : (s.modCourse k f).me  = s.me  := rfl
@[simp] theorem State.myPart_modCourse (s : State) (k : Nat) (f : Course → Course)  : (s.modCourse k f).myPart  = s.myPart  := rfl
@[simp] theorem State.ctx_modSlot (s : State) (k i' : Nat) (f : Slot → Slot) (i : Nat) : (s.modSlot k i' f).ctx i = s.ctx i := rfl
@[simp] theorem State.core_modSlot (s : State) (k i' : Nat) (f : Slot → Slot) (i : Nat) : (s.modSlot k i' f).core i = s.core i := rfl
@[simp] theorem State.die_modSlot (s : State) (k i' : Nat) (f : Slot → Slot) (i : Nat) : (s.modSlot k i' f).die i = s.die i := rfl
@[simp] theorem State.part_modSlot (s : State) (k i' : Nat) (f : Slot → Slot) (i : Nat) : (s.modSlot k i' f).part i = s.part i := rfl
@[simp] theorem State.group_modSlot (s : State) (k i' : Nat) (f : Slot → Slot) (i : Nat) : (s.modSlot k i' f).group i = s.group i := rfl
@[simp] theorem State.launch_modSlot (s : State) (k i' : Nat) (f : Slot → Slot) (i : Nat) : (s.modSlot k i' f).launch i = s.launch i := rfl
@[simp] theorem State.teamOf_modSlot (s : State) (k i' : Nat) (f : Slot → Slot) (i j : Nat) : (s.modSlot k i' f).teamOf i j = s.teamOf i j := rfl
@[simp] theorem State.chan_modSlot (s : State) (k i' : Nat) (f : Slot → Slot) (i : Nat) : (s.modSlot k i' f).chan i = s.chan i := rfl
@[simp] theorem State.vgroup_modSlot (s : State) (k i' : Nat) (f : Slot → Slot) (i : Nat) : (s.modSlot k i' f).vgroup i = s.vgroup i := rfl
@[simp] theorem State.calib_modSlot (s : State) (k i' : Nat) (f : Slot → Slot) (i : Nat) : (s.modSlot k i' f).calib i = s.calib i := rfl
@[simp] theorem State.vdie_modSlot (s : State) (k i' : Nat) (f : Slot → Slot) (i : Nat) : (s.modSlot k i' f).vdie i = s.vdie i := rfl
@[simp] theorem State.seqRec_modSlot (s : State) (k i' : Nat) (f : Slot → Slot) (i : Nat) : (s.modSlot k i' f).seqRec i = s.seqRec i := rfl
@[simp] theorem State.barrier_modSlot (s : State) (k i' : Nat) (f : Slot → Slot) (i : Nat) : (s.modSlot k i' f).barrier i = s.barrier i := rfl
@[simp] theorem State.linkAt_modSlot (s : State) (k i' : Nat) (f : Slot → Slot) (i : Nat) : (s.modSlot k i' f).linkAt i = s.linkAt i := rfl
@[simp] theorem State.me_modSlot (s : State) (k i' : Nat) (f : Slot → Slot)  : (s.modSlot k i' f).me  = s.me  := rfl
@[simp] theorem State.myPart_modSlot (s : State) (k i' : Nat) (f : Slot → Slot)  : (s.modSlot k i' f).myPart  = s.myPart  := rfl
@[simp] theorem State.ctx_modDie (s : State) (k : Nat) (f : Die → Die) (i : Nat) : (s.modDie k f).ctx i = s.ctx i := rfl
@[simp] theorem State.core_modDie (s : State) (k : Nat) (f : Die → Die) (i : Nat) : (s.modDie k f).core i = s.core i := rfl
@[simp] theorem State.course_modDie (s : State) (k : Nat) (f : Die → Die) (i : Nat) : (s.modDie k f).course i = s.course i := rfl
@[simp] theorem State.part_modDie (s : State) (k : Nat) (f : Die → Die) (i : Nat) : (s.modDie k f).part i = s.part i := rfl
@[simp] theorem State.group_modDie (s : State) (k : Nat) (f : Die → Die) (i : Nat) : (s.modDie k f).group i = s.group i := rfl
@[simp] theorem State.launch_modDie (s : State) (k : Nat) (f : Die → Die) (i : Nat) : (s.modDie k f).launch i = s.launch i := rfl
@[simp] theorem State.teamOf_modDie (s : State) (k : Nat) (f : Die → Die) (i j : Nat) : (s.modDie k f).teamOf i j = s.teamOf i j := rfl
@[simp] theorem State.chan_modDie (s : State) (k : Nat) (f : Die → Die) (i : Nat) : (s.modDie k f).chan i = s.chan i := rfl
@[simp] theorem State.slot_modDie (s : State) (k : Nat) (f : Die → Die) (i j : Nat) : (s.modDie k f).slot i j = s.slot i j := rfl
@[simp] theorem State.vgroup_modDie (s : State) (k : Nat) (f : Die → Die) (i : Nat) : (s.modDie k f).vgroup i = s.vgroup i := rfl
@[simp] theorem State.calib_modDie (s : State) (k : Nat) (f : Die → Die) (i : Nat) : (s.modDie k f).calib i = s.calib i := rfl
@[simp] theorem State.vdie_modDie (s : State) (k : Nat) (f : Die → Die) (i : Nat) : (s.modDie k f).vdie i = s.vdie i := rfl
@[simp] theorem State.seqRec_modDie (s : State) (k : Nat) (f : Die → Die) (i : Nat) : (s.modDie k f).seqRec i = s.seqRec i := rfl
@[simp] theorem State.barrier_modDie (s : State) (k : Nat) (f : Die → Die) (i : Nat) : (s.modDie k f).barrier i = s.barrier i := rfl
@[simp] theorem State.linkAt_modDie (s : State) (k : Nat) (f : Die → Die) (i : Nat) : (s.modDie k f).linkAt i = s.linkAt i := rfl
@[simp] theorem State.me_modDie (s : State) (k : Nat) (f : Die → Die)  : (s.modDie k f).me  = s.me  := rfl
@[simp] theorem State.myPart_modDie (s : State) (k : Nat) (f : Die → Die)  : (s.modDie k f).myPart  = s.myPart  := rfl
@[simp] theorem State.ctx_modPart (s : State) (k : Nat) (f : Part → Part) (i : Nat) : (s.modPart k f).ctx i = s.ctx i := rfl
@[simp] theorem State.core_modPart (s : State) (k : Nat) (f : Part → Part) (i : Nat) : (s.modPart k f).core i = s.core i := rfl
@[simp] theorem State.course_modPart (s : State) (k : Nat) (f : Part → Part) (i : Nat) : (s.modPart k f).course i = s.course i := rfl
@[simp] theorem State.die_modPart (s : State) (k : Nat) (f : Part → Part) (i : Nat) : (s.modPart k f).die i = s.die i := rfl
@[simp] theorem State.group_modPart (s : State) (k : Nat) (f : Part → Part) (i : Nat) : (s.modPart k f).group i = s.group i := rfl
@[simp] theorem State.launch_modPart (s : State) (k : Nat) (f : Part → Part) (i : Nat) : (s.modPart k f).launch i = s.launch i := rfl
@[simp] theorem State.teamOf_modPart (s : State) (k : Nat) (f : Part → Part) (i j : Nat) : (s.modPart k f).teamOf i j = s.teamOf i j := rfl
@[simp] theorem State.chan_modPart (s : State) (k : Nat) (f : Part → Part) (i : Nat) : (s.modPart k f).chan i = s.chan i := rfl
@[simp] theorem State.slot_modPart (s : State) (k : Nat) (f : Part → Part) (i j : Nat) : (s.modPart k f).slot i j = s.slot i j := rfl
@[simp] theorem State.vgroup_modPart (s : State) (k : Nat) (f : Part → Part) (i : Nat) : (s.modPart k f).vgroup i = s.vgroup i := rfl
@[simp] theorem State.calib_modPart (s : State) (k : Nat) (f : Part → Part) (i : Nat) : (s.modPart k f).calib i = s.calib i := rfl
@[simp] theorem State.vdie_modPart (s : State) (k : Nat) (f : Part → Part) (i : Nat) : (s.modPart k f).vdie i = s.vdie i := rfl
@[simp] theorem State.seqRec_modPart (s : State) (k : Nat) (f : Part → Part) (i : Nat) : (s.modPart k f).seqRec i = s.seqRec i := rfl
@[simp] theorem State.barrier_modPart (s : State) (k : Nat) (f : Part → Part) (i : Nat) : (s.modPart k f).barrier i = s.barrier i := rfl
@[simp] theorem State.linkAt_modPart (s : State) (k : Nat) (f : Part → Part) (i : Nat) : (s.modPart k f).linkAt i = s.linkAt i := rfl
@[simp] theorem State.me_modPart (s : State) (k : Nat) (f : Part → Part)  : (s.modPart k f).me  = s.me  := rfl
@[simp] theorem State.ctx_setGroup (s : State) (k : Nat) (g : Group) (i : Nat) : (s.setGroup k g).ctx i = s.ctx i := rfl
@[simp] theorem State.core_setGroup (s : State) (k : Nat) (g : Group) (i : Nat) : (s.setGroup k g).core i = s.core i := rfl
@[simp] theorem State.course_setGroup (s : State) (k : Nat) (g : Group) (i : Nat) : (s.setGroup k g).course i = s.course i := rfl
@[simp] theorem State.die_setGroup (s : State) (k : Nat) (g : Group) (i : Nat) : (s.setGroup k g).die i = s.die i := rfl
@[simp] theorem State.part_setGroup (s : State) (k : Nat) (g : Group) (i : Nat) : (s.setGroup k g).part i = s.part i := rfl
@[simp] theorem State.launch_setGroup (s : State) (k : Nat) (g : Group) (i : Nat) : (s.setGroup k g).launch i = s.launch i := rfl
@[simp] theorem State.teamOf_setGroup (s : State) (k : Nat) (g : Group) (i j : Nat) : (s.setGroup k g).teamOf i j = s.teamOf i j := rfl
@[simp] theorem State.chan_setGroup (s : State) (k : Nat) (g : Group) (i : Nat) : (s.setGroup k g).chan i = s.chan i := rfl
@[simp] theorem State.slot_setGroup (s : State) (k : Nat) (g : Group) (i j : Nat) : (s.setGroup k g).slot i j = s.slot i j := rfl
@[simp] theorem State.vgroup_setGroup (s : State) (k : Nat) (g : Group) (i : Nat) : (s.setGroup k g).vgroup i = s.vgroup i := rfl
@[simp] theorem State.calib_setGroup (s : State) (k : Nat) (g : Group) (i : Nat) : (s.setGroup k g).calib i = s.calib i := rfl
@[simp] theorem State.vdie_setGroup (s : State) (k : Nat) (g : Group) (i : Nat) : (s.setGroup k g).vdie i = s.vdie i := rfl
@[simp] theorem State.seqRec_setGroup (s : State) (k : Nat) (g : Group) (i : Nat) : (s.setGroup k g).seqRec i = s.seqRec i := rfl
@[simp] theorem State.barrier_setGroup (s : State) (k : Nat) (g : Group) (i : Nat) : (s.setGroup k g).barrier i = s.barrier i := rfl
@[simp] theorem State.linkAt_setGroup (s : State) (k : Nat) (g : Group) (i : Nat) : (s.setGroup k g).linkAt i = s.linkAt i := rfl
@[simp] theorem State.me_setGroup (s : State) (k : Nat) (g : Group)  : (s.setGroup k g).me  = s.me  := rfl
@[simp] theorem State.myPart_setGroup (s : State) (k : Nat) (g : Group)  : (s.setGroup k g).myPart  = s.myPart  := rfl
@[simp] theorem State.ctx_modLaunch (s : State) (k : Nat) (f : Launch → Launch) (i : Nat) : (s.modLaunch k f).ctx i = s.ctx i := rfl
@[simp] theorem State.core_modLaunch (s : State) (k : Nat) (f : Launch → Launch) (i : Nat) : (s.modLaunch k f).core i = s.core i := rfl
@[simp] theorem State.course_modLaunch (s : State) (k : Nat) (f : Launch → Launch) (i : Nat) : (s.modLaunch k f).course i = s.course i := rfl
@[simp] theorem State.die_modLaunch (s : State) (k : Nat) (f : Launch → Launch) (i : Nat) : (s.modLaunch k f).die i = s.die i := rfl
@[simp] theorem State.part_modLaunch (s : State) (k : Nat) (f : Launch → Launch) (i : Nat) : (s.modLaunch k f).part i = s.part i := rfl
@[simp] theorem State.group_modLaunch (s : State) (k : Nat) (f : Launch → Launch) (i : Nat) : (s.modLaunch k f).group i = s.group i := rfl
@[simp] theorem State.teamOf_modLaunch (s : State) (k : Nat) (f : Launch → Launch) (i j : Nat) : (s.modLaunch k f).teamOf i j = s.teamOf i j := rfl
@[simp] theorem State.chan_modLaunch (s : State) (k : Nat) (f : Launch → Launch) (i : Nat) : (s.modLaunch k f).chan i = s.chan i := rfl
@[simp] theorem State.slot_modLaunch (s : State) (k : Nat) (f : Launch → Launch) (i j : Nat) : (s.modLaunch k f).slot i j = s.slot i j := rfl
@[simp] theorem State.vgroup_modLaunch (s : State) (k : Nat) (f : Launch → Launch) (i : Nat) : (s.modLaunch k f).vgroup i = s.vgroup i := rfl
@[simp] theorem State.calib_modLaunch (s : State) (k : Nat) (f : Launch → Launch) (i : Nat) : (s.modLaunch k f).calib i = s.calib i := rfl
@[simp] theorem State.vdie_modLaunch (s : State) (k : Nat) (f : Launch → Launch) (i : Nat) : (s.modLaunch k f).vdie i = s.vdie i := rfl
@[simp] theorem State.seqRec_modLaunch (s : State) (k : Nat) (f : Launch → Launch) (i : Nat) : (s.modLaunch k f).seqRec i = s.seqRec i := rfl
@[simp] theorem State.barrier_modLaunch (s : State) (k : Nat) (f : Launch → Launch) (i : Nat) : (s.modLaunch k f).barrier i = s.barrier i := rfl
@[simp] theorem State.linkAt_modLaunch (s : State) (k : Nat) (f : Launch → Launch) (i : Nat) : (s.modLaunch k f).linkAt i = s.linkAt i := rfl
@[simp] theorem State.me_modLaunch (s : State) (k : Nat) (f : Launch → Launch)  : (s.modLaunch k f).me  = s.me  := rfl
@[simp] theorem State.myPart_modLaunch (s : State) (k : Nat) (f : Launch → Launch)  : (s.modLaunch k f).myPart  = s.myPart  := rfl
@[simp] theorem State.ctx_modTeam (s : State) (l i' : Nat) (f : Team → Team) (i : Nat) : (s.modTeam l i' f).ctx i = s.ctx i := rfl
@[simp] theorem State.core_modTeam (s : State) (l i' : Nat) (f : Team → Team) (i : Nat) : (s.modTeam l i' f).core i = s.core i := rfl
@[simp] theorem State.course_modTeam (s : State) (l i' : Nat) (f : Team → Team) (i : Nat) : (s.modTeam l i' f).course i = s.course i := rfl
@[simp] theorem State.die_modTeam (s : State) (l i' : Nat) (f : Team → Team) (i : Nat) : (s.modTeam l i' f).die i = s.die i := rfl
@[simp] theorem State.part_modTeam (s : State) (l i' : Nat) (f : Team → Team) (i : Nat) : (s.modTeam l i' f).part i = s.part i := rfl
@[simp] theorem State.group_modTeam (s : State) (l i' : Nat) (f : Team → Team) (i : Nat) : (s.modTeam l i' f).group i = s.group i := rfl
@[simp] theorem State.launch_modTeam (s : State) (l i' : Nat) (f : Team → Team) (i : Nat) : (s.modTeam l i' f).launch i = s.launch i := rfl
@[simp] theorem State.chan_modTeam (s : State) (l i' : Nat) (f : Team → Team) (i : Nat) : (s.modTeam l i' f).chan i = s.chan i := rfl
@[simp] theorem State.slot_modTeam (s : State) (l i' : Nat) (f : Team → Team) (i j : Nat) : (s.modTeam l i' f).slot i j = s.slot i j := rfl
@[simp] theorem State.vgroup_modTeam (s : State) (l i' : Nat) (f : Team → Team) (i : Nat) : (s.modTeam l i' f).vgroup i = s.vgroup i := rfl
@[simp] theorem State.calib_modTeam (s : State) (l i' : Nat) (f : Team → Team) (i : Nat) : (s.modTeam l i' f).calib i = s.calib i := rfl
@[simp] theorem State.vdie_modTeam (s : State) (l i' : Nat) (f : Team → Team) (i : Nat) : (s.modTeam l i' f).vdie i = s.vdie i := rfl
@[simp] theorem State.seqRec_modTeam (s : State) (l i' : Nat) (f : Team → Team) (i : Nat) : (s.modTeam l i' f).seqRec i = s.seqRec i := rfl
@[simp] theorem State.barrier_modTeam (s : State) (l i' : Nat) (f : Team → Team) (i : Nat) : (s.modTeam l i' f).barrier i = s.barrier i := rfl
@[simp] theorem State.linkAt_modTeam (s : State) (l i' : Nat) (f : Team → Team) (i : Nat) : (s.modTeam l i' f).linkAt i = s.linkAt i := rfl
@[simp] theorem State.me_modTeam (s : State) (l i' : Nat) (f : Team → Team)  : (s.modTeam l i' f).me  = s.me  := rfl
@[simp] theorem State.myPart_modTeam (s : State) (l i' : Nat) (f : Team → Team)  : (s.modTeam l i' f).myPart  = s.myPart  := rfl
@[simp] theorem State.ctx_modChan (s : State) (k : Nat) (f : Chan → Chan) (i : Nat) : (s.modChan k f).ctx i = s.ctx i := rfl
@[simp] theorem State.core_modChan (s : State) (k : Nat) (f : Chan → Chan) (i : Nat) : (s.modChan k f).core i = s.core i := rfl
@[simp] theorem State.course_modChan (s : State) (k : Nat) (f : Chan → Chan) (i : Nat) : (s.modChan k f).course i = s.course i := rfl
@[simp] theorem State.die_modChan (s : State) (k : Nat) (f : Chan → Chan) (i : Nat) : (s.modChan k f).die i = s.die i := rfl
@[simp] theorem State.part_modChan (s : State) (k : Nat) (f : Chan → Chan) (i : Nat) : (s.modChan k f).part i = s.part i := rfl
@[simp] theorem State.group_modChan (s : State) (k : Nat) (f : Chan → Chan) (i : Nat) : (s.modChan k f).group i = s.group i := rfl
@[simp] theorem State.launch_modChan (s : State) (k : Nat) (f : Chan → Chan) (i : Nat) : (s.modChan k f).launch i = s.launch i := rfl
@[simp] theorem State.teamOf_modChan (s : State) (k : Nat) (f : Chan → Chan) (i j : Nat) : (s.modChan k f).teamOf i j = s.teamOf i j := rfl
@[simp] theorem State.slot_modChan (s : State) (k : Nat) (f : Chan → Chan) (i j : Nat) : (s.modChan k f).slot i j = s.slot i j := rfl
@[simp] theorem State.vgroup_modChan (s : State) (k : Nat) (f : Chan → Chan) (i : Nat) : (s.modChan k f).vgroup i = s.vgroup i := rfl
@[simp] theorem State.calib_modChan (s : State) (k : Nat) (f : Chan → Chan) (i : Nat) : (s.modChan k f).calib i = s.calib i := rfl
@[simp] theorem State.vdie_modChan (s : State) (k : Nat) (f : Chan → Chan) (i : Nat) : (s.modChan k f).vdie i = s.vdie i := rfl
@[simp] theorem State.seqRec_modChan (s : State) (k : Nat) (f : Chan → Chan) (i : Nat) : (s.modChan k f).seqRec i = s.seqRec i := rfl
@[simp] theorem State.barrier_modChan (s : State) (k : Nat) (f : Chan → Chan) (i : Nat) : (s.modChan k f).barrier i = s.barrier i := rfl
@[simp] theorem State.linkAt_modChan (s : State) (k : Nat) (f : Chan → Chan) (i : Nat) : (s.modChan k f).linkAt i = s.linkAt i := rfl
@[simp] theorem State.me_modChan (s : State) (k : Nat) (f : Chan → Chan)  : (s.modChan k f).me  = s.me  := rfl
@[simp] theorem State.myPart_modChan (s : State) (k : Nat) (f : Chan → Chan)  : (s.modChan k f).myPart  = s.myPart  := rfl
@[simp] theorem State.ctx_modVGroup (s : State) (k : Nat) (f : VGroup → VGroup) (i : Nat) : (s.modVGroup k f).ctx i = s.ctx i := rfl
@[simp] theorem State.core_modVGroup (s : State) (k : Nat) (f : VGroup → VGroup) (i : Nat) : (s.modVGroup k f).core i = s.core i := rfl
@[simp] theorem State.course_modVGroup (s : State) (k : Nat) (f : VGroup → VGroup) (i : Nat) : (s.modVGroup k f).course i = s.course i := rfl
@[simp] theorem State.die_modVGroup (s : State) (k : Nat) (f : VGroup → VGroup) (i : Nat) : (s.modVGroup k f).die i = s.die i := rfl
@[simp] theorem State.part_modVGroup (s : State) (k : Nat) (f : VGroup → VGroup) (i : Nat) : (s.modVGroup k f).part i = s.part i := rfl
@[simp] theorem State.group_modVGroup (s : State) (k : Nat) (f : VGroup → VGroup) (i : Nat) : (s.modVGroup k f).group i = s.group i := rfl
@[simp] theorem State.launch_modVGroup (s : State) (k : Nat) (f : VGroup → VGroup) (i : Nat) : (s.modVGroup k f).launch i = s.launch i := rfl
@[simp] theorem State.teamOf_modVGroup (s : State) (k : Nat) (f : VGroup → VGroup) (i j : Nat) : (s.modVGroup k f).teamOf i j = s.teamOf i j := rfl
@[simp] theorem State.chan_modVGroup (s : State) (k : Nat) (f : VGroup → VGroup) (i : Nat) : (s.modVGroup k f).chan i = s.chan i := rfl
@[simp] theorem State.slot_modVGroup (s : State) (k : Nat) (f : VGroup → VGroup) (i j : Nat) : (s.modVGroup k f).slot i j = s.slot i j := rfl
@[simp] theorem State.calib_modVGroup (s : State) (k : Nat) (f : VGroup → VGroup) (i : Nat) : (s.modVGroup k f).calib i = s.calib i := rfl
@[simp] theorem State.vdie_modVGroup (s : State) (k : Nat) (f : VGroup → VGroup) (i : Nat) : (s.modVGroup k f).vdie i = s.vdie i := rfl
@[simp] theorem State.seqRec_modVGroup (s : State) (k : Nat) (f : VGroup → VGroup) (i : Nat) : (s.modVGroup k f).seqRec i = s.seqRec i := rfl
@[simp] theorem State.barrier_modVGroup (s : State) (k : Nat) (f : VGroup → VGroup) (i : Nat) : (s.modVGroup k f).barrier i = s.barrier i := rfl
@[simp] theorem State.linkAt_modVGroup (s : State) (k : Nat) (f : VGroup → VGroup) (i : Nat) : (s.modVGroup k f).linkAt i = s.linkAt i := rfl
@[simp] theorem State.me_modVGroup (s : State) (k : Nat) (f : VGroup → VGroup)  : (s.modVGroup k f).me  = s.me  := rfl
@[simp] theorem State.myPart_modVGroup (s : State) (k : Nat) (f : VGroup → VGroup)  : (s.modVGroup k f).myPart  = s.myPart  := rfl
@[simp] theorem State.ctx_modCalib (s : State) (k : Nat) (f : Calib → Calib) (i : Nat) : (s.modCalib k f).ctx i = s.ctx i := rfl
@[simp] theorem State.core_modCalib (s : State) (k : Nat) (f : Calib → Calib) (i : Nat) : (s.modCalib k f).core i = s.core i := rfl
@[simp] theorem State.course_modCalib (s : State) (k : Nat) (f : Calib → Calib) (i : Nat) : (s.modCalib k f).course i = s.course i := rfl
@[simp] theorem State.die_modCalib (s : State) (k : Nat) (f : Calib → Calib) (i : Nat) : (s.modCalib k f).die i = s.die i := rfl
@[simp] theorem State.part_modCalib (s : State) (k : Nat) (f : Calib → Calib) (i : Nat) : (s.modCalib k f).part i = s.part i := rfl
@[simp] theorem State.group_modCalib (s : State) (k : Nat) (f : Calib → Calib) (i : Nat) : (s.modCalib k f).group i = s.group i := rfl
@[simp] theorem State.launch_modCalib (s : State) (k : Nat) (f : Calib → Calib) (i : Nat) : (s.modCalib k f).launch i = s.launch i := rfl
@[simp] theorem State.teamOf_modCalib (s : State) (k : Nat) (f : Calib → Calib) (i j : Nat) : (s.modCalib k f).teamOf i j = s.teamOf i j := rfl
@[simp] theorem State.chan_modCalib (s : State) (k : Nat) (f : Calib → Calib) (i : Nat) : (s.modCalib k f).chan i = s.chan i := rfl
@[simp] theorem State.slot_modCalib (s : State) (k : Nat) (f : Calib → Calib) (i j : Nat) : (s.modCalib k f).slot i j = s.slot i j := rfl
@[simp] theorem State.vgroup_modCalib (s : State) (k : Nat) (f : Calib → Calib) (i : Nat) : (s.modCalib k f).vgroup i = s.vgroup i := rfl
@[simp] theorem State.vdie_modCalib (s : State) (k : Nat) (f : Calib → Calib) (i : Nat) : (s.modCalib k f).vdie i = s.vdie i := rfl
@[simp] theorem State.seqRec_modCalib (s : State) (k : Nat) (f : Calib → Calib) (i : Nat) : (s.modCalib k f).seqRec i = s.seqRec i := rfl
@[simp] theorem State.barrier_modCalib (s : State) (k : Nat) (f : Calib → Calib) (i : Nat) : (s.modCalib k f).barrier i = s.barrier i := rfl
@[simp] theorem State.linkAt_modCalib (s : State) (k : Nat) (f : Calib → Calib) (i : Nat) : (s.modCalib k f).linkAt i = s.linkAt i := rfl
@[simp] theorem State.me_modCalib (s : State) (k : Nat) (f : Calib → Calib)  : (s.modCalib k f).me  = s.me  := rfl
@[simp] theorem State.myPart_modCalib (s : State) (k : Nat) (f : Calib → Calib)  : (s.modCalib k f).myPart  = s.myPart  := rfl
@[simp] theorem State.ctx_modVDie (s : State) (k : Nat) (f : VDie → VDie) (i : Nat) : (s.modVDie k f).ctx i = s.ctx i := rfl
@[simp] theorem State.core_modVDie (s : State) (k : Nat) (f : VDie → VDie) (i : Nat) : (s.modVDie k f).core i = s.core i := rfl
@[simp] theorem State.course_modVDie (s : State) (k : Nat) (f : VDie → VDie) (i : Nat) : (s.modVDie k f).course i = s.course i := rfl
@[simp] theorem State.die_modVDie (s : State) (k : Nat) (f : VDie → VDie) (i : Nat) : (s.modVDie k f).die i = s.die i := rfl
@[simp] theorem State.part_modVDie (s : State) (k : Nat) (f : VDie → VDie) (i : Nat) : (s.modVDie k f).part i = s.part i := rfl
@[simp] theorem State.group_modVDie (s : State) (k : Nat) (f : VDie → VDie) (i : Nat) : (s.modVDie k f).group i = s.group i := rfl
@[simp] theorem State.launch_modVDie (s : State) (k : Nat) (f : VDie → VDie) (i : Nat) : (s.modVDie k f).launch i = s.launch i := rfl
@[simp] theorem State.teamOf_modVDie (s : State) (k : Nat) (f : VDie → VDie) (i j : Nat) : (s.modVDie k f).teamOf i j = s.teamOf i j := rfl
@[simp] theorem State.chan_modVDie (s : State) (k : Nat) (f : VDie → VDie) (i : Nat) : (s.modVDie k f).chan i = s.chan i := rfl
@[simp] theorem State.slot_modVDie (s : State) (k : Nat) (f : VDie → VDie) (i j : Nat) : (s.modVDie k f).slot i j = s.slot i j := rfl
@[simp] theorem State.vgroup_modVDie (s : State) (k : Nat) (f : VDie → VDie) (i : Nat) : (s.modVDie k f).vgroup i = s.vgroup i := rfl
@[simp] theorem State.calib_modVDie (s : State) (k : Nat) (f : VDie → VDie) (i : Nat) : (s.modVDie k f).calib i = s.calib i := rfl
@[simp] theorem State.seqRec_modVDie (s : State) (k : Nat) (f : VDie → VDie) (i : Nat) : (s.modVDie k f).seqRec i = s.seqRec i := rfl
@[simp] theorem State.barrier_modVDie (s : State) (k : Nat) (f : VDie → VDie) (i : Nat) : (s.modVDie k f).barrier i = s.barrier i := rfl
@[simp] theorem State.linkAt_modVDie (s : State) (k : Nat) (f : VDie → VDie) (i : Nat) : (s.modVDie k f).linkAt i = s.linkAt i := rfl
@[simp] theorem State.me_modVDie (s : State) (k : Nat) (f : VDie → VDie)  : (s.modVDie k f).me  = s.me  := rfl
@[simp] theorem State.myPart_modVDie (s : State) (k : Nat) (f : VDie → VDie)  : (s.modVDie k f).myPart  = s.myPart  := rfl
@[simp] theorem State.ctx_setSeq (s : State) (k : Nat) (r : SeqRec) (i : Nat) : (s.setSeq k r).ctx i = s.ctx i := rfl
@[simp] theorem State.core_setSeq (s : State) (k : Nat) (r : SeqRec) (i : Nat) : (s.setSeq k r).core i = s.core i := rfl
@[simp] theorem State.course_setSeq (s : State) (k : Nat) (r : SeqRec) (i : Nat) : (s.setSeq k r).course i = s.course i := rfl
@[simp] theorem State.die_setSeq (s : State) (k : Nat) (r : SeqRec) (i : Nat) : (s.setSeq k r).die i = s.die i := rfl
@[simp] theorem State.part_setSeq (s : State) (k : Nat) (r : SeqRec) (i : Nat) : (s.setSeq k r).part i = s.part i := rfl
@[simp] theorem State.group_setSeq (s : State) (k : Nat) (r : SeqRec) (i : Nat) : (s.setSeq k r).group i = s.group i := rfl
@[simp] theorem State.launch_setSeq (s : State) (k : Nat) (r : SeqRec) (i : Nat) : (s.setSeq k r).launch i = s.launch i := rfl
@[simp] theorem State.teamOf_setSeq (s : State) (k : Nat) (r : SeqRec) (i j : Nat) : (s.setSeq k r).teamOf i j = s.teamOf i j := rfl
@[simp] theorem State.chan_setSeq (s : State) (k : Nat) (r : SeqRec) (i : Nat) : (s.setSeq k r).chan i = s.chan i := rfl
@[simp] theorem State.slot_setSeq (s : State) (k : Nat) (r : SeqRec) (i j : Nat) : (s.setSeq k r).slot i j = s.slot i j := rfl
@[simp] theorem State.vgroup_setSeq (s : State) (k : Nat) (r : SeqRec) (i : Nat) : (s.setSeq k r).vgroup i = s.vgroup i := rfl
@[simp] theorem State.calib_setSeq (s : State) (k : Nat) (r : SeqRec) (i : Nat) : (s.setSeq k r).calib i = s.calib i := rfl
@[simp] theorem State.vdie_setSeq (s : State) (k : Nat) (r : SeqRec) (i : Nat) : (s.setSeq k r).vdie i = s.vdie i := rfl
@[simp] theorem State.barrier_setSeq (s : State) (k : Nat) (r : SeqRec) (i : Nat) : (s.setSeq k r).barrier i = s.barrier i := rfl
@[simp] theorem State.linkAt_setSeq (s : State) (k : Nat) (r : SeqRec) (i : Nat) : (s.setSeq k r).linkAt i = s.linkAt i := rfl
@[simp] theorem State.me_setSeq (s : State) (k : Nat) (r : SeqRec)  : (s.setSeq k r).me  = s.me  := rfl
@[simp] theorem State.myPart_setSeq (s : State) (k : Nat) (r : SeqRec)  : (s.setSeq k r).myPart  = s.myPart  := rfl
@[simp] theorem State.ctx_setBarrier (s : State) (k : Nat) (b : Barrier) (i : Nat) : (s.setBarrier k b).ctx i = s.ctx i := rfl
@[simp] theorem State.core_setBarrier (s : State) (k : Nat) (b : Barrier) (i : Nat) : (s.setBarrier k b).core i = s.core i := rfl
@[simp] theorem State.course_setBarrier (s : State) (k : Nat) (b : Barrier) (i : Nat) : (s.setBarrier k b).course i = s.course i := rfl
@[simp] theorem State.die_setBarrier (s : State) (k : Nat) (b : Barrier) (i : Nat) : (s.setBarrier k b).die i = s.die i := rfl
@[simp] theorem State.part_setBarrier (s : State) (k : Nat) (b : Barrier) (i : Nat) : (s.setBarrier k b).part i = s.part i := rfl
@[simp] theorem State.group_setBarrier (s : State) (k : Nat) (b : Barrier) (i : Nat) : (s.setBarrier k b).group i = s.group i := rfl
@[simp] theorem State.launch_setBarrier (s : State) (k : Nat) (b : Barrier) (i : Nat) : (s.setBarrier k b).launch i = s.launch i := rfl
@[simp] theorem State.teamOf_setBarrier (s : State) (k : Nat) (b : Barrier) (i j : Nat) : (s.setBarrier k b).teamOf i j = s.teamOf i j := rfl
@[simp] theorem State.chan_setBarrier (s : State) (k : Nat) (b : Barrier) (i : Nat) : (s.setBarrier k b).chan i = s.chan i := rfl
@[simp] theorem State.slot_setBarrier (s : State) (k : Nat) (b : Barrier) (i j : Nat) : (s.setBarrier k b).slot i j = s.slot i j := rfl
@[simp] theorem State.vgroup_setBarrier (s : State) (k : Nat) (b : Barrier) (i : Nat) : (s.setBarrier k b).vgroup i = s.vgroup i := rfl
@[simp] theorem State.calib_setBarrier (s : State) (k : Nat) (b : Barrier) (i : Nat) : (s.setBarrier k b).calib i = s.calib i := rfl
@[simp] theorem State.vdie_setBarrier (s : State) (k : Nat) (b : Barrier) (i : Nat) : (s.setBarrier k b).vdie i = s.vdie i := rfl
@[simp] theorem State.seqRec_setBarrier (s : State) (k : Nat) (b : Barrier) (i : Nat) : (s.setBarrier k b).seqRec i = s.seqRec i := rfl
@[simp] theorem State.linkAt_setBarrier (s : State) (k : Nat) (b : Barrier) (i : Nat) : (s.setBarrier k b).linkAt i = s.linkAt i := rfl
@[simp] theorem State.me_setBarrier (s : State) (k : Nat) (b : Barrier)  : (s.setBarrier k b).me  = s.me  := rfl
@[simp] theorem State.myPart_setBarrier (s : State) (k : Nat) (b : Barrier)  : (s.setBarrier k b).myPart  = s.myPart  := rfl
@[simp] theorem State.ctx_modLink (s : State) (k : Nat) (f : Link → Link) (i : Nat) : (s.modLink k f).ctx i = s.ctx i := rfl
@[simp] theorem State.core_modLink (s : State) (k : Nat) (f : Link → Link) (i : Nat) : (s.modLink k f).core i = s.core i := rfl
@[simp] theorem State.course_modLink (s : State) (k : Nat) (f : Link → Link) (i : Nat) : (s.modLink k f).course i = s.course i := rfl
@[simp] theorem State.die_modLink (s : State) (k : Nat) (f : Link → Link) (i : Nat) : (s.modLink k f).die i = s.die i := rfl
@[simp] theorem State.part_modLink (s : State) (k : Nat) (f : Link → Link) (i : Nat) : (s.modLink k f).part i = s.part i := rfl
@[simp] theorem State.group_modLink (s : State) (k : Nat) (f : Link → Link) (i : Nat) : (s.modLink k f).group i = s.group i := rfl
@[simp] theorem State.launch_modLink (s : State) (k : Nat) (f : Link → Link) (i : Nat) : (s.modLink k f).launch i = s.launch i := rfl
@[simp] theorem State.teamOf_modLink (s : State) (k : Nat) (f : Link → Link) (i j : Nat) : (s.modLink k f).teamOf i j = s.teamOf i j := rfl
@[simp] theorem State.chan_modLink (s : State) (k : Nat) (f : Link → Link) (i : Nat) : (s.modLink k f).chan i = s.chan i := rfl
@[simp] theorem State.slot_modLink (s : State) (k : Nat) (f : Link → Link) (i j : Nat) : (s.modLink k f).slot i j = s.slot i j := rfl
@[simp] theorem State.vgroup_modLink (s : State) (k : Nat) (f : Link → Link) (i : Nat) : (s.modLink k f).vgroup i = s.vgroup i := rfl
@[simp] theorem State.calib_modLink (s : State) (k : Nat) (f : Link → Link) (i : Nat) : (s.modLink k f).calib i = s.calib i := rfl
@[simp] theorem State.vdie_modLink (s : State) (k : Nat) (f : Link → Link) (i : Nat) : (s.modLink k f).vdie i = s.vdie i := rfl
@[simp] theorem State.seqRec_modLink (s : State) (k : Nat) (f : Link → Link) (i : Nat) : (s.modLink k f).seqRec i = s.seqRec i := rfl
@[simp] theorem State.barrier_modLink (s : State) (k : Nat) (f : Link → Link) (i : Nat) : (s.modLink k f).barrier i = s.barrier i := rfl
@[simp] theorem State.me_modLink (s : State) (k : Nat) (f : Link → Link)  : (s.modLink k f).me  = s.me  := rfl
@[simp] theorem State.myPart_modLink (s : State) (k : Nat) (f : Link → Link)  : (s.modLink k f).myPart  = s.myPart  := rfl
@[simp] theorem State.ctx_post (s : State) (d : Due) (i : Nat) : (s.post d).ctx i = s.ctx i := rfl
@[simp] theorem State.core_post (s : State) (d : Due) (i : Nat) : (s.post d).core i = s.core i := rfl
@[simp] theorem State.course_post (s : State) (d : Due) (i : Nat) : (s.post d).course i = s.course i := rfl
@[simp] theorem State.die_post (s : State) (d : Due) (i : Nat) : (s.post d).die i = s.die i := rfl
@[simp] theorem State.part_post (s : State) (d : Due) (i : Nat) : (s.post d).part i = s.part i := rfl
@[simp] theorem State.group_post (s : State) (d : Due) (i : Nat) : (s.post d).group i = s.group i := rfl
@[simp] theorem State.launch_post (s : State) (d : Due) (i : Nat) : (s.post d).launch i = s.launch i := rfl
@[simp] theorem State.teamOf_post (s : State) (d : Due) (i j : Nat) : (s.post d).teamOf i j = s.teamOf i j := rfl
@[simp] theorem State.chan_post (s : State) (d : Due) (i : Nat) : (s.post d).chan i = s.chan i := rfl
@[simp] theorem State.slot_post (s : State) (d : Due) (i j : Nat) : (s.post d).slot i j = s.slot i j := rfl
@[simp] theorem State.vgroup_post (s : State) (d : Due) (i : Nat) : (s.post d).vgroup i = s.vgroup i := rfl
@[simp] theorem State.calib_post (s : State) (d : Due) (i : Nat) : (s.post d).calib i = s.calib i := rfl
@[simp] theorem State.vdie_post (s : State) (d : Due) (i : Nat) : (s.post d).vdie i = s.vdie i := rfl
@[simp] theorem State.seqRec_post (s : State) (d : Due) (i : Nat) : (s.post d).seqRec i = s.seqRec i := rfl
@[simp] theorem State.barrier_post (s : State) (d : Due) (i : Nat) : (s.post d).barrier i = s.barrier i := rfl
@[simp] theorem State.linkAt_post (s : State) (d : Due) (i : Nat) : (s.post d).linkAt i = s.linkAt i := rfl
@[simp] theorem State.me_post (s : State) (d : Due)  : (s.post d).me  = s.me  := rfl
@[simp] theorem State.myPart_post (s : State) (d : Due)  : (s.post d).myPart  = s.myPart  := rfl

/-! ## The part that an update writes -/

@[simp] theorem State.ctx_setCtx_self (s : State) (k : Nat) (c : Ctx) : (s.setCtx k c).ctx k = c := Tbl.get_set_self ..
theorem State.ctx_setCtx_ne (s : State) (k : Nat) (c : Ctx) {i : Nat} (h : i ≠ k) : (s.setCtx k c).ctx i = s.ctx i :=
  Tbl.get_set_ne _ _ _ h
@[simp] theorem State.core_setCore_self (s : State) (k : Nat) (c : Core) : (s.setCore k c).core k = c := Tbl.get_set_self ..
theorem State.core_setCore_ne (s : State) (k : Nat) (c : Core) {i : Nat} (h : i ≠ k) : (s.setCore k c).core i = s.core i :=
  Tbl.get_set_ne _ _ _ h
@[simp] theorem State.course_setCourse_self (s : State) (k : Nat) (c : Course) : (s.setCourse k c).course k = c := Tbl.get_set_self ..
theorem State.course_setCourse_ne (s : State) (k : Nat) (c : Course) {i : Nat} (h : i ≠ k) : (s.setCourse k c).course i = s.course i :=
  Tbl.get_set_ne _ _ _ h
@[simp] theorem State.group_setGroup_self (s : State) (k : Nat) (g : Group) : (s.setGroup k g).group k = g := Tbl.get_set_self ..
theorem State.group_setGroup_ne (s : State) (k : Nat) (g : Group) {i : Nat} (h : i ≠ k) : (s.setGroup k g).group i = s.group i :=
  Tbl.get_set_ne _ _ _ h
@[simp] theorem State.seqRec_setSeq_self (s : State) (k : Nat) (r : SeqRec) : (s.setSeq k r).seqRec k = r := Tbl.get_set_self ..
theorem State.seqRec_setSeq_ne (s : State) (k : Nat) (r : SeqRec) {i : Nat} (h : i ≠ k) : (s.setSeq k r).seqRec i = s.seqRec i :=
  Tbl.get_set_ne _ _ _ h
@[simp] theorem State.barrier_setBarrier_self (s : State) (k : Nat) (b : Barrier) : (s.setBarrier k b).barrier k = b := Tbl.get_set_self ..
theorem State.barrier_setBarrier_ne (s : State) (k : Nat) (b : Barrier) {i : Nat} (h : i ≠ k) : (s.setBarrier k b).barrier i = s.barrier i :=
  Tbl.get_set_ne _ _ _ h
@[simp] theorem State.ctx_modCtx_self (s : State) (k : Nat) (f : Ctx → Ctx) : (s.modCtx k f).ctx k = f (s.ctx k) := Tbl.get_set_self ..
theorem State.ctx_modCtx_ne (s : State) (k : Nat) (f : Ctx → Ctx) {i : Nat} (h : i ≠ k) : (s.modCtx k f).ctx i = s.ctx i :=
  Tbl.get_set_ne _ _ _ h
@[simp] theorem State.core_modCore_self (s : State) (k : Nat) (f : Core → Core) : (s.modCore k f).core k = f (s.core k) := Tbl.get_set_self ..
theorem State.core_modCore_ne (s : State) (k : Nat) (f : Core → Core) {i : Nat} (h : i ≠ k) : (s.modCore k f).core i = s.core i :=
  Tbl.get_set_ne _ _ _ h
@[simp] theorem State.course_modCourse_self (s : State) (k : Nat) (f : Course → Course) : (s.modCourse k f).course k = f (s.course k) := Tbl.get_set_self ..
theorem State.course_modCourse_ne (s : State) (k : Nat) (f : Course → Course) {i : Nat} (h : i ≠ k) : (s.modCourse k f).course i = s.course i :=
  Tbl.get_set_ne _ _ _ h
@[simp] theorem State.die_modDie_self (s : State) (k : Nat) (f : Die → Die) : (s.modDie k f).die k = f (s.die k) := Tbl.get_set_self ..
theorem State.die_modDie_ne (s : State) (k : Nat) (f : Die → Die) {i : Nat} (h : i ≠ k) : (s.modDie k f).die i = s.die i :=
  Tbl.get_set_ne _ _ _ h
@[simp] theorem State.part_modPart_self (s : State) (k : Nat) (f : Part → Part) : (s.modPart k f).part k = f (s.part k) := Tbl.get_set_self ..
theorem State.part_modPart_ne (s : State) (k : Nat) (f : Part → Part) {i : Nat} (h : i ≠ k) : (s.modPart k f).part i = s.part i :=
  Tbl.get_set_ne _ _ _ h
@[simp] theorem State.launch_modLaunch_self (s : State) (k : Nat) (f : Launch → Launch) : (s.modLaunch k f).launch k = f (s.launch k) := Tbl.get_set_self ..
theorem State.launch_modLaunch_ne (s : State) (k : Nat) (f : Launch → Launch) {i : Nat} (h : i ≠ k) : (s.modLaunch k f).launch i = s.launch i :=
  Tbl.get_set_ne _ _ _ h
@[simp] theorem State.chan_modChan_self (s : State) (k : Nat) (f : Chan → Chan) : (s.modChan k f).chan k = f (s.chan k) := Tbl.get_set_self ..
theorem State.chan_modChan_ne (s : State) (k : Nat) (f : Chan → Chan) {i : Nat} (h : i ≠ k) : (s.modChan k f).chan i = s.chan i :=
  Tbl.get_set_ne _ _ _ h
@[simp] theorem State.vgroup_modVGroup_self (s : State) (k : Nat) (f : VGroup → VGroup) : (s.modVGroup k f).vgroup k = f (s.vgroup k) := Tbl.get_set_self ..
theorem State.vgroup_modVGroup_ne (s : State) (k : Nat) (f : VGroup → VGroup) {i : Nat} (h : i ≠ k) : (s.modVGroup k f).vgroup i = s.vgroup i :=
  Tbl.get_set_ne _ _ _ h
@[simp] theorem State.calib_modCalib_self (s : State) (k : Nat) (f : Calib → Calib) : (s.modCalib k f).calib k = f (s.calib k) := Tbl.get_set_self ..
theorem State.calib_modCalib_ne (s : State) (k : Nat) (f : Calib → Calib) {i : Nat} (h : i ≠ k) : (s.modCalib k f).calib i = s.calib i :=
  Tbl.get_set_ne _ _ _ h
@[simp] theorem State.vdie_modVDie_self (s : State) (k : Nat) (f : VDie → VDie) : (s.modVDie k f).vdie k = f (s.vdie k) := Tbl.get_set_self ..
theorem State.vdie_modVDie_ne (s : State) (k : Nat) (f : VDie → VDie) {i : Nat} (h : i ≠ k) : (s.modVDie k f).vdie i = s.vdie i :=
  Tbl.get_set_ne _ _ _ h
@[simp] theorem State.linkAt_modLink_self (s : State) (k : Nat) (f : Link → Link) : (s.modLink k f).linkAt k = f (s.linkAt k) := Tbl.get_set_self ..
theorem State.linkAt_modLink_ne (s : State) (k : Nat) (f : Link → Link) {i : Nat} (h : i ≠ k) : (s.modLink k f).linkAt i = s.linkAt i :=
  Tbl.get_set_ne _ _ _ h
@[simp] theorem State.me_modMe (s : State) (f : Ctx → Ctx) : (s.modMe f).me = f s.me := Tbl.get_set_self ..
@[simp] theorem State.ctx_modMe_self (s : State) (f : Ctx → Ctx) : (s.modMe f).ctx s.cur = f (s.ctx s.cur) := Tbl.get_set_self ..
theorem State.ctx_modMe_ne (s : State) (f : Ctx → Ctx) {i : Nat} (h : i ≠ s.cur) : (s.modMe f).ctx i = s.ctx i :=
  Tbl.get_set_ne _ _ _ h
@[simp] theorem State.core_modTm_self (s : State) (k : Nat) (f : TeamMem → TeamMem) :
    (s.modTm k f).core k = { s.core k with tm := f (s.core k).tm } := Tbl.get_set_self ..
theorem State.core_modTm_ne (s : State) (k : Nat) (f : TeamMem → TeamMem) {i : Nat} (h : i ≠ k) :
    (s.modTm k f).core i = s.core i := Tbl.get_set_ne _ _ _ h
@[simp] theorem State.teamOf_modTeam_self (s : State) (l t : Nat) (f : Team → Team) :
    (s.modTeam l t f).teamOf l t = f (s.teamOf l t) := Tbl.get_set_self ..
@[simp] theorem State.slot_modSlot_self (s : State) (k i : Nat) (f : Slot → Slot) :
    (s.modSlot k i f).slot k i = f (s.slot k i) := by
  simp [State.slot, State.modSlot]
@[simp] theorem State.agenda_post (s : State) (d : Due) : (s.post d).agenda = s.agenda ++ [d] := rfl

/-! ## What a change of the caches leaves alone -/

@[simp] theorem State.cached_threads (s : State) (r : Caches × List Nat) : (s.cached r).threads = s.threads := rfl
@[simp] theorem State.cached_cores (s : State) (r : Caches × List Nat) : (s.cached r).cores = s.cores := rfl
@[simp] theorem State.cached_courses (s : State) (r : Caches × List Nat) : (s.cached r).courses = s.courses := rfl
@[simp] theorem State.cached_dies (s : State) (r : Caches × List Nat) : (s.cached r).dies = s.dies := rfl
@[simp] theorem State.cached_parts (s : State) (r : Caches × List Nat) : (s.cached r).parts = s.parts := rfl
@[simp] theorem State.cached_groups (s : State) (r : Caches × List Nat) : (s.cached r).groups = s.groups := rfl
@[simp] theorem State.cached_launches (s : State) (r : Caches × List Nat) : (s.cached r).launches = s.launches := rfl
@[simp] theorem State.cached_teams (s : State) (r : Caches × List Nat) : (s.cached r).teams = s.teams := rfl
@[simp] theorem State.cached_chans (s : State) (r : Caches × List Nat) : (s.cached r).chans = s.chans := rfl
@[simp] theorem State.cached_barriers (s : State) (r : Caches × List Nat) : (s.cached r).barriers = s.barriers := rfl
@[simp] theorem State.cached_colls (s : State) (r : Caches × List Nat) : (s.cached r).colls = s.colls := rfl
@[simp] theorem State.cached_collSeq (s : State) (r : Caches × List Nat) : (s.cached r).collSeq = s.collSeq := rfl
@[simp] theorem State.cached_suspended (s : State) (r : Caches × List Nat) : (s.cached r).suspended = s.suspended := rfl
@[simp] theorem State.cached_seqs (s : State) (r : Caches × List Nat) : (s.cached r).seqs = s.seqs := rfl
@[simp] theorem State.cached_mem (s : State) (r : Caches × List Nat) : (s.cached r).mem = s.mem := rfl
@[simp] theorem State.cached_badSpad (s : State) (r : Caches × List Nat) : (s.cached r).badSpad = s.badSpad := rfl
@[simp] theorem State.cached_corrSpad (s : State) (r : Caches × List Nat) : (s.cached r).corrSpad = s.corrSpad := rfl
@[simp] theorem State.cached_badL1i (s : State) (r : Caches × List Nat) : (s.cached r).badL1i = s.badL1i := rfl
@[simp] theorem State.cached_badTlb (s : State) (r : Caches × List Nat) : (s.cached r).badTlb = s.badTlb := rfl
@[simp] theorem State.cached_flights (s : State) (r : Caches × List Nat) : (s.cached r).flights = s.flights := rfl
@[simp] theorem State.cached_keystone (s : State) (r : Caches × List Nat) : (s.cached r).keystone = s.keystone := rfl
@[simp] theorem State.cached_vgroups (s : State) (r : Caches × List Nat) : (s.cached r).vgroups = s.vgroups := rfl
@[simp] theorem State.cached_vcols (s : State) (r : Caches × List Nat) : (s.cached r).vcols = s.vcols := rfl
@[simp] theorem State.cached_vdies (s : State) (r : Caches × List Nat) : (s.cached r).vdies = s.vdies := rfl
@[simp] theorem State.cached_links (s : State) (r : Caches × List Nat) : (s.cached r).links = s.links := rfl
@[simp] theorem State.cached_fw (s : State) (r : Caches × List Nat) : (s.cached r).fw = s.fw := rfl
@[simp] theorem State.cached_cur (s : State) (r : Caches × List Nat) : (s.cached r).cur = s.cur := rfl
@[simp] theorem State.cached_plan (s : State) (r : Caches × List Nat) : (s.cached r).plan = s.plan := rfl
@[simp] theorem State.cached_agenda (s : State) (r : Caches × List Nat) : (s.cached r).agenda = s.agenda := rfl
@[simp] theorem State.cached_turn (s : State) (r : Caches × List Nat) : (s.cached r).turn = s.turn := rfl
@[simp] theorem State.cached_fresh (s : State) (r : Caches × List Nat) : (s.cached r).fresh = s.fresh := rfl
@[simp] theorem State.cached_writes (s : State) (r : Caches × List Nat) : (s.cached r).writes = s.writes := rfl
@[simp] theorem State.cached_hist (s : State) (r : Caches × List Nat) : (s.cached r).hist = s.hist := rfl
@[simp] theorem State.cached_nextArr (s : State) (r : Caches × List Nat) : (s.cached r).nextArr = s.nextArr := rfl
@[simp] theorem State.cached_nextOrder (s : State) (r : Caches × List Nat) : (s.cached r).nextOrder = s.nextOrder := rfl
@[simp] theorem State.cached_nextLaunch (s : State) (r : Caches × List Nat) : (s.cached r).nextLaunch = s.nextLaunch := rfl

/-- Traffic on the links changes the link ends and what is due, and nothing else. -/
def LinksOnly (s t : State) : Prop := t = { s with links := t.links, agenda := t.agenda }

theorem LinksOnly.refl (s : State) : LinksOnly s s := rfl
theorem LinksOnly.trans {s t u : State} (h : LinksOnly s t) (k : LinksOnly t u) : LinksOnly s u := by
  unfold LinksOnly at *; rw [k, h]
theorem LinksOnly.fold {α : Type} (f : State → α → State) (h : ∀ s x, LinksOnly s (f s x)) :
    (l : List α) → (s : State) → LinksOnly s (l.foldl f s)
  | [], s => .refl s
  | x :: l, s => (h s x).trans (LinksOnly.fold f h l (f s x))

theorem State.modLink_linksOnly (s : State) (k : Nat) (f : Link → Link) : LinksOnly s (s.modLink k f) := rfl

theorem State.sendFlit_linksOnly (s : State) (k : Nat) (ms : List Msg) : LinksOnly s (s.sendFlit k ms) := by
  dsimp only [State.sendFlit]; split
  · rfl
  · split <;> rfl

theorem State.idleAck_linksOnly (s : State) (k : Nat) : LinksOnly s (s.idleAck k) := by
  unfold State.idleAck; repeat' split
  all_goals rfl

theorem State.pump_linksOnly (k : Nat) : (n : Nat) → (s : State) → LinksOnly s (State.pump n s k)
  | 0, s => .refl s
  | n + 1, s => by
    dsimp only [State.pump]; split
    · exact s.idleAck_linksOnly k
    · exact (s.idleAck_linksOnly k).trans
        ((State.modLink_linksOnly _ _ _).trans ((State.sendFlit_linksOnly _ _ _).trans (State.pump_linksOnly k n _)))

theorem State.sendOn_linksOnly (s : State) (m : Msg) : LinksOnly s (s.sendOn m) := by
  unfold State.sendOn; split
  · exact .refl s
  · exact (State.modLink_linksOnly _ _ _).trans (State.pump_linksOnly _ _ _)

theorem State.cargo_linksOnly (s : State) (src dst vert data : Nat) : LinksOnly s (s.cargo src dst vert data) := by
  unfold State.cargo; split
  · exact .refl s
  · exact s.sendOn_linksOnly _

theorem State.readLine_linksOnly (s : State) (die home pa : Nat) : LinksOnly s (s.readLine die home pa) := by
  unfold State.readLine; split
  · exact .refl s
  · exact (s.cargo_linksOnly _ _ _ _).trans (State.sendOn_linksOnly _ _)

theorem State.crossPort_linksOnly (s : State) (die pa : Nat) : LinksOnly s (s.crossPort die pa) := by
  dsimp only [State.crossPort]; split
  · exact .refl s
  · exact (s.readLine_linksOnly _ _ _).trans ((State.modLink_linksOnly _ _ _).trans (State.pump_linksOnly _ _ _))

theorem State.hostTouch_linksOnly (s : State) (pa n : Nat) : LinksOnly s (s.hostTouch pa n) := by
  dsimp only [State.hostTouch]; split
  · exact .refl s
  · exact LinksOnly.fold _ (fun s _ => s.crossPort_linksOnly _ _) _ s

theorem State.toKeystone_linksOnly (s : State) (thr : Nat) : LinksOnly s (s.toKeystone thr) :=
  (s.cargo_linksOnly _ _ _ _).trans (State.cargo_linksOnly _ _ _ _ _)

theorem State.portIn_linksOnly (s : State) (k : Nat) : LinksOnly s (s.portIn k) := by
  dsimp only [State.portIn]; split
  · exact .refl s
  · refine LinksOnly.trans ?_ (State.pump_linksOnly _ _ _)
    exact (rfl : { s with links := _, agenda := _ } = _)

theorem State.portOut_linksOnly (s : State) (k pa : Nat) : LinksOnly s (s.portOut k pa) :=
  (State.modLink_linksOnly _ _ _).trans (State.pump_linksOnly _ _ _)

theorem State.hostFlits_linksOnly (s : State) (k pa n : Nat) (w : Bool) : LinksOnly s (s.hostFlits k pa n w) :=
  LinksOnly.fold _ (fun s _ => by
    dsimp only; split
    · exact (s.portIn_linksOnly k).trans (State.cargo_linksOnly _ _ _ _ _)
    · exact (s.portIn_linksOnly k).trans ((State.readLine_linksOnly _ _ _ _).trans (State.portOut_linksOnly _ _ _))) _ s

theorem State.hostBell_linksOnly (s : State) (k : Nat) (die : Option Nat) : LinksOnly s (s.hostBell k die) := by
  unfold State.hostBell; split
  · exact (s.portIn_linksOnly k).trans (State.cargo_linksOnly _ _ _ _ _)
  · exact s.portIn_linksOnly k

theorem State.recallFlits_linksOnly (s : State) (pa n : Nat) : LinksOnly s (s.recallFlits pa n) :=
  LinksOnly.fold _ (fun s x => by
    dsimp only; split
    · exact .refl s
    · exact (s.portIn_linksOnly _).trans ((State.readLine_linksOnly _ _ _ _).trans (State.portOut_linksOnly _ _ _))) _ s

/-- An access to host memory moves flits, and does nothing else. -/
theorem State.hostTransfers_linksOnly (s : State) (v : Via) (pa n : Nat) (w : Bool) : LinksOnly s (s.hostTransfers v pa n w) := by
  refine LinksOnly.fold _ (fun s x => ?_) _ s
  dsimp only [State.hostTransfer]; repeat' split
  all_goals first | exact .refl s | exact s.crossPort_linksOnly _ _


@[simp] theorem State.cargo_threads (s : State) (a b c d : Nat) : (s.cargo a b c d).threads = s.threads := by
  rw [s.cargo_linksOnly a b c d]
@[simp] theorem State.cargo_cores (s : State) (a b c d : Nat) : (s.cargo a b c d).cores = s.cores := by
  rw [s.cargo_linksOnly a b c d]
@[simp] theorem State.cargo_courses (s : State) (a b c d : Nat) : (s.cargo a b c d).courses = s.courses := by
  rw [s.cargo_linksOnly a b c d]
@[simp] theorem State.cargo_dies (s : State) (a b c d : Nat) : (s.cargo a b c d).dies = s.dies := by
  rw [s.cargo_linksOnly a b c d]
@[simp] theorem State.cargo_parts (s : State) (a b c d : Nat) : (s.cargo a b c d).parts = s.parts := by
  rw [s.cargo_linksOnly a b c d]
@[simp] theorem State.cargo_groups (s : State) (a b c d : Nat) : (s.cargo a b c d).groups = s.groups := by
  rw [s.cargo_linksOnly a b c d]
@[simp] theorem State.cargo_launches (s : State) (a b c d : Nat) : (s.cargo a b c d).launches = s.launches := by
  rw [s.cargo_linksOnly a b c d]
@[simp] theorem State.cargo_teams (s : State) (a b c d : Nat) : (s.cargo a b c d).teams = s.teams := by
  rw [s.cargo_linksOnly a b c d]
@[simp] theorem State.cargo_chans (s : State) (a b c d : Nat) : (s.cargo a b c d).chans = s.chans := by
  rw [s.cargo_linksOnly a b c d]
@[simp] theorem State.cargo_barriers (s : State) (a b c d : Nat) : (s.cargo a b c d).barriers = s.barriers := by
  rw [s.cargo_linksOnly a b c d]
@[simp] theorem State.cargo_colls (s : State) (a b c d : Nat) : (s.cargo a b c d).colls = s.colls := by
  rw [s.cargo_linksOnly a b c d]
@[simp] theorem State.cargo_collSeq (s : State) (a b c d : Nat) : (s.cargo a b c d).collSeq = s.collSeq := by
  rw [s.cargo_linksOnly a b c d]
@[simp] theorem State.cargo_suspended (s : State) (a b c d : Nat) : (s.cargo a b c d).suspended = s.suspended := by
  rw [s.cargo_linksOnly a b c d]
@[simp] theorem State.cargo_seqs (s : State) (a b c d : Nat) : (s.cargo a b c d).seqs = s.seqs := by
  rw [s.cargo_linksOnly a b c d]
@[simp] theorem State.cargo_mem (s : State) (a b c d : Nat) : (s.cargo a b c d).mem = s.mem := by
  rw [s.cargo_linksOnly a b c d]
@[simp] theorem State.cargo_badSectors (s : State) (a b c d : Nat) : (s.cargo a b c d).badSectors = s.badSectors := by
  rw [s.cargo_linksOnly a b c d]
@[simp] theorem State.cargo_badWords (s : State) (a b c d : Nat) : (s.cargo a b c d).badWords = s.badWords := by
  rw [s.cargo_linksOnly a b c d]
@[simp] theorem State.cargo_corrSectors (s : State) (a b c d : Nat) : (s.cargo a b c d).corrSectors = s.corrSectors := by
  rw [s.cargo_linksOnly a b c d]
@[simp] theorem State.cargo_badSpad (s : State) (a b c d : Nat) : (s.cargo a b c d).badSpad = s.badSpad := by
  rw [s.cargo_linksOnly a b c d]
@[simp] theorem State.cargo_corrWords (s : State) (a b c d : Nat) : (s.cargo a b c d).corrWords = s.corrWords := by
  rw [s.cargo_linksOnly a b c d]
@[simp] theorem State.cargo_corrSpad (s : State) (a b c d : Nat) : (s.cargo a b c d).corrSpad = s.corrSpad := by
  rw [s.cargo_linksOnly a b c d]
@[simp] theorem State.cargo_badL1 (s : State) (a b c d : Nat) : (s.cargo a b c d).badL1 = s.badL1 := by
  rw [s.cargo_linksOnly a b c d]
@[simp] theorem State.cargo_badL1i (s : State) (a b c d : Nat) : (s.cargo a b c d).badL1i = s.badL1i := by
  rw [s.cargo_linksOnly a b c d]
@[simp] theorem State.cargo_badTlb (s : State) (a b c d : Nat) : (s.cargo a b c d).badTlb = s.badTlb := by
  rw [s.cargo_linksOnly a b c d]
@[simp] theorem State.cargo_caches (s : State) (a b c d : Nat) : (s.cargo a b c d).caches = s.caches := by
  rw [s.cargo_linksOnly a b c d]
@[simp] theorem State.cargo_flights (s : State) (a b c d : Nat) : (s.cargo a b c d).flights = s.flights := by
  rw [s.cargo_linksOnly a b c d]
@[simp] theorem State.cargo_keystone (s : State) (a b c d : Nat) : (s.cargo a b c d).keystone = s.keystone := by
  rw [s.cargo_linksOnly a b c d]
@[simp] theorem State.cargo_vgroups (s : State) (a b c d : Nat) : (s.cargo a b c d).vgroups = s.vgroups := by
  rw [s.cargo_linksOnly a b c d]
@[simp] theorem State.cargo_vcols (s : State) (a b c d : Nat) : (s.cargo a b c d).vcols = s.vcols := by
  rw [s.cargo_linksOnly a b c d]
@[simp] theorem State.cargo_vdies (s : State) (a b c d : Nat) : (s.cargo a b c d).vdies = s.vdies := by
  rw [s.cargo_linksOnly a b c d]
@[simp] theorem State.cargo_fw (s : State) (a b c d : Nat) : (s.cargo a b c d).fw = s.fw := by
  rw [s.cargo_linksOnly a b c d]
@[simp] theorem State.cargo_cur (s : State) (a b c d : Nat) : (s.cargo a b c d).cur = s.cur := by
  rw [s.cargo_linksOnly a b c d]
@[simp] theorem State.cargo_plan (s : State) (a b c d : Nat) : (s.cargo a b c d).plan = s.plan := by
  rw [s.cargo_linksOnly a b c d]
@[simp] theorem State.cargo_turn (s : State) (a b c d : Nat) : (s.cargo a b c d).turn = s.turn := by
  rw [s.cargo_linksOnly a b c d]
@[simp] theorem State.cargo_fresh (s : State) (a b c d : Nat) : (s.cargo a b c d).fresh = s.fresh := by
  rw [s.cargo_linksOnly a b c d]
@[simp] theorem State.cargo_writes (s : State) (a b c d : Nat) : (s.cargo a b c d).writes = s.writes := by
  rw [s.cargo_linksOnly a b c d]
@[simp] theorem State.cargo_hist (s : State) (a b c d : Nat) : (s.cargo a b c d).hist = s.hist := by
  rw [s.cargo_linksOnly a b c d]
@[simp] theorem State.cargo_nextArr (s : State) (a b c d : Nat) : (s.cargo a b c d).nextArr = s.nextArr := by
  rw [s.cargo_linksOnly a b c d]
@[simp] theorem State.cargo_nextOrder (s : State) (a b c d : Nat) : (s.cargo a b c d).nextOrder = s.nextOrder := by
  rw [s.cargo_linksOnly a b c d]
@[simp] theorem State.cargo_nextLaunch (s : State) (a b c d : Nat) : (s.cargo a b c d).nextLaunch = s.nextLaunch := by
  rw [s.cargo_linksOnly a b c d]
@[simp] theorem State.hostTransfers_threads (s : State) (v : Via) (pa n : Nat) (w : Bool) : (s.hostTransfers v pa n w).threads = s.threads := by
  rw [s.hostTransfers_linksOnly v pa n w]
@[simp] theorem State.hostTransfers_cores (s : State) (v : Via) (pa n : Nat) (w : Bool) : (s.hostTransfers v pa n w).cores = s.cores := by
  rw [s.hostTransfers_linksOnly v pa n w]
@[simp] theorem State.hostTransfers_courses (s : State) (v : Via) (pa n : Nat) (w : Bool) : (s.hostTransfers v pa n w).courses = s.courses := by
  rw [s.hostTransfers_linksOnly v pa n w]
@[simp] theorem State.hostTransfers_dies (s : State) (v : Via) (pa n : Nat) (w : Bool) : (s.hostTransfers v pa n w).dies = s.dies := by
  rw [s.hostTransfers_linksOnly v pa n w]
@[simp] theorem State.hostTransfers_parts (s : State) (v : Via) (pa n : Nat) (w : Bool) : (s.hostTransfers v pa n w).parts = s.parts := by
  rw [s.hostTransfers_linksOnly v pa n w]
@[simp] theorem State.hostTransfers_groups (s : State) (v : Via) (pa n : Nat) (w : Bool) : (s.hostTransfers v pa n w).groups = s.groups := by
  rw [s.hostTransfers_linksOnly v pa n w]
@[simp] theorem State.hostTransfers_launches (s : State) (v : Via) (pa n : Nat) (w : Bool) : (s.hostTransfers v pa n w).launches = s.launches := by
  rw [s.hostTransfers_linksOnly v pa n w]
@[simp] theorem State.hostTransfers_teams (s : State) (v : Via) (pa n : Nat) (w : Bool) : (s.hostTransfers v pa n w).teams = s.teams := by
  rw [s.hostTransfers_linksOnly v pa n w]
@[simp] theorem State.hostTransfers_chans (s : State) (v : Via) (pa n : Nat) (w : Bool) : (s.hostTransfers v pa n w).chans = s.chans := by
  rw [s.hostTransfers_linksOnly v pa n w]
@[simp] theorem State.hostTransfers_barriers (s : State) (v : Via) (pa n : Nat) (w : Bool) : (s.hostTransfers v pa n w).barriers = s.barriers := by
  rw [s.hostTransfers_linksOnly v pa n w]
@[simp] theorem State.hostTransfers_colls (s : State) (v : Via) (pa n : Nat) (w : Bool) : (s.hostTransfers v pa n w).colls = s.colls := by
  rw [s.hostTransfers_linksOnly v pa n w]
@[simp] theorem State.hostTransfers_collSeq (s : State) (v : Via) (pa n : Nat) (w : Bool) : (s.hostTransfers v pa n w).collSeq = s.collSeq := by
  rw [s.hostTransfers_linksOnly v pa n w]
@[simp] theorem State.hostTransfers_suspended (s : State) (v : Via) (pa n : Nat) (w : Bool) : (s.hostTransfers v pa n w).suspended = s.suspended := by
  rw [s.hostTransfers_linksOnly v pa n w]
@[simp] theorem State.hostTransfers_seqs (s : State) (v : Via) (pa n : Nat) (w : Bool) : (s.hostTransfers v pa n w).seqs = s.seqs := by
  rw [s.hostTransfers_linksOnly v pa n w]
@[simp] theorem State.hostTransfers_mem (s : State) (v : Via) (pa n : Nat) (w : Bool) : (s.hostTransfers v pa n w).mem = s.mem := by
  rw [s.hostTransfers_linksOnly v pa n w]
@[simp] theorem State.hostTransfers_badSectors (s : State) (v : Via) (pa n : Nat) (w : Bool) : (s.hostTransfers v pa n w).badSectors = s.badSectors := by
  rw [s.hostTransfers_linksOnly v pa n w]
@[simp] theorem State.hostTransfers_badWords (s : State) (v : Via) (pa n : Nat) (w : Bool) : (s.hostTransfers v pa n w).badWords = s.badWords := by
  rw [s.hostTransfers_linksOnly v pa n w]
@[simp] theorem State.hostTransfers_corrSectors (s : State) (v : Via) (pa n : Nat) (w : Bool) : (s.hostTransfers v pa n w).corrSectors = s.corrSectors := by
  rw [s.hostTransfers_linksOnly v pa n w]
@[simp] theorem State.hostTransfers_badSpad (s : State) (v : Via) (pa n : Nat) (w : Bool) : (s.hostTransfers v pa n w).badSpad = s.badSpad := by
  rw [s.hostTransfers_linksOnly v pa n w]
@[simp] theorem State.hostTransfers_corrWords (s : State) (v : Via) (pa n : Nat) (w : Bool) : (s.hostTransfers v pa n w).corrWords = s.corrWords := by
  rw [s.hostTransfers_linksOnly v pa n w]
@[simp] theorem State.hostTransfers_corrSpad (s : State) (v : Via) (pa n : Nat) (w : Bool) : (s.hostTransfers v pa n w).corrSpad = s.corrSpad := by
  rw [s.hostTransfers_linksOnly v pa n w]
@[simp] theorem State.hostTransfers_badL1 (s : State) (v : Via) (pa n : Nat) (w : Bool) : (s.hostTransfers v pa n w).badL1 = s.badL1 := by
  rw [s.hostTransfers_linksOnly v pa n w]
@[simp] theorem State.hostTransfers_badL1i (s : State) (v : Via) (pa n : Nat) (w : Bool) : (s.hostTransfers v pa n w).badL1i = s.badL1i := by
  rw [s.hostTransfers_linksOnly v pa n w]
@[simp] theorem State.hostTransfers_badTlb (s : State) (v : Via) (pa n : Nat) (w : Bool) : (s.hostTransfers v pa n w).badTlb = s.badTlb := by
  rw [s.hostTransfers_linksOnly v pa n w]
@[simp] theorem State.hostTransfers_caches (s : State) (v : Via) (pa n : Nat) (w : Bool) : (s.hostTransfers v pa n w).caches = s.caches := by
  rw [s.hostTransfers_linksOnly v pa n w]
@[simp] theorem State.hostTransfers_flights (s : State) (v : Via) (pa n : Nat) (w : Bool) : (s.hostTransfers v pa n w).flights = s.flights := by
  rw [s.hostTransfers_linksOnly v pa n w]
@[simp] theorem State.hostTransfers_keystone (s : State) (v : Via) (pa n : Nat) (w : Bool) : (s.hostTransfers v pa n w).keystone = s.keystone := by
  rw [s.hostTransfers_linksOnly v pa n w]
@[simp] theorem State.hostTransfers_vgroups (s : State) (v : Via) (pa n : Nat) (w : Bool) : (s.hostTransfers v pa n w).vgroups = s.vgroups := by
  rw [s.hostTransfers_linksOnly v pa n w]
@[simp] theorem State.hostTransfers_vcols (s : State) (v : Via) (pa n : Nat) (w : Bool) : (s.hostTransfers v pa n w).vcols = s.vcols := by
  rw [s.hostTransfers_linksOnly v pa n w]
@[simp] theorem State.hostTransfers_vdies (s : State) (v : Via) (pa n : Nat) (w : Bool) : (s.hostTransfers v pa n w).vdies = s.vdies := by
  rw [s.hostTransfers_linksOnly v pa n w]
@[simp] theorem State.hostTransfers_fw (s : State) (v : Via) (pa n : Nat) (w : Bool) : (s.hostTransfers v pa n w).fw = s.fw := by
  rw [s.hostTransfers_linksOnly v pa n w]
@[simp] theorem State.hostTransfers_cur (s : State) (v : Via) (pa n : Nat) (w : Bool) : (s.hostTransfers v pa n w).cur = s.cur := by
  rw [s.hostTransfers_linksOnly v pa n w]
@[simp] theorem State.hostTransfers_plan (s : State) (v : Via) (pa n : Nat) (w : Bool) : (s.hostTransfers v pa n w).plan = s.plan := by
  rw [s.hostTransfers_linksOnly v pa n w]
@[simp] theorem State.hostTransfers_turn (s : State) (v : Via) (pa n : Nat) (w : Bool) : (s.hostTransfers v pa n w).turn = s.turn := by
  rw [s.hostTransfers_linksOnly v pa n w]
@[simp] theorem State.hostTransfers_fresh (s : State) (v : Via) (pa n : Nat) (w : Bool) : (s.hostTransfers v pa n w).fresh = s.fresh := by
  rw [s.hostTransfers_linksOnly v pa n w]
@[simp] theorem State.hostTransfers_writes (s : State) (v : Via) (pa n : Nat) (w : Bool) : (s.hostTransfers v pa n w).writes = s.writes := by
  rw [s.hostTransfers_linksOnly v pa n w]
@[simp] theorem State.hostTransfers_hist (s : State) (v : Via) (pa n : Nat) (w : Bool) : (s.hostTransfers v pa n w).hist = s.hist := by
  rw [s.hostTransfers_linksOnly v pa n w]
@[simp] theorem State.hostTransfers_nextArr (s : State) (v : Via) (pa n : Nat) (w : Bool) : (s.hostTransfers v pa n w).nextArr = s.nextArr := by
  rw [s.hostTransfers_linksOnly v pa n w]
@[simp] theorem State.hostTransfers_nextOrder (s : State) (v : Via) (pa n : Nat) (w : Bool) : (s.hostTransfers v pa n w).nextOrder = s.nextOrder := by
  rw [s.hostTransfers_linksOnly v pa n w]
@[simp] theorem State.hostTransfers_nextLaunch (s : State) (v : Via) (pa n : Nat) (w : Bool) : (s.hostTransfers v pa n w).nextLaunch = s.nextLaunch := by
  rw [s.hostTransfers_linksOnly v pa n w]
@[simp] theorem State.cacheRead_threads (s : State) (v : Via) (l : Loc) (n : Nat) : (s.cacheRead v l n).threads = s.threads := by
  cases l <;> simp [State.cacheRead]
@[simp] theorem State.cacheRead_cores (s : State) (v : Via) (l : Loc) (n : Nat) : (s.cacheRead v l n).cores = s.cores := by
  cases l <;> simp [State.cacheRead]
@[simp] theorem State.cacheRead_courses (s : State) (v : Via) (l : Loc) (n : Nat) : (s.cacheRead v l n).courses = s.courses := by
  cases l <;> simp [State.cacheRead]
@[simp] theorem State.cacheRead_dies (s : State) (v : Via) (l : Loc) (n : Nat) : (s.cacheRead v l n).dies = s.dies := by
  cases l <;> simp [State.cacheRead]
@[simp] theorem State.cacheRead_parts (s : State) (v : Via) (l : Loc) (n : Nat) : (s.cacheRead v l n).parts = s.parts := by
  cases l <;> simp [State.cacheRead]
@[simp] theorem State.cacheRead_groups (s : State) (v : Via) (l : Loc) (n : Nat) : (s.cacheRead v l n).groups = s.groups := by
  cases l <;> simp [State.cacheRead]
@[simp] theorem State.cacheRead_launches (s : State) (v : Via) (l : Loc) (n : Nat) : (s.cacheRead v l n).launches = s.launches := by
  cases l <;> simp [State.cacheRead]
@[simp] theorem State.cacheRead_teams (s : State) (v : Via) (l : Loc) (n : Nat) : (s.cacheRead v l n).teams = s.teams := by
  cases l <;> simp [State.cacheRead]
@[simp] theorem State.cacheRead_chans (s : State) (v : Via) (l : Loc) (n : Nat) : (s.cacheRead v l n).chans = s.chans := by
  cases l <;> simp [State.cacheRead]
@[simp] theorem State.cacheRead_barriers (s : State) (v : Via) (l : Loc) (n : Nat) : (s.cacheRead v l n).barriers = s.barriers := by
  cases l <;> simp [State.cacheRead]
@[simp] theorem State.cacheRead_colls (s : State) (v : Via) (l : Loc) (n : Nat) : (s.cacheRead v l n).colls = s.colls := by
  cases l <;> simp [State.cacheRead]
@[simp] theorem State.cacheRead_collSeq (s : State) (v : Via) (l : Loc) (n : Nat) : (s.cacheRead v l n).collSeq = s.collSeq := by
  cases l <;> simp [State.cacheRead]
@[simp] theorem State.cacheRead_suspended (s : State) (v : Via) (l : Loc) (n : Nat) : (s.cacheRead v l n).suspended = s.suspended := by
  cases l <;> simp [State.cacheRead]
@[simp] theorem State.cacheRead_seqs (s : State) (v : Via) (l : Loc) (n : Nat) : (s.cacheRead v l n).seqs = s.seqs := by
  cases l <;> simp [State.cacheRead]
@[simp] theorem State.cacheRead_mem (s : State) (v : Via) (l : Loc) (n : Nat) : (s.cacheRead v l n).mem = s.mem := by
  cases l <;> simp [State.cacheRead]
@[simp] theorem State.cacheRead_badSpad (s : State) (v : Via) (l : Loc) (n : Nat) : (s.cacheRead v l n).badSpad = s.badSpad := by
  cases l <;> simp [State.cacheRead]
@[simp] theorem State.cacheRead_corrSpad (s : State) (v : Via) (l : Loc) (n : Nat) : (s.cacheRead v l n).corrSpad = s.corrSpad := by
  cases l <;> simp [State.cacheRead]
@[simp] theorem State.cacheRead_badL1i (s : State) (v : Via) (l : Loc) (n : Nat) : (s.cacheRead v l n).badL1i = s.badL1i := by
  cases l <;> simp [State.cacheRead]
@[simp] theorem State.cacheRead_badTlb (s : State) (v : Via) (l : Loc) (n : Nat) : (s.cacheRead v l n).badTlb = s.badTlb := by
  cases l <;> simp [State.cacheRead]
@[simp] theorem State.cacheRead_flights (s : State) (v : Via) (l : Loc) (n : Nat) : (s.cacheRead v l n).flights = s.flights := by
  cases l <;> simp [State.cacheRead]
@[simp] theorem State.cacheRead_keystone (s : State) (v : Via) (l : Loc) (n : Nat) : (s.cacheRead v l n).keystone = s.keystone := by
  cases l <;> simp [State.cacheRead]
@[simp] theorem State.cacheRead_vgroups (s : State) (v : Via) (l : Loc) (n : Nat) : (s.cacheRead v l n).vgroups = s.vgroups := by
  cases l <;> simp [State.cacheRead]
@[simp] theorem State.cacheRead_vcols (s : State) (v : Via) (l : Loc) (n : Nat) : (s.cacheRead v l n).vcols = s.vcols := by
  cases l <;> simp [State.cacheRead]
@[simp] theorem State.cacheRead_vdies (s : State) (v : Via) (l : Loc) (n : Nat) : (s.cacheRead v l n).vdies = s.vdies := by
  cases l <;> simp [State.cacheRead]
@[simp] theorem State.cacheRead_fw (s : State) (v : Via) (l : Loc) (n : Nat) : (s.cacheRead v l n).fw = s.fw := by
  cases l <;> simp [State.cacheRead]
@[simp] theorem State.cacheRead_cur (s : State) (v : Via) (l : Loc) (n : Nat) : (s.cacheRead v l n).cur = s.cur := by
  cases l <;> simp [State.cacheRead]
@[simp] theorem State.cacheRead_plan (s : State) (v : Via) (l : Loc) (n : Nat) : (s.cacheRead v l n).plan = s.plan := by
  cases l <;> simp [State.cacheRead]
@[simp] theorem State.cacheRead_turn (s : State) (v : Via) (l : Loc) (n : Nat) : (s.cacheRead v l n).turn = s.turn := by
  cases l <;> simp [State.cacheRead]
@[simp] theorem State.cacheRead_fresh (s : State) (v : Via) (l : Loc) (n : Nat) : (s.cacheRead v l n).fresh = s.fresh := by
  cases l <;> simp [State.cacheRead]
@[simp] theorem State.cacheRead_writes (s : State) (v : Via) (l : Loc) (n : Nat) : (s.cacheRead v l n).writes = s.writes := by
  cases l <;> simp [State.cacheRead]
@[simp] theorem State.cacheRead_hist (s : State) (v : Via) (l : Loc) (n : Nat) : (s.cacheRead v l n).hist = s.hist := by
  cases l <;> simp [State.cacheRead]
@[simp] theorem State.cacheRead_nextArr (s : State) (v : Via) (l : Loc) (n : Nat) : (s.cacheRead v l n).nextArr = s.nextArr := by
  cases l <;> simp [State.cacheRead]
@[simp] theorem State.cacheRead_nextOrder (s : State) (v : Via) (l : Loc) (n : Nat) : (s.cacheRead v l n).nextOrder = s.nextOrder := by
  cases l <;> simp [State.cacheRead]
@[simp] theorem State.cacheRead_nextLaunch (s : State) (v : Via) (l : Loc) (n : Nat) : (s.cacheRead v l n).nextLaunch = s.nextLaunch := by
  cases l <;> simp [State.cacheRead]
@[simp] theorem State.cacheRead_ctx (s : State) (v : Via) (l : Loc) (n : Nat) (k : Nat) : (s.cacheRead v l n).ctx k = s.ctx k := by
  simp [State.ctx]
@[simp] theorem State.cacheRead_core (s : State) (v : Via) (l : Loc) (n : Nat) (k : Nat) : (s.cacheRead v l n).core k = s.core k := by
  simp [State.core]
@[simp] theorem State.cacheRead_course (s : State) (v : Via) (l : Loc) (n : Nat) (k : Nat) : (s.cacheRead v l n).course k = s.course k := by
  simp [State.course]
@[simp] theorem State.cacheRead_die (s : State) (v : Via) (l : Loc) (n : Nat) (k : Nat) : (s.cacheRead v l n).die k = s.die k := by
  simp [State.die]
@[simp] theorem State.cacheRead_part (s : State) (v : Via) (l : Loc) (n : Nat) (k : Nat) : (s.cacheRead v l n).part k = s.part k := by
  simp [State.part]
@[simp] theorem State.cacheRead_group (s : State) (v : Via) (l : Loc) (n : Nat) (k : Nat) : (s.cacheRead v l n).group k = s.group k := by
  simp [State.group]
@[simp] theorem State.cacheRead_launch (s : State) (v : Via) (l : Loc) (n : Nat) (k : Nat) : (s.cacheRead v l n).launch k = s.launch k := by
  simp [State.launch]
@[simp] theorem State.cacheRead_me (s : State) (v : Via) (l : Loc) (n : Nat) : (s.cacheRead v l n).me = s.me := by
  simp [State.me]
@[simp] theorem State.cacheWrite_threads (s : State) (v : Via) (l : Loc) (n : Nat) : (s.cacheWrite v l n).threads = s.threads := by
  cases l <;> simp [State.cacheWrite]
@[simp] theorem State.cacheWrite_cores (s : State) (v : Via) (l : Loc) (n : Nat) : (s.cacheWrite v l n).cores = s.cores := by
  cases l <;> simp [State.cacheWrite]
@[simp] theorem State.cacheWrite_courses (s : State) (v : Via) (l : Loc) (n : Nat) : (s.cacheWrite v l n).courses = s.courses := by
  cases l <;> simp [State.cacheWrite]
@[simp] theorem State.cacheWrite_dies (s : State) (v : Via) (l : Loc) (n : Nat) : (s.cacheWrite v l n).dies = s.dies := by
  cases l <;> simp [State.cacheWrite]
@[simp] theorem State.cacheWrite_parts (s : State) (v : Via) (l : Loc) (n : Nat) : (s.cacheWrite v l n).parts = s.parts := by
  cases l <;> simp [State.cacheWrite]
@[simp] theorem State.cacheWrite_groups (s : State) (v : Via) (l : Loc) (n : Nat) : (s.cacheWrite v l n).groups = s.groups := by
  cases l <;> simp [State.cacheWrite]
@[simp] theorem State.cacheWrite_launches (s : State) (v : Via) (l : Loc) (n : Nat) : (s.cacheWrite v l n).launches = s.launches := by
  cases l <;> simp [State.cacheWrite]
@[simp] theorem State.cacheWrite_teams (s : State) (v : Via) (l : Loc) (n : Nat) : (s.cacheWrite v l n).teams = s.teams := by
  cases l <;> simp [State.cacheWrite]
@[simp] theorem State.cacheWrite_chans (s : State) (v : Via) (l : Loc) (n : Nat) : (s.cacheWrite v l n).chans = s.chans := by
  cases l <;> simp [State.cacheWrite]
@[simp] theorem State.cacheWrite_barriers (s : State) (v : Via) (l : Loc) (n : Nat) : (s.cacheWrite v l n).barriers = s.barriers := by
  cases l <;> simp [State.cacheWrite]
@[simp] theorem State.cacheWrite_colls (s : State) (v : Via) (l : Loc) (n : Nat) : (s.cacheWrite v l n).colls = s.colls := by
  cases l <;> simp [State.cacheWrite]
@[simp] theorem State.cacheWrite_collSeq (s : State) (v : Via) (l : Loc) (n : Nat) : (s.cacheWrite v l n).collSeq = s.collSeq := by
  cases l <;> simp [State.cacheWrite]
@[simp] theorem State.cacheWrite_suspended (s : State) (v : Via) (l : Loc) (n : Nat) : (s.cacheWrite v l n).suspended = s.suspended := by
  cases l <;> simp [State.cacheWrite]
@[simp] theorem State.cacheWrite_seqs (s : State) (v : Via) (l : Loc) (n : Nat) : (s.cacheWrite v l n).seqs = s.seqs := by
  cases l <;> simp [State.cacheWrite]
@[simp] theorem State.cacheWrite_mem (s : State) (v : Via) (l : Loc) (n : Nat) : (s.cacheWrite v l n).mem = s.mem := by
  cases l <;> simp [State.cacheWrite]
@[simp] theorem State.cacheWrite_badSpad (s : State) (v : Via) (l : Loc) (n : Nat) : (s.cacheWrite v l n).badSpad = s.badSpad := by
  cases l <;> simp [State.cacheWrite]
@[simp] theorem State.cacheWrite_corrSpad (s : State) (v : Via) (l : Loc) (n : Nat) : (s.cacheWrite v l n).corrSpad = s.corrSpad := by
  cases l <;> simp [State.cacheWrite]
@[simp] theorem State.cacheWrite_badL1i (s : State) (v : Via) (l : Loc) (n : Nat) : (s.cacheWrite v l n).badL1i = s.badL1i := by
  cases l <;> simp [State.cacheWrite]
@[simp] theorem State.cacheWrite_badTlb (s : State) (v : Via) (l : Loc) (n : Nat) : (s.cacheWrite v l n).badTlb = s.badTlb := by
  cases l <;> simp [State.cacheWrite]
@[simp] theorem State.cacheWrite_flights (s : State) (v : Via) (l : Loc) (n : Nat) : (s.cacheWrite v l n).flights = s.flights := by
  cases l <;> simp [State.cacheWrite]
@[simp] theorem State.cacheWrite_keystone (s : State) (v : Via) (l : Loc) (n : Nat) : (s.cacheWrite v l n).keystone = s.keystone := by
  cases l <;> simp [State.cacheWrite]
@[simp] theorem State.cacheWrite_vgroups (s : State) (v : Via) (l : Loc) (n : Nat) : (s.cacheWrite v l n).vgroups = s.vgroups := by
  cases l <;> simp [State.cacheWrite]
@[simp] theorem State.cacheWrite_vcols (s : State) (v : Via) (l : Loc) (n : Nat) : (s.cacheWrite v l n).vcols = s.vcols := by
  cases l <;> simp [State.cacheWrite]
@[simp] theorem State.cacheWrite_vdies (s : State) (v : Via) (l : Loc) (n : Nat) : (s.cacheWrite v l n).vdies = s.vdies := by
  cases l <;> simp [State.cacheWrite]
@[simp] theorem State.cacheWrite_fw (s : State) (v : Via) (l : Loc) (n : Nat) : (s.cacheWrite v l n).fw = s.fw := by
  cases l <;> simp [State.cacheWrite]
@[simp] theorem State.cacheWrite_cur (s : State) (v : Via) (l : Loc) (n : Nat) : (s.cacheWrite v l n).cur = s.cur := by
  cases l <;> simp [State.cacheWrite]
@[simp] theorem State.cacheWrite_plan (s : State) (v : Via) (l : Loc) (n : Nat) : (s.cacheWrite v l n).plan = s.plan := by
  cases l <;> simp [State.cacheWrite]
@[simp] theorem State.cacheWrite_turn (s : State) (v : Via) (l : Loc) (n : Nat) : (s.cacheWrite v l n).turn = s.turn := by
  cases l <;> simp [State.cacheWrite]
@[simp] theorem State.cacheWrite_fresh (s : State) (v : Via) (l : Loc) (n : Nat) : (s.cacheWrite v l n).fresh = s.fresh := by
  cases l <;> simp [State.cacheWrite]
@[simp] theorem State.cacheWrite_writes (s : State) (v : Via) (l : Loc) (n : Nat) : (s.cacheWrite v l n).writes = s.writes := by
  cases l <;> simp [State.cacheWrite]
@[simp] theorem State.cacheWrite_hist (s : State) (v : Via) (l : Loc) (n : Nat) : (s.cacheWrite v l n).hist = s.hist := by
  cases l <;> simp [State.cacheWrite]
@[simp] theorem State.cacheWrite_nextArr (s : State) (v : Via) (l : Loc) (n : Nat) : (s.cacheWrite v l n).nextArr = s.nextArr := by
  cases l <;> simp [State.cacheWrite]
@[simp] theorem State.cacheWrite_nextOrder (s : State) (v : Via) (l : Loc) (n : Nat) : (s.cacheWrite v l n).nextOrder = s.nextOrder := by
  cases l <;> simp [State.cacheWrite]
@[simp] theorem State.cacheWrite_nextLaunch (s : State) (v : Via) (l : Loc) (n : Nat) : (s.cacheWrite v l n).nextLaunch = s.nextLaunch := by
  cases l <;> simp [State.cacheWrite]
@[simp] theorem State.cacheWrite_ctx (s : State) (v : Via) (l : Loc) (n : Nat) (k : Nat) : (s.cacheWrite v l n).ctx k = s.ctx k := by
  simp [State.ctx]
@[simp] theorem State.cacheWrite_core (s : State) (v : Via) (l : Loc) (n : Nat) (k : Nat) : (s.cacheWrite v l n).core k = s.core k := by
  simp [State.core]
@[simp] theorem State.cacheWrite_course (s : State) (v : Via) (l : Loc) (n : Nat) (k : Nat) : (s.cacheWrite v l n).course k = s.course k := by
  simp [State.course]
@[simp] theorem State.cacheWrite_die (s : State) (v : Via) (l : Loc) (n : Nat) (k : Nat) : (s.cacheWrite v l n).die k = s.die k := by
  simp [State.die]
@[simp] theorem State.cacheWrite_part (s : State) (v : Via) (l : Loc) (n : Nat) (k : Nat) : (s.cacheWrite v l n).part k = s.part k := by
  simp [State.part]
@[simp] theorem State.cacheWrite_group (s : State) (v : Via) (l : Loc) (n : Nat) (k : Nat) : (s.cacheWrite v l n).group k = s.group k := by
  simp [State.group]
@[simp] theorem State.cacheWrite_launch (s : State) (v : Via) (l : Loc) (n : Nat) (k : Nat) : (s.cacheWrite v l n).launch k = s.launch k := by
  simp [State.launch]
@[simp] theorem State.cacheWrite_me (s : State) (v : Via) (l : Loc) (n : Nat) : (s.cacheWrite v l n).me = s.me := by
  simp [State.me]

end Sys2Proof.Machine
end

