-- ==== Sys2Proof/Laws/Effects.lean ====
section
/-! SUPPORT. What completing an instruction and taking a trap can do, said once. -/

namespace Sys2Proof.Machine

/-! ## Register files -/

@[simp] theorem vget_vset_self {α : Type} {n : Nat} (d : α) (v : Vector α n) (x : α) {i : Nat} (h : i < n) :
    vget d (vset v i x) i = x := by
  simp [vget, vset, Vector.getD, h]

theorem vget_vset_ne {α : Type} {n : Nat} (d : α) (v : Vector α n) (x : α) {i j : Nat} (h : j ≠ i) :
    vget d (vset v i x) j = vget d v j := by
  simp only [vget, vset, Vector.getD, Vector.toArray_setIfInBounds, Array.getD_eq_getD_getElem?,
    Array.getElem?_setIfInBounds_ne (Ne.symm h)]

/-! ## Sources and destinations -/

/-- Reading general registers changes nothing. -/
theorem State.consume_general (s : State) (k : Nat) (cs : List (BitVec 5)) (h : ∀ c ∈ cs, c.toNat < 16) : s.consume k cs = s := by
  have key : ∀ l : List (BitVec 5), (∀ c ∈ l, c.toNat < 16) → l.foldl (fun s c => s.consume1 k c) s = s := by
    intro l
    induction l with
    | nil => intro _; rfl
    | cons c l ih =>
      intro hl
      have h1 : s.consume1 k c = s := by simp [State.consume1, State.consumeAt, hl c (by simp)]
      simpa [h1] using ih fun x hx => hl x (by simp [hx])
  exact key _ fun c hc => h c (List.mem_eraseDups.1 hc)

/-- A general destination takes the value and is set full; register 0 discards it. -/
theorem State.dest_general (s : State) (k : Nat) (c : BitVec 5) (v : Word) (h : c.toNat < 16) :
    s.dest k c v = s.modCtx k fun x => x.setG c.toNat v := by
  simp [State.dest, h]

/-- A window destination takes the value 8 cycles later (R24). -/
theorem State.dest_window (s : State) (k : Nat) (c : BitVec 5) (v : Word) (h : 16 ≤ c.toNat ∧ c.toNat < 24) :
    s.dest k c v = s.winWrite k c (some v) true := by
  simp [State.dest, h.2, Nat.not_lt.2 h.1]

/-- cout pushes (R26). -/
theorem State.dest_cout (s : State) (k : Nat) (v : Word) : s.dest k 25 v = s.pushItem k (.val v) := rfl

@[simp] theorem Ctx.setG_zero (c : Ctx) (v : Word) : c.setG 0 v = c := rfl

/-- The register written reads as written. -/
theorem Ctx.gpr_setG (c : Ctx) {i : Nat} (v : Word) (h : 0 < i ∧ i < 16) : (c.setG i v).gpr i = v := by
  have h0 : i ≠ 0 := by omega
  simp [Ctx.gpr, Ctx.setG, h0, h.2]

/-- Every other general register reads as before. -/
theorem Ctx.gpr_setG_ne (c : Ctx) {i j : Nat} (v : Word) (h : j ≠ i) : (c.setG i v).gpr j = c.gpr j := by
  unfold Ctx.setG; split
  · rfl
  · simp only [Ctx.gpr, vget_vset_ne 0 c.g v h]

/-! ## Completing an instruction -/

/-- An instruction of general registers changes nothing but the running thread's context. -/
theorem finish_general (s : State) (cs : List (BitVec 5)) (d : BitVec 5) (v : Word) (hs : ∀ c ∈ cs, c.toNat < 16)
    (hd : d.toNat < 16) : finish s cs d v = (s.modMe fun c => c.setG d.toNat v).modMe Ctx.advance := by
  rw [finish, s.consume_general _ cs hs, s.dest_general _ d v hd]; rfl

theorem finishNo_general (s : State) (cs : List (BitVec 5)) (hs : ∀ c ∈ cs, c.toNat < 16) :
    finishNo s cs = s.modMe Ctx.advance := by
  rw [finishNo, s.consume_general _ cs hs]; rfl

/-- In a handler pc advances by the length alone (R282). -/
theorem Ctx.advance_handler (c : Ctx) (h : stIh c.status = true) : c.advance = { c with pc := c.pc + c.len } := by
  simp [Ctx.advance, h]

/-- With no loop active pc advances by the length alone (R72). -/
theorem Ctx.advance_noLoop (c : Ctx) (h0 : (vget LoopReg.zero c.l 0).act = false) (h1 : (vget LoopReg.zero c.l 1).act = false) :
    c.advance = { c with pc := c.pc + c.len } := by
  simp [Ctx.advance, Ctx.loopOrder, h0, h1, endTest]

/-! ## Taking a trap -/

/-- Everything that trap entry can do: the thread enters a handler, or it ends and is reported (R280, R281). -/
theorem State.trapEntry_cases (s : State) (k cls : Nat) (info addr : Word) (epc : BitVec 57) (eng : Bool) :
    (∃ user, user = userHandles (s.ctx k) (s.part (s.ctx k).part) cls ∧
      s.trapEntry k cls info addr epc eng =
        s.setCtx k ((s.ctx k).enter (s.part (s.ctx k).part) user cls info addr epc eng (s.core (coreOf k)).cycle)) ∨
    (userHandles (s.ctx k) (s.part (s.ctx k).part) cls = false ∧ s.trapEntry k cls info addr epc eng = s.fatal k cls) := by
  simp only [State.trapEntry]; split
  · next h => right; simp_all
  · left; exact ⟨_, rfl, rfl⟩

/-- A handler runs at its level with status.ih set, at its vector. -/
theorem Ctx.enter_status (c : Ctx) (p : Part) (user : Bool) (cls : Nat) (info addr : Word) (epc : BitVec 57) (eng : Bool) (n : Nat) :
    (c.enter p user cls info addr epc eng n).pc = bits (if user then c.uvec else p.svec) 0 57 ∧
    (c.enter p user cls info addr epc eng n).status = setPl (setIh c.status true) (if user then 0 else 1) := ⟨rfl, rfl⟩

/-- Entry leaves every general register, extension register, pointer and policy alone. -/
theorem Ctx.enter_frame (c : Ctx) (p : Part) (user : Bool) (cls : Nat) (info addr : Word) (epc : BitVec 57) (eng : Bool) (n : Nat) :
    let d := c.enter p user cls info addr epc eng n
    d.g = c.g ∧ d.gFull = c.gFull ∧ d.e = c.e ∧ d.q = c.q ∧ d.l = c.l ∧ d.p = c.p ∧ d.vl = c.vl ∧ d.vs = c.vs ∧ d.t = c.t :=
  ⟨rfl, rfl, rfl, rfl, rfl, rfl, rfl, rfl, rfl⟩

end Sys2Proof.Machine
end

