-- ==== Sys2Proof/Laws/Issue.lean ====
section
/-! SUPPORT. What issuing an instruction can do, said once: steps 3 to 7 of R80 through `MayIssue` and `State.issued`. -/

namespace Sys2Proof.Machine

/-! ## The state at step 7 -/

@[simp] theorem State.issued_cur (s : State) (half : Bool) : (s.issued half).cur = s.cur := rfl

theorem State.me_issued (s : State) (half : Bool) :
    (s.issued half).me = { s.me with irHalf := half, irPc := s.me.pc, issuedAt := (s.core (coreOf s.cur)).cycle, wd := s.me.wd + 1 } := by
  simp [State.issued, State.stamp]

theorem State.ctx_issued_cur (s : State) (half : Bool) :
    (s.issued half).ctx s.cur = { s.ctx s.cur with
      irHalf := half, irPc := (s.ctx s.cur).pc, issuedAt := (s.core (coreOf s.cur)).cycle, wd := (s.ctx s.cur).wd + 1 } :=
  s.me_issued half

theorem State.ctx_issued_ne (s : State) (half : Bool) {k : Nat} (h : k ≠ s.cur) : (s.issued half).ctx k = s.ctx k :=
  (State.ctx_modMe_ne (s.stamp half) _ h).trans (State.ctx_modMe_ne s _ h)

/-- Issuing writes nothing but the running thread's context. -/
theorem State.issued_only (s : State) (half : Bool) : OnlyThread s (s.issued half) s.cur :=
  ⟨rfl, fun _ h => s.ctx_issued_ne half h⟩

@[simp] theorem State.core_issued (s : State) (half : Bool) (k : Nat) : (s.issued half).core k = s.core k := rfl
@[simp] theorem State.course_issued (s : State) (half : Bool) (k : Nat) : (s.issued half).course k = s.course k := rfl
@[simp] theorem State.die_issued (s : State) (half : Bool) (k : Nat) : (s.issued half).die k = s.die k := rfl
@[simp] theorem State.part_issued (s : State) (half : Bool) (k : Nat) : (s.issued half).part k = s.part k := rfl
@[simp] theorem State.chan_issued (s : State) (half : Bool) (k : Nat) : (s.issued half).chan k = s.chan k := rfl
@[simp] theorem State.teamOf_issued (s : State) (half : Bool) (l k : Nat) : (s.issued half).teamOf l k = s.teamOf l k := rfl
@[simp] theorem State.mem_issued (s : State) (half : Bool) : (s.issued half).mem = s.mem := rfl

/-- A source reads at step 7 what it read at issue. -/
@[simp] theorem rd_issued (s : State) (half : Bool) (c : BitVec 5) : rd (s.issued half) c = rd s c := by
  simp only [rd, State.issued_cur, State.src, State.winVal, State.core_issued, State.chan_issued, Ctx.inKey, s.ctx_issued_cur]

/-- A push is checked at step 7 as it was at issue. -/
@[simp] theorem pushCheck_issued (s : State) (half : Bool) (f : Field) :
    (s.issued half).pushCheck s.cur f = s.pushCheck s.cur f := by
  cases f <;> simp only [State.pushCheck, State.chan_issued, Ctx.outKey, s.ctx_issued_cur] <;> rfl

/-! ## Issue -/

@[simp] theorem State.stopped_trap (s : State) (cls : TrapClass) (info addr : Word) :
    s.stopped (.trap cls info addr) = s.trapAt s.cur cls info addr := rfl
@[simp] theorem State.stopped_lost (s : State) (cls : TrapClass) (info addr : Word) :
    s.stopped (.lost cls info addr) = (s.sought addr).trapAt s.cur cls info addr := rfl
@[simp] theorem State.stopped_park (s : State) (c : ParkCond) :
    s.stopped (.park c) = s.modMe fun x => { x with wait := .cond c } := rfl

theorem preTrap_none {s : State} {level : Nat} {fs : List Field} (h : MayIssue s level fs) :
    preTrap s true level fs = none := by
  obtain ⟨hl, hf, hw, -⟩ := h
  have h1 : fs.findSome? Field.bad = none := by simpa [List.findSome?_eq_none_iff] using hf
  have h2 : s.me.lent = true → fs.findSome? Field.window = none := fun h => by
    simpa [List.findSome?_eq_none_iff] using hw h
  simp only [preTrap, h1, if_neg (show ¬(stPl s.me.status).toNat < level by omega)]
  cases hlent : s.me.lent
  · simp
  · simp [h2 hlent]

theorem forM_ok {α ε : Type} (f : α → Except ε Unit) : (l : List α) → (∀ x ∈ l, f x = .ok ()) → l.forM f = .ok ()
  | [], _ => rfl
  | x :: l, h => by
    have h1 := h x (by simp)
    have h2 := forM_ok f l fun y hy => h y (by simp [hy])
    change (f x >>= fun _ => l.forM f) = _
    rw [h1]
    exact h2

theorem isOk_ok {e : Except Stop Unit} (h : e.isOk = true) : e = .ok () := by
  cases e with
  | error x => cases h
  | ok u => rfl

/-- An instruction that may issue goes on to its body at step 7, and what the body answers is what it does. -/
theorem issue_mayIssue {half : Bool} {level : Nat} {fs : List Field} {body : State → Except Stop State} {s : State}
    (h : MayIssue s level fs) :
    issue half true level fs body s = match body (s.issued half) with
      | .ok t => .next t
      | .error e => .next ((s.issued half).stopped e) := by
  obtain ⟨-, -, -, hr, hw, hp⟩ := id h
  have h1 : fs.all (Field.ready s s.cur) = true := by simpa [List.all_eq_true] using hr
  have h2 : fs.forM ((s.issued half).pushCheck s.cur) = .ok () := forM_ok _ _ fun f hf => by
    rw [pushCheck_issued]; exact isOk_ok (hp f hf)
  unfold issue
  simp only [preTrap_none h, h1, Bool.not_true, Bool.false_eq_true, if_false, if_neg (show ¬ s.wdLimit s.cur < s.me.wd + 1 by omega)]
  change (match (do fs.forM ((s.issued half).pushCheck s.cur); body (s.issued half)) with
    | .ok s2 => Host.Outcome.next s2
    | .error e => .next ((s.issued half).stopped e)) = _
  rw [h2]; rfl

/-- An instruction whose body completes. -/
theorem issue_next {half : Bool} {level : Nat} {fs : List Field} {body : State → Except Stop State} {s t : State}
    (h : MayIssue s level fs) (hb : body (s.issued half) = .ok t) : issue half true level fs body s = .next t := by
  rw [issue_mayIssue h, hb]

/-- An instruction whose step 7 traps. -/
theorem issue_trap {half : Bool} {level : Nat} {fs : List Field} {body : State → Except Stop State} {s : State}
    {cls : TrapClass} {info addr : Word} (h : MayIssue s level fs) (hb : body (s.issued half) = .error (.trap cls info addr)) :
    issue half true level fs body s = .next ((s.issued half).trapAt s.cur cls info addr) := by
  rw [issue_mayIssue h, hb]; rfl

/-- Steps 3 to 5 trap. -/
theorem issue_preTrap {half ok : Bool} {level : Nat} {fs : List Field} {body : State → Except Stop State} {s : State}
    {cls : TrapClass} {info : Word} (h : preTrap s ok level fs = some (cls, info)) :
    issue half ok level fs body s = .next ((s.stamp half).trapAt s.cur cls info 0) := by
  simp only [issue, h]

/-- Step 6 parks: the thread waits for its operands, and nothing else changes. -/
theorem issue_unready {half ok : Bool} {level : Nat} {fs : List Field} {body : State → Except Stop State} {s : State}
    (h : preTrap s ok level fs = none) (hr : fs.all (Field.ready s s.cur) = false) :
    issue half ok level fs body s = .next (s.modMe fun x => { x with wait := .cond (.operands fs) }) := by
  simp only [issue, h, hr, Bool.not_false, if_true]

/-- The watchdog traps. -/
theorem issue_wdog {half ok : Bool} {level : Nat} {fs : List Field} {body : State → Except Stop State} {s : State}
    (h : preTrap s ok level fs = none) (hr : fs.all (Field.ready s s.cur) = true) (hw : s.wdLimit s.cur < s.me.wd + 1) :
    issue half ok level fs body s = .next ((s.stamp half).trapAt s.cur .wdog (BitVec.ofNat 64 (s.wdLimit s.cur)) 0) := by
  simp only [issue, h, hr, Bool.not_true, Bool.false_eq_true, if_false, hw, if_true]

/-- What step 7 answers, pushes first. -/
theorem issue_step7 {half ok : Bool} {level : Nat} {fs : List Field} {body : State → Except Stop State} {s : State}
    (h : preTrap s ok level fs = none) (hr : fs.all (Field.ready s s.cur) = true) (hw : s.me.wd + 1 ≤ s.wdLimit s.cur) :
    issue half ok level fs body s = match (do fs.forM (s.pushCheck s.cur); body (s.issued half)) with
      | .ok s2 => .next s2
      | .error e => .next ((s.issued half).stopped e) := by
  have h4 : (s.issued half).pushCheck s.cur = s.pushCheck s.cur := funext fun f => pushCheck_issued s half f
  rw [← h4]
  simp only [issue, h, hr, Bool.not_true, Bool.false_eq_true, if_false, if_neg (Nat.not_lt.2 hw)]
  rfl

/-- The checks of steps 4 and 5 pass where no field is out of range, for a thread that is no lent task. -/
theorem preTrap_fields {s : State} {level : Nat} {fs : List Field} (hl : level ≤ (stPl s.me.status).toNat)
    (hb : fs.findSome? Field.bad = none) (hw : s.me.lent = true → fs.findSome? Field.window = none) :
    preTrap s true level fs = none := by
  simp only [preTrap, hb, if_neg (show ¬(stPl s.me.status).toNat < level by omega)]
  cases hlent : s.me.lent
  · simp
  · simp [hw hlent]

/-- A lent task that names a window or channel register. -/
theorem preTrap_lent {s : State} {level c : Nat} {fs : List Field} (hl : level ≤ (stPl s.me.status).toNat)
    (hb : fs.findSome? Field.bad = none) (hlent : s.me.lent = true) (hw : fs.findSome? Field.window = some c) :
    preTrap s true level fs = some (.chan, BitVec.ofNat 64 (portCode c)) := by
  simp only [preTrap, hb, if_neg (show ¬(stPl s.me.status).toNat < level by omega), hlent, hw]
  rfl

/-- A field out of range. -/
theorem preTrap_bad {s : State} {level : Nat} {fs : List Field} {info : Word} (hl : level ≤ (stPl s.me.status).toNat)
    (hb : fs.findSome? Field.bad = some info) : preTrap s true level fs = some (.opnd, info) := by
  simp only [preTrap, hb, if_neg (show ¬(stPl s.me.status).toNat < level by omega)]
  rfl

/-- Everything that issuing can do: a trap of steps 3 to 5; a park, because a field is not ready; the watchdog's trap; or
what step 7 answers: an effect, a trap, a park. -/
theorem issue_cases (half ok : Bool) (level : Nat) (fs : List Field) (body : State → Except Stop State) (s : State) :
    (∃ cls info, preTrap s ok level fs = some (cls, info) ∧
      issue half ok level fs body s = .next ((s.stamp half).trapAt s.cur cls info 0)) ∨
    (preTrap s ok level fs = none ∧ fs.all (Field.ready s s.cur) = false ∧
      issue half ok level fs body s = .next (s.modMe fun x => { x with wait := .cond (.operands fs) })) ∨
    (preTrap s ok level fs = none ∧ fs.all (Field.ready s s.cur) = true ∧ s.wdLimit s.cur < s.me.wd + 1 ∧
      issue half ok level fs body s =
        .next ((s.stamp half).trapAt s.cur .wdog (BitVec.ofNat 64 (s.wdLimit s.cur)) 0)) ∨
    (preTrap s ok level fs = none ∧ fs.all (Field.ready s s.cur) = true ∧ s.me.wd + 1 ≤ s.wdLimit s.cur ∧
      ((∃ t, body (s.issued half) = .ok t ∧ issue half ok level fs body s = .next t) ∨
       (∃ e, issue half ok level fs body s = .next ((s.issued half).stopped e)))) := by
  rcases h : preTrap s ok level fs with _ | ⟨cls, info⟩
  · cases hr : fs.all (Field.ready s s.cur)
    · right; left; simp [issue, h, hr]
    · by_cases hw : s.wdLimit s.cur < s.me.wd + 1
      · right; right; left; simp [issue, h, hr, hw]
      · right; right; right
        refine ⟨rfl, rfl, by omega, ?_⟩
        rw [issue_step7 h hr (by omega)]
        rcases hp : fs.forM (s.pushCheck s.cur) with e | u
        · exact .inr ⟨e, rfl⟩
        · rcases hb : body (s.issued half) with e | t
          · exact .inr ⟨e, by simp only [bind, Except.bind]⟩
          · exact .inl ⟨t, rfl, by simp only [bind, Except.bind]⟩
  · left; exact ⟨cls, info, rfl, by simp [issue, h]⟩

end Sys2Proof.Machine
end

