-- ==== Sys2Proof/Laws/Memory.lean ====
section
/-! SUPPORT. What each shared operation does to physical memory: nothing, or writes that keep its canonical form. -/

namespace Sys2Proof.Machine

/-- The physical memory is in canonical form. -/
abbrev MemOk (s : State) : Prop := Memory.wf s.mem = true

/-- A fold keeps what each of its steps keeps. -/
theorem foldl_keeps {α β : Type} (P : β → Prop) (f : β → α → β) (h : ∀ s x, P s → P (f s x)) :
    (l : List α) → (s : β) → P s → P (l.foldl f s)
  | [], _, hs => hs
  | x :: l, s, hs => foldl_keeps P f h l (f s x) (h s x hs)

/-- A fold of steps that leave memory alone leaves it alone. -/
theorem foldl_mem {α : Type} (f : State → α → State) (h : ∀ s x, (f s x).mem = s.mem) (l : List α) (s : State) :
    (l.foldl f s).mem = s.mem :=
  foldl_keeps (fun t => t.mem = s.mem) f (fun t x ht => (h t x).trans ht) l s rfl

/-! ## Registers and queues -/

@[simp] theorem State.winWrite_mem (s : State) (k : Nat) (c : BitVec 5) (v : Option Word) (b : Bool) :
    (s.winWrite k c v b).mem = s.mem := rfl

@[simp] theorem State.winAt_mem (s : State) (k : Nat) (c : BitVec 5) (v : Option Word) (b : Bool) (n : Nat) :
    (s.winAt k c v b n).mem = s.mem := rfl

@[simp] theorem State.pushAt_mem (s : State) (k : Nat) (x : Item) (n : Nat) : (s.pushAt k x n).mem = s.mem := by
  unfold State.pushAt; split <;> rfl

@[simp] theorem State.pushItem_mem (s : State) (k : Nat) (x : Item) : (s.pushItem k x).mem = s.mem := s.pushAt_mem k x _

@[simp] theorem State.unbindOut_mem (s : State) (k : Nat) : (s.unbindOut k).mem = s.mem := by
  unfold State.unbindOut; split <;> rfl

@[simp] theorem State.unbindIn_mem (s : State) (k : Nat) : (s.unbindIn k).mem = s.mem := rfl

@[simp] theorem State.consumeAt_mem (s : State) (k : Nat) (c : BitVec 5) (n : Nat) : (s.consumeAt k c n).mem = s.mem := by
  unfold State.consumeAt; repeat' split
  all_goals rfl

@[simp] theorem State.consume1_mem (s : State) (k : Nat) (c : BitVec 5) : (s.consume1 k c).mem = s.mem := s.consumeAt_mem k c _

@[simp] theorem State.consume_mem (s : State) (k : Nat) (cs : List (BitVec 5)) : (s.consume k cs).mem = s.mem :=
  foldl_mem _ (fun s x => s.consume1_mem k x) _ s

@[simp] theorem State.consumeLate_mem (s : State) (k : Nat) (cs : List (BitVec 5)) : (s.consumeLate k cs).mem = s.mem :=
  foldl_mem _ (fun s x => s.consumeAt_mem k x _) _ s

@[simp] theorem State.destLate_mem (s : State) (k : Nat) (c : BitVec 5) (v : Word) : (s.destLate k c v).mem = s.mem := by
  unfold State.destLate; repeat' split
  all_goals first | rfl | exact s.pushAt_mem k _ _

@[simp] theorem State.dest_mem (s : State) (k : Nat) (c : BitVec 5) (v : Word) : (s.dest k c v).mem = s.mem := by
  unfold State.dest; repeat' split
  · rfl
  · rfl
  · exact s.pushItem_mem k _

@[simp] theorem State.emptyDest_mem (s : State) (k : Nat) (c : BitVec 5) : (s.emptyDest k c).mem = s.mem := by
  unfold State.emptyDest; repeat' split
  all_goals rfl

@[simp] theorem State.unreserve_mem (s : State) (k : Nat) : (s.unreserve k).mem = s.mem := by
  unfold State.unreserve; split <;> rfl

@[simp] theorem State.reply_mem (s : State) (k : Nat) (c : BitVec 5) (v : Word) : (s.reply k c v).mem = s.mem := by
  simp only [State.reply]; repeat' split
  all_goals simp

@[simp] theorem State.undoDest_mem (s : State) (k : Nat) (c : BitVec 5) (b : Bool) : (s.undoDest k c b).mem = s.mem := by
  unfold State.undoDest; repeat' split
  all_goals simp

@[simp] theorem State.advance_mem (s : State) (k : Nat) : (s.advance k).mem = s.mem := rfl
@[simp] theorem State.resume_mem (s : State) (k : Nat) : (s.resume k).mem = s.mem := rfl
@[simp] theorem finish_mem (s : State) (cs : List (BitVec 5)) (d : BitVec 5) (v : Word) : (finish s cs d v).mem = s.mem := by
  simp [finish]
@[simp] theorem finishNo_mem (s : State) (cs : List (BitVec 5)) : (finishNo s cs).mem = s.mem := by simp [finishNo]

/-! ## Scratchpads and arrival words -/

@[simp] theorem State.spadPut_mem (s : State) (k a : Nat) (bs : List Byte) : (s.spadPut k a bs).mem = s.mem := rfl

@[simp] theorem State.awaitWake_mem (s : State) (k : Nat) : (s.awaitWake k).mem = s.mem := by
  unfold State.awaitWake; split
  · dsimp only; split
    · rfl
    · rw [State.resume_mem, State.destLate_mem, State.consumeLate_mem, State.spadPut_mem]
  · rfl

@[simp] theorem State.unwatch_mem (s : State) (k : Nat) : (s.unwatch k).mem = s.mem := by
  unfold State.unwatch; split <;> rfl

@[simp] theorem State.spadWrite_mem (s : State) (k a : Nat) (bs : List Byte) : (s.spadWrite k a bs).mem = s.mem := by
  unfold State.spadWrite; split
  · rfl
  · rw [foldl_mem _ State.awaitWake_mem]; rfl

@[simp] theorem State.checkTasks_mem (s : State) (k a : Nat) : (s.checkTasks k a).mem = s.mem := rfl

@[simp] theorem State.arrival_mem (s : State) (k a : Nat) (n : Word32) : (s.arrival k a n).mem = s.mem := by
  simp only [State.arrival]; split <;> simp

@[simp] theorem State.arriveAt_mem (s : State) (l : Loc) (n : Word32) : (s.arriveAt l n).mem = s.mem := by
  cases l <;> simp [State.arriveAt]

@[simp] theorem State.afterPosted_mem (s : State) (k : Nat) : (s.afterPosted k).mem = s.mem := by
  simp only [State.afterPosted]; repeat' split
  all_goals rfl

/-! ## Writes -/

/-- A write to physical memory keeps the canonical form. -/
theorem State.physWrite_memOk (s : State) (a : Nat) (bs : List Byte) (h : MemOk s) : MemOk (s.physWrite a bs) := by
  unfold State.physWrite; split
  · exact h
  · exact Mem.wf_write bs s.mem a h

/-- A byte outside the bytes written reads as before. -/
theorem State.physWrite_out (s : State) (a i : Nat) (bs : List Byte) (h : i < a ∨ a + bs.length ≤ i) :
    Tbl.get 0 (s.physWrite a bs).mem i = Tbl.get 0 s.mem i := by
  unfold State.physWrite; split
  · rfl
  · exact Mem.get_write_out bs s.mem a i h

/-- The bytes written read as written. -/
theorem State.physRead_physWrite (s : State) (a : Nat) (bs : List Byte) : (s.physWrite a bs).physRead a bs.length = bs := by
  unfold State.physWrite; split
  · next h => rw [List.isEmpty_iff.1 h]; rfl
  · exact Mem.read_write s.mem a bs

theorem State.write_memOk (s : State) (l : Loc) (bs : List Byte) (h : MemOk s) : MemOk (s.write l bs) := by
  cases l with
  | phys a => exact s.physWrite_memOk a bs h
  | spad k a => simpa [MemOk, State.write] using h

theorem State.perform_memOk (s : State) (p : Posted) (h : MemOk s) : MemOk (s.perform p) := by
  unfold State.perform
  have := (s.cacheWrite p.via p.loc p.bytes.length).write_memOk p.loc p.bytes (by simpa [MemOk] using h)
  split <;> simpa [MemOk] using this

theorem State.applyUpdate_memOk (s : State) (die : Nat) (h : MemOk s) : MemOk (s.applyUpdate die) := by
  unfold State.applyUpdate; split
  · exact h
  · rw [MemOk, State.afterPosted_mem]; exact State.perform_memOk _ _ h

theorem State.drain_memOk (die : Nat) (more : Update → Bool) : (n : Nat) → (s : State) → MemOk s → MemOk (State.drain die more n s)
  | 0, _, h => h
  | n + 1, s, h => by
    unfold State.drain; split
    · exact State.drain_memOk die more n _ (s.applyUpdate_memOk die h)
    · exact h

theorem State.flushUpdates_memOk (s : State) (k : Nat) (h : MemOk s) : MemOk (s.flushUpdates k) :=
  foldl_keeps MemOk _ (fun s d hs => State.drain_memOk d _ _ s hs) _ s h

theorem State.crossDie_memOk (s : State) (a b : Nat) (h : MemOk s) : MemOk (s.crossDie a b) := by
  simp only [State.crossDie]; split
  · exact h
  · rw [MemOk, State.modDie_mem]; exact State.drain_memOk b _ _ _ (by simpa [MemOk] using h)

theorem State.crossWith_memOk (s : State) (a b v n : Nat) (h : MemOk s) : MemOk (s.crossWith a b v n) :=
  State.crossDie_memOk _ _ _ (by simpa [MemOk] using h)

theorem State.performFrom_memOk (s : State) (k : Nat) (p : Posted) (h : MemOk s) : MemOk (s.performFrom k p) := by
  simp only [State.performFrom]
  refine State.perform_memOk _ _ ?_
  split
  · exact s.crossWith_memOk _ _ _ _ h
  · simpa [MemOk] using h

theorem State.performList_memOk (s : State) (k : Nat) (ps : List Posted) (h : MemOk s) : MemOk (s.performList k ps) :=
  foldl_keeps MemOk _ (fun s p hs => s.performFrom_memOk k p hs) _ _ h

theorem State.performAll_memOk (s : State) (k : Nat) (h : MemOk s) : MemOk (s.performAll k) := by
  simp only [State.performAll]; split
  · exact h
  · rw [MemOk, State.modCtx_mem]; exact State.performList_memOk _ _ _ (s.flushUpdates_memOk k h)

theorem State.performSome_memOk (s : State) (k : Nat) (f : Posted → Bool) (h : MemOk s) : MemOk (s.performSome k f) := by
  simp only [State.performSome]; split
  · exact h
  · rw [MemOk, State.modCtx_mem]; exact State.performList_memOk _ _ _ (s.flushUpdates_memOk k h)

theorem State.performCausal_memOk (s : State) (k : Nat) (h : MemOk s) : MemOk (s.performCausal k) :=
  s.performSome_memOk k _ h

theorem State.beforePush_memOk (s : State) (q : Nat) (h : MemOk s) : MemOk (s.beforePush q) :=
  foldl_keeps MemOk _ (fun s _ hs => foldl_keeps MemOk _ (fun s _ hs => s.crossWith_memOk _ _ _ _ hs) _ s hs) _ _
    (foldl_keeps MemOk _ (fun s t hs => s.performCausal_memOk t hs) _ s h)

theorem State.settlePushes_memOk (s : State) (k : Nat) (h : MemOk s) : MemOk (s.settlePushes k) := by
  unfold State.settlePushes; split
  · exact s.beforePush_memOk _ h
  · exact h

theorem State.hostTouch_memOk (s : State) (pa n : Nat) (h : MemOk s) : MemOk (s.hostTouch pa n) := by
  rw [s.hostTouch_linksOnly pa n]; exact h

theorem State.queueRecord_memOk (s : State) (cb : Nat) (mk : Word32 → List Byte) (h : MemOk s) : MemOk (s.queueRecord cb mk) := by
  have h1 := s.hostTouch_memOk cb 28 h
  simp only [State.queueRecord]
  split
  · exact h
  · split
    · exact State.physWrite_memOk _ _ _ (State.hostTouch_memOk _ _ _ h1)
    · refine State.physWrite_memOk _ _ _ (State.hostTouch_memOk _ _ _ ?_)
      split
      · exact State.physWrite_memOk _ _ _ (State.hostTouch_memOk _ _ _ h1)
      · exact h1

theorem State.faultReport_memOk (s : State) (part kind what : Nat) (who : Word32) (x : Word) (tag : Word32) (h : MemOk s) :
    MemOk (s.faultReport part kind what who x tag) := s.queueRecord_memOk _ _ h

theorem State.mgmtReport_memOk (s : State) (kind detail : Nat) (who : Word32) (v : Word) (h : MemOk s) :
    MemOk (s.mgmtReport kind detail who v) := s.queueRecord_memOk _ _ h

@[simp] theorem State.logError_mem (s : State) (part core unit pa : Nat) : (s.logError part core unit pa).mem = s.mem := rfl

/-! ## The end of a thread -/

@[simp] theorem State.giveSegment_mem (s : State) (k : Nat) : (s.giveSegment k).mem = s.mem := by
  simp only [State.giveSegment]; repeat' split
  all_goals rfl

@[simp] theorem State.returnSegments_mem (s : State) (part : Nat) (ks : List Nat) : (s.returnSegments part ks).mem = s.mem := by
  simp only [State.returnSegments]; split
  · rfl
  · rw [foldl_mem _ State.giveSegment_mem]; rfl

@[simp] theorem State.releaseSlot_mem (s : State) (course k : Nat) : (s.releaseSlot course k).mem = s.mem := rfl

@[simp] theorem State.releaseTiles_mem (s : State) (k : Nat) : (s.releaseTiles k).mem = s.mem := by
  simp only [State.releaseTiles, State.modCtx_mem]
  exact foldl_mem _ (fun s x => s.releaseSlot_mem _ x) _ s

@[simp] theorem State.dropLanes_mem (s : State) (k : Nat) : (s.dropLanes k).mem = s.mem := rfl
@[simp] theorem State.mapTokens_mem (s : State) (f : Token → Token) : (s.mapTokens f).mem = s.mem := rfl
@[simp] theorem State.rewriteOwner_mem (s : State) (k : Nat) (lent : Bool) (owner : BitVec 15) (own : Option Ident) :
    (s.rewriteOwner k lent owner own).mem = s.mem := rfl
@[simp] theorem State.dropOwed_mem (s : State) (k : Ident) : (s.dropOwed k).mem = s.mem := rfl

@[simp] theorem State.giveUp_mem (s : State) (k : Nat) : (s.giveUp k).mem = s.mem := by
  simp only [State.giveUp]; repeat' split
  all_goals rfl

@[simp] theorem State.setEndRec_mem (s : State) (k : Nat) (x : Word) : (s.setEndRec k x).mem = s.mem := rfl
@[simp] theorem State.giveUpTeam_mem (s : State) (l t : Nat) : (s.giveUpTeam l t).mem = s.mem := by
  unfold State.giveUpTeam; split
  · exact s.giveUp_mem _
  · rfl
@[simp] theorem State.afterEnd_mem (s : State) (k : Nat) (who : Ident) : (s.afterEnd k who).mem = s.mem := by
  simp [State.afterEnd]
@[simp] theorem State.freeCtx_mem (s : State) (k : Nat) : (s.freeCtx k).mem = s.mem := rfl
@[simp] theorem State.vacate_mem (s : State) (k : Nat) : (s.vacate k).mem = s.mem := by
  simp only [State.vacate]; split <;> simp

/-- Ending a thread writes posted writes to memory, and nothing else. -/
theorem State.endThread_memOk (s : State) (k : Nat) (x : Word) (h : MemOk s) : MemOk (s.endThread k x) := by
  simp only [State.endThread, MemOk, State.vacate_mem]
  repeat' split
  all_goals
    first
    | simpa [MemOk] using s.performAll_memOk k h
    | (simp only [State.unbindIn_mem, State.unbindOut_mem, State.pushItem_mem]
       exact State.settlePushes_memOk _ _ (by simpa [MemOk] using s.performAll_memOk k h))

theorem State.killThread_memOk (s : State) (k : Nat) (h : MemOk s) : MemOk (s.killThread k) := by
  simp only [State.killThread]; split
  · exact State.endThread_memOk _ _ _ (s.endThread_memOk k 2 h)
  · exact s.endThread_memOk k 2 h

/-! ## Traps and issue -/

theorem State.fatal_memOk (s : State) (k cls : Nat) (h : MemOk s) : MemOk (s.fatal k cls) :=
  State.faultReport_memOk _ _ _ _ _ _ _ (s.endThread_memOk k _ h)

theorem State.trapEntry_memOk (s : State) (k cls : Nat) (info addr : Word) (epc : BitVec 57) (eng : Bool) (h : MemOk s) :
    MemOk (s.trapEntry k cls info addr epc eng) := by
  simp only [State.trapEntry]; split
  · exact s.fatal_memOk k cls h
  · exact h

theorem State.trapAt_memOk (s : State) (k : Nat) (cls : TrapClass) (info addr : Word) (h : MemOk s) :
    MemOk (s.trapAt k cls info addr) := s.trapEntry_memOk _ _ _ _ _ _ h

/-! ## What a lookup that fails leaves (R354, R355) -/

@[simp] theorem State.correct_mem (s : State) (part : Nat) (l : Loc) (n : Nat) : (s.correct part l n).mem = s.mem := by
  cases l <;> simp only [State.correct] <;> split <;> rfl

@[simp] theorem State.refetch_mem (s : State) (part : Nat) (v : Via) (l : Loc) : (s.refetch part v l).mem = s.mem := by
  unfold State.refetch; repeat' split
  all_goals rfl

@[simp] theorem State.cacheLoad_mem (s : State) (part : Nat) (v : Via) (l : Loc) (n : Nat) :
    (s.cacheLoad part v l n).mem = s.mem := by
  have h : ((s.correct part l n).refetches part v l n).mem = s.mem := by
    cases l with
    | spad core a => exact State.correct_mem ..
    | phys pa =>
      exact (foldl_mem _ (fun s (x : Nat × Nat) => s.refetch_mem part v (.phys x.1)) _ _).trans (State.correct_mem ..)
  rw [State.cacheLoad, State.cacheRead_mem, h]

@[simp] theorem State.walked_mem (s : State) (core part : Nat) (asid : BitVec 12) (va : Nat) : (s.walked core part asid va).mem = s.mem := by
  unfold State.walked
  refine foldl_mem _ (fun s pa => ?_) _ _
  rw [State.cacheLoad_mem, (s.readLine_linksOnly _ _ _)]

@[simp] theorem State.tlbCheck1_mem (s : State) (part asid va : Nat) (t : Nat × Nat × List (Nat × Nat × Word)) :
    (s.tlbCheck1 part asid va t).mem = s.mem := by
  dsimp only [State.tlbCheck1]; repeat' split
  all_goals rfl

@[simp] theorem State.tlbCheck_mem (s : State) (core part asid va : Nat) : (s.tlbCheck core part asid va).mem = s.mem := by
  unfold State.tlbCheck; split
  · rfl
  · refine foldl_mem _ (fun s t => ?_) _ _
    split
    · rfl
    · exact s.tlbCheck1_mem ..

@[simp] theorem State.lookedUp_mem (s : State) (core part : Nat) (asid : BitVec 12) (va : BitVec 57) :
    (s.lookedUp core part asid va).mem = s.mem := by
  dsimp only [State.lookedUp]; split <;> simp

theorem State.stopped_memOk (s : State) (e : Stop) (h : MemOk s) : MemOk (s.stopped e) := by
  cases e with
  | trap cls info addr => exact s.trapAt_memOk _ _ _ _ h
  | lost cls info addr => exact State.trapAt_memOk _ _ _ _ _ (by rw [MemOk, State.sought, State.lookedUp_mem]; exact h)
  | bad u pa info addr =>
    refine State.trapAt_memOk _ _ _ _ _ ?_
    show MemOk (if u < 2 then s.sought addr else s)
    split
    · rw [MemOk, State.sought, State.lookedUp_mem]; exact h
    · exact h
  | park c => exact h

/-- Issuing keeps the form where the instruction's own step 7 does. -/
theorem issue_memOk {half ok : Bool} {level : Nat} {fs : List Field} {body : State → Except Stop State} {s : State}
    (hb : ∀ u t, u.mem = s.mem → body u = .ok t → MemOk t) (h : MemOk s) {t : State} (ht : issue half ok level fs body s = .next t) :
    MemOk t := by
  rcases issue_cases half ok level fs body s with
    ⟨cls, info, -, e⟩ | ⟨-, -, e⟩ | ⟨-, -, -, e⟩ | ⟨-, -, -, ⟨u, e1, e⟩ | ⟨x, e⟩⟩ <;>
    (rw [e] at ht; cases ht)
  · exact State.trapAt_memOk _ _ _ _ _ h
  · exact h
  · exact State.trapAt_memOk _ _ _ _ _ h
  · exact hb _ _ (s.mem_issued half) e1
  · exact State.stopped_memOk _ _ h

/-! ## Records that spill, and what a scan shifts in -/

theorem State.spillRecord_memOk (s : State) (part core : Nat) (taken : List Nat) (r : Cont) (h : MemOk s) :
    MemOk (s.spillRecord part core taken r).2 := by
  unfold State.spillRecord
  dsimp only
  split
  · exact s.physWrite_memOk _ _ h
  · exact h

theorem State.setDeque_memOk (s : State) (part core : Nat) (cs : List Cont) (h : MemOk s) : MemOk (s.setDeque part core cs) :=
  foldl_keeps (fun x : List Cont × State => MemOk x.2) _ (fun x r hx => x.2.spillRecord_memOk _ _ _ r hx) _ _ h

theorem State.scanBytes_memOk (s : State) (pa n : Nat) (bs : List Byte) (h : MemOk s) : MemOk (s.scanBytes pa n bs) := by
  unfold State.scanBytes
  split
  · exact s.physWrite_memOk _ _ h
  · exact h

/-- The memory is empty after reset, and so in canonical form. -/
theorem reset_memOk : MemOk State.reset := by decide

/-- Putting an instruction where the next step fetches keeps the form. -/
theorem State.withFetchWord_memOk (s : State) (nbits w : Nat) (h : MemOk s) : MemOk (s.withFetchWord nbits w) :=
  Mem.wf_write _ s.mem 0 h

end Sys2Proof.Machine
end

