-- ==== Sys2Proof/Laws/PerInstr.lean ====
section
/-! SUPPORT. The families of statements that are made of each instruction alone. -/

namespace Sys2Proof.Laws.Encoding

open Sys2Proof Sys2Proof.Machine

/-- An instruction is one halfword or two, and bits 15 and 14 of its first say which (R71); an event has no word. -/
def Statement (i : Instr) : Prop :=
  (encode i).length ≤ 2 ∧ ∀ h ∈ (encode i).head?, isLong h = decide ((encode i).length = 2)

/-- A bit of the left part of an append. -/
theorem up {n m k : Nat} {x : BitVec n} (y : BitVec m) {b : Bool} (h : x.getLsbD k = b) : (x ++ y).getLsbD (k + m) = b := by
  rw [BitVec.getLsbD_append, if_neg (by omega), Nat.add_sub_cancel, h]

theorem long {n : Nat} {i : Instr} (w : BitVec n) (hn : n = 32) (h : encode32 i = some (w.cast hn))
    (h31 : w.getLsbD 31 = true) (h30 : w.getLsbD 30 = true) : Statement i := by
  subst hn
  have e : encode i = [bits w 16 16, bits w 0 16] := by simp only [encode, h]; rfl
  simp only [Statement, e, isLong, bits]
  refine ⟨by simp, fun x hx => ?_⟩
  cases hx
  simp only [List.length_cons, List.length_nil, decide_true, beq_iff_eq]
  apply BitVec.eq_of_getLsbD_eq
  intro k hk
  have : k = 0 ∨ k = 1 := by omega
  rcases this with rfl | rfl <;> simp_all

theorem short {n : Nat} {i : Instr} (w : BitVec n) (hn : n = 16) (h : encode32 i = none) (h16 : encode16 i = some (w.cast hn))
    (hb : w.getLsbD 15 = false ∨ w.getLsbD 14 = false) : Statement i := by
  subst hn
  have e : encode i = [w] := by simp only [encode, h, h16]; rfl
  simp only [Statement, e, isLong, bits]
  refine ⟨by simp, fun x hx => ?_⟩
  cases hx
  simp only [List.length_cons, List.length_nil, beq_eq_false_iff_ne, ne_eq, Nat.reduceAdd, Nat.reduceEqDiff, decide_false]
  intro hh
  have h1 := congrArg (BitVec.getLsbD · 1) hh
  have h0 := congrArg (BitVec.getLsbD · 0) hh
  simp at h0 h1
  rcases hb with hb | hb <;> simp_all

theorem event {i : Instr} (h : encode32 i = none) (h16 : encode16 i = none) : Statement i := by
  have e : encode i = [] := by simp only [encode, h, h16]
  simp [Statement, e]

theorem add (d a b : BitVec 5) : Statement (.add d a b) :=
  long (0xC1#8 ++ d ++ a ++ b ++ 0x0#9) rfl rfl (up _ (up _ (up _ (up _ rfl)))) (up _ (up _ (up _ (up _ rfl))))
theorem sub (d a b : BitVec 5) : Statement (.sub d a b) :=
  long (0xC1#8 ++ d ++ a ++ b ++ 0x1#9) rfl rfl (up _ (up _ (up _ (up _ rfl)))) (up _ (up _ (up _ (up _ rfl))))
theorem and (d a b : BitVec 5) : Statement (.and d a b) :=
  long (0xC1#8 ++ d ++ a ++ b ++ 0x2#9) rfl rfl (up _ (up _ (up _ (up _ rfl)))) (up _ (up _ (up _ (up _ rfl))))
theorem or (d a b : BitVec 5) : Statement (.or d a b) :=
  long (0xC1#8 ++ d ++ a ++ b ++ 0x3#9) rfl rfl (up _ (up _ (up _ (up _ rfl)))) (up _ (up _ (up _ (up _ rfl))))
theorem xor (d a b : BitVec 5) : Statement (.xor d a b) :=
  long (0xC1#8 ++ d ++ a ++ b ++ 0x4#9) rfl rfl (up _ (up _ (up _ (up _ rfl)))) (up _ (up _ (up _ (up _ rfl))))
theorem andn (d a b : BitVec 5) : Statement (.andn d a b) :=
  long (0xC1#8 ++ d ++ a ++ b ++ 0x5#9) rfl rfl (up _ (up _ (up _ (up _ rfl)))) (up _ (up _ (up _ (up _ rfl))))
theorem sll (d a b : BitVec 5) : Statement (.sll d a b) :=
  long (0xC1#8 ++ d ++ a ++ b ++ 0x6#9) rfl rfl (up _ (up _ (up _ (up _ rfl)))) (up _ (up _ (up _ (up _ rfl))))
theorem srl (d a b : BitVec 5) : Statement (.srl d a b) :=
  long (0xC1#8 ++ d ++ a ++ b ++ 0x7#9) rfl rfl (up _ (up _ (up _ (up _ rfl)))) (up _ (up _ (up _ (up _ rfl))))
theorem sra (d a b : BitVec 5) : Statement (.sra d a b) :=
  long (0xC1#8 ++ d ++ a ++ b ++ 0x8#9) rfl rfl (up _ (up _ (up _ (up _ rfl)))) (up _ (up _ (up _ (up _ rfl))))
theorem rol (d a b : BitVec 5) : Statement (.rol d a b) :=
  long (0xC1#8 ++ d ++ a ++ b ++ 0x9#9) rfl rfl (up _ (up _ (up _ (up _ rfl)))) (up _ (up _ (up _ (up _ rfl))))
theorem ror (d a b : BitVec 5) : Statement (.ror d a b) :=
  long (0xC1#8 ++ d ++ a ++ b ++ 0xA#9) rfl rfl (up _ (up _ (up _ (up _ rfl)))) (up _ (up _ (up _ (up _ rfl))))
theorem mul (d a b : BitVec 5) : Statement (.mul d a b) :=
  long (0xC1#8 ++ d ++ a ++ b ++ 0xB#9) rfl rfl (up _ (up _ (up _ (up _ rfl)))) (up _ (up _ (up _ (up _ rfl))))
theorem mulh (d a b : BitVec 5) : Statement (.mulh d a b) :=
  long (0xC1#8 ++ d ++ a ++ b ++ 0xC#9) rfl rfl (up _ (up _ (up _ (up _ rfl)))) (up _ (up _ (up _ (up _ rfl))))
theorem mulhn (d a b : BitVec 5) : Statement (.mulhn d a b) :=
  long (0xC1#8 ++ d ++ a ++ b ++ 0xD#9) rfl rfl (up _ (up _ (up _ (up _ rfl)))) (up _ (up _ (up _ (up _ rfl))))
theorem div (d a b : BitVec 5) : Statement (.div d a b) :=
  long (0xC1#8 ++ d ++ a ++ b ++ 0xE#9) rfl rfl (up _ (up _ (up _ (up _ rfl)))) (up _ (up _ (up _ (up _ rfl))))
theorem divn (d a b : BitVec 5) : Statement (.divn d a b) :=
  long (0xC1#8 ++ d ++ a ++ b ++ 0xF#9) rfl rfl (up _ (up _ (up _ (up _ rfl)))) (up _ (up _ (up _ (up _ rfl))))
theorem rem (d a b : BitVec 5) : Statement (.rem d a b) :=
  long (0xC1#8 ++ d ++ a ++ b ++ 0x10#9) rfl rfl (up _ (up _ (up _ (up _ rfl)))) (up _ (up _ (up _ (up _ rfl))))
theorem remn (d a b : BitVec 5) : Statement (.remn d a b) :=
  long (0xC1#8 ++ d ++ a ++ b ++ 0x11#9) rfl rfl (up _ (up _ (up _ (up _ rfl)))) (up _ (up _ (up _ (up _ rfl))))
theorem min (d a b : BitVec 5) : Statement (.min d a b) :=
  long (0xC1#8 ++ d ++ a ++ b ++ 0x12#9) rfl rfl (up _ (up _ (up _ (up _ rfl)))) (up _ (up _ (up _ (up _ rfl))))
theorem max (d a b : BitVec 5) : Statement (.max d a b) :=
  long (0xC1#8 ++ d ++ a ++ b ++ 0x13#9) rfl rfl (up _ (up _ (up _ (up _ rfl)))) (up _ (up _ (up _ (up _ rfl))))
theorem minn (d a b : BitVec 5) : Statement (.minn d a b) :=
  long (0xC1#8 ++ d ++ a ++ b ++ 0x14#9) rfl rfl (up _ (up _ (up _ (up _ rfl)))) (up _ (up _ (up _ (up _ rfl))))
theorem maxn (d a b : BitVec 5) : Statement (.maxn d a b) :=
  long (0xC1#8 ++ d ++ a ++ b ++ 0x15#9) rfl rfl (up _ (up _ (up _ (up _ rfl)))) (up _ (up _ (up _ (up _ rfl))))
theorem seq (d a b : BitVec 5) : Statement (.seq d a b) :=
  long (0xC1#8 ++ d ++ a ++ b ++ 0x16#9) rfl rfl (up _ (up _ (up _ (up _ rfl)))) (up _ (up _ (up _ (up _ rfl))))
theorem sne (d a b : BitVec 5) : Statement (.sne d a b) :=
  long (0xC1#8 ++ d ++ a ++ b ++ 0x17#9) rfl rfl (up _ (up _ (up _ (up _ rfl)))) (up _ (up _ (up _ (up _ rfl))))
theorem slt (d a b : BitVec 5) : Statement (.slt d a b) :=
  long (0xC1#8 ++ d ++ a ++ b ++ 0x18#9) rfl rfl (up _ (up _ (up _ (up _ rfl)))) (up _ (up _ (up _ (up _ rfl))))
theorem sge (d a b : BitVec 5) : Statement (.sge d a b) :=
  long (0xC1#8 ++ d ++ a ++ b ++ 0x19#9) rfl rfl (up _ (up _ (up _ (up _ rfl)))) (up _ (up _ (up _ (up _ rfl))))
theorem sltn (d a b : BitVec 5) : Statement (.sltn d a b) :=
  long (0xC1#8 ++ d ++ a ++ b ++ 0x1A#9) rfl rfl (up _ (up _ (up _ (up _ rfl)))) (up _ (up _ (up _ (up _ rfl))))
theorem sgen (d a b : BitVec 5) : Statement (.sgen d a b) :=
  long (0xC1#8 ++ d ++ a ++ b ++ 0x1B#9) rfl rfl (up _ (up _ (up _ (up _ rfl)))) (up _ (up _ (up _ (up _ rfl))))
theorem clz (d a : BitVec 5) : Statement (.clz d a) :=
  long (0xC1#8 ++ d ++ a ++ 0x1C#14) rfl rfl (up _ (up _ (up _ rfl))) (up _ (up _ (up _ rfl)))
theorem ctz (d a : BitVec 5) : Statement (.ctz d a) :=
  long (0xC1#8 ++ d ++ a ++ 0x1D#14) rfl rfl (up _ (up _ (up _ rfl))) (up _ (up _ (up _ rfl)))
theorem popc (d a : BitVec 5) : Statement (.popc d a) :=
  long (0xC1#8 ++ d ++ a ++ 0x1E#14) rfl rfl (up _ (up _ (up _ rfl))) (up _ (up _ (up _ rfl)))
theorem bswap (d a : BitVec 5) : Statement (.bswap d a) :=
  long (0xC1#8 ++ d ++ a ++ 0x1F#14) rfl rfl (up _ (up _ (up _ rfl))) (up _ (up _ (up _ rfl)))
theorem leaB8 (d a b : BitVec 5) : Statement (.leaB8 d a b) :=
  long (0xC1#8 ++ d ++ a ++ b ++ 0x20#9) rfl rfl (up _ (up _ (up _ (up _ rfl)))) (up _ (up _ (up _ (up _ rfl))))
theorem leaB16 (d a b : BitVec 5) : Statement (.leaB16 d a b) :=
  long (0xC1#8 ++ d ++ a ++ b ++ 0x21#9) rfl rfl (up _ (up _ (up _ (up _ rfl)))) (up _ (up _ (up _ (up _ rfl))))
theorem leaB32 (d a b : BitVec 5) : Statement (.leaB32 d a b) :=
  long (0xC1#8 ++ d ++ a ++ b ++ 0x22#9) rfl rfl (up _ (up _ (up _ (up _ rfl)))) (up _ (up _ (up _ (up _ rfl))))
theorem leaB64 (d a b : BitVec 5) : Statement (.leaB64 d a b) :=
  long (0xC1#8 ++ d ++ a ++ b ++ 0x23#9) rfl rfl (up _ (up _ (up _ (up _ rfl)))) (up _ (up _ (up _ (up _ rfl))))
theorem hash (d a b : BitVec 5) : Statement (.hash d a b) :=
  long (0xC1#8 ++ d ++ a ++ b ++ 0x24#9) rfl rfl (up _ (up _ (up _ (up _ rfl)))) (up _ (up _ (up _ (up _ rfl))))
theorem bank (d a : BitVec 5) : Statement (.bank d a) :=
  long (0xC1#8 ++ d ++ a ++ 0x25#14) rfl rfl (up _ (up _ (up _ rfl))) (up _ (up _ (up _ rfl)))
theorem addi (d a : BitVec 5) (imm : BitVec 14) : Statement (.addi d a imm) :=
  long (0xC2#8 ++ d ++ a ++ imm) rfl rfl (up _ (up _ (up _ rfl))) (up _ (up _ (up _ rfl)))
theorem andi (d a : BitVec 5) (imm : BitVec 14) : Statement (.andi d a imm) :=
  long (0xC3#8 ++ d ++ a ++ imm) rfl rfl (up _ (up _ (up _ rfl))) (up _ (up _ (up _ rfl)))
theorem ori (d a : BitVec 5) (imm : BitVec 14) : Statement (.ori d a imm) :=
  long (0xC4#8 ++ d ++ a ++ imm) rfl rfl (up _ (up _ (up _ rfl))) (up _ (up _ (up _ rfl)))
theorem xori (d a : BitVec 5) (imm : BitVec 14) : Statement (.xori d a imm) :=
  long (0xC5#8 ++ d ++ a ++ imm) rfl rfl (up _ (up _ (up _ rfl))) (up _ (up _ (up _ rfl)))
theorem slli (d a : BitVec 5) (sh : BitVec 6) : Statement (.slli d a sh) :=
  long (0xC6#8 ++ d ++ a ++ 0x0#8 ++ sh) rfl rfl (up _ (up _ (up _ (up _ rfl)))) (up _ (up _ (up _ (up _ rfl))))
theorem srli (d a : BitVec 5) (sh : BitVec 6) : Statement (.srli d a sh) :=
  long (0xC6#8 ++ d ++ a ++ 0x4#8 ++ sh) rfl rfl (up _ (up _ (up _ (up _ rfl)))) (up _ (up _ (up _ (up _ rfl))))
theorem srai (d a : BitVec 5) (sh : BitVec 6) : Statement (.srai d a sh) :=
  long (0xC6#8 ++ d ++ a ++ 0x8#8 ++ sh) rfl rfl (up _ (up _ (up _ (up _ rfl)))) (up _ (up _ (up _ (up _ rfl))))
theorem roli (d a : BitVec 5) (sh : BitVec 6) : Statement (.roli d a sh) :=
  long (0xC6#8 ++ d ++ a ++ 0xC#8 ++ sh) rfl rfl (up _ (up _ (up _ (up _ rfl)))) (up _ (up _ (up _ (up _ rfl))))
theorem bfxN64 (d a : BitVec 5) (pos len : BitVec 6) : Statement (.bfxN64 d a pos len) :=
  long (0xC7#8 ++ d ++ a ++ 0x0#2 ++ pos ++ len) rfl rfl (up _ (up _ (up _ (up _ (up _ rfl))))) (up _ (up _ (up _ (up _ (up _ rfl)))))
theorem bfxI64 (d a : BitVec 5) (pos len : BitVec 6) : Statement (.bfxI64 d a pos len) :=
  long (0xC7#8 ++ d ++ a ++ 0x1#2 ++ pos ++ len) rfl rfl (up _ (up _ (up _ (up _ (up _ rfl))))) (up _ (up _ (up _ (up _ (up _ rfl)))))
theorem bfi (d a : BitVec 5) (pos len : BitVec 6) : Statement (.bfi d a pos len) :=
  long (0xC7#8 ++ d ++ a ++ 0x2#2 ++ pos ++ len) rfl rfl (up _ (up _ (up _ (up _ (up _ rfl))))) (up _ (up _ (up _ (up _ (up _ rfl)))))
theorem li (d : BitVec 5) (imm : BitVec 19) : Statement (.li d imm) :=
  long (0xC8#8 ++ d ++ imm) rfl rfl (up _ (up _ rfl)) (up _ (up _ rfl))
theorem lis (d : BitVec 5) (imm : BitVec 19) : Statement (.lis d imm) :=
  long (0xC9#8 ++ d ++ imm) rfl rfl (up _ (up _ rfl)) (up _ (up _ rfl))
theorem fadd (d a b : BitVec 5) (rm : BitVec 3) (ty : BitVec 2) : Statement (.fadd d a b rm ty) :=
  long (0xCA#8 ++ d ++ a ++ b ++ rm ++ 0x0#4 ++ ty) rfl rfl (up _ (up _ (up _ (up _ (up _ (up _ rfl)))))) (up _ (up _ (up _ (up _ (up _ (up _ rfl))))))
theorem fsub (d a b : BitVec 5) (rm : BitVec 3) (ty : BitVec 2) : Statement (.fsub d a b rm ty) :=
  long (0xCA#8 ++ d ++ a ++ b ++ rm ++ 0x1#4 ++ ty) rfl rfl (up _ (up _ (up _ (up _ (up _ (up _ rfl)))))) (up _ (up _ (up _ (up _ (up _ (up _ rfl))))))
theorem fmul (d a b : BitVec 5) (rm : BitVec 3) (ty : BitVec 2) : Statement (.fmul d a b rm ty) :=
  long (0xCA#8 ++ d ++ a ++ b ++ rm ++ 0x2#4 ++ ty) rfl rfl (up _ (up _ (up _ (up _ (up _ (up _ rfl)))))) (up _ (up _ (up _ (up _ (up _ (up _ rfl))))))
theorem fdiv (d a b : BitVec 5) (rm : BitVec 3) (ty : BitVec 2) : Statement (.fdiv d a b rm ty) :=
  long (0xCA#8 ++ d ++ a ++ b ++ rm ++ 0x3#4 ++ ty) rfl rfl (up _ (up _ (up _ (up _ (up _ (up _ rfl)))))) (up _ (up _ (up _ (up _ (up _ (up _ rfl))))))
theorem fsqrt (d a : BitVec 5) (rm : BitVec 3) (ty : BitVec 2) : Statement (.fsqrt d a rm ty) :=
  long (0xCA#8 ++ d ++ a ++ 0x0#5 ++ rm ++ 0x4#4 ++ ty) rfl rfl (up _ (up _ (up _ (up _ (up _ (up _ rfl)))))) (up _ (up _ (up _ (up _ (up _ (up _ rfl))))))
theorem fmin (d a b : BitVec 5) (ty : BitVec 2) : Statement (.fmin d a b ty) :=
  long (0xCA#8 ++ d ++ a ++ b ++ 0x5#7 ++ ty) rfl rfl (up _ (up _ (up _ (up _ (up _ rfl))))) (up _ (up _ (up _ (up _ (up _ rfl)))))
theorem fmax (d a b : BitVec 5) (ty : BitVec 2) : Statement (.fmax d a b ty) :=
  long (0xCA#8 ++ d ++ a ++ b ++ 0x6#7 ++ ty) rfl rfl (up _ (up _ (up _ (up _ (up _ rfl))))) (up _ (up _ (up _ (up _ (up _ rfl)))))
theorem fmac (d a b : BitVec 5) (rm : BitVec 3) (ty : BitVec 2) : Statement (.fmac d a b rm ty) :=
  long (0xCA#8 ++ d ++ a ++ b ++ rm ++ 0x7#4 ++ ty) rfl rfl (up _ (up _ (up _ (up _ (up _ (up _ rfl)))))) (up _ (up _ (up _ (up _ (up _ (up _ rfl))))))
theorem fcvtFloatFloat (d a : BitVec 5) (src : BitVec 2) (rm : BitVec 3) (ty : BitVec 2) : Statement (.fcvtFloatFloat d a src rm ty) :=
  long (0xCA#8 ++ d ++ a ++ 0x0#3 ++ src ++ rm ++ 0x8#4 ++ ty) rfl rfl (up _ (up _ (up _ (up _ (up _ (up _ (up _ rfl))))))) (up _ (up _ (up _ (up _ (up _ (up _ (up _ rfl)))))))
theorem fcvtFloatInteger (d a : BitVec 5) (src : BitVec 2) (rm : BitVec 3) (ty : BitVec 2) : Statement (.fcvtFloatInteger d a src rm ty) :=
  long (0xCA#8 ++ d ++ a ++ 0x0#3 ++ src ++ rm ++ 0x9#4 ++ ty) rfl rfl (up _ (up _ (up _ (up _ (up _ (up _ (up _ rfl))))))) (up _ (up _ (up _ (up _ (up _ (up _ (up _ rfl)))))))
theorem fcvtIntegerFloat (d a : BitVec 5) (src : BitVec 2) (rm : BitVec 3) (ty : BitVec 2) : Statement (.fcvtIntegerFloat d a src rm ty) :=
  long (0xCA#8 ++ d ++ a ++ 0x0#3 ++ src ++ rm ++ 0xA#4 ++ ty) rfl rfl (up _ (up _ (up _ (up _ (up _ (up _ (up _ rfl))))))) (up _ (up _ (up _ (up _ (up _ (up _ (up _ rfl)))))))
theorem feq (d a b : BitVec 5) (ty : BitVec 2) : Statement (.feq d a b ty) :=
  long (0xCA#8 ++ d ++ a ++ b ++ 0xB#7 ++ ty) rfl rfl (up _ (up _ (up _ (up _ (up _ rfl))))) (up _ (up _ (up _ (up _ (up _ rfl)))))
theorem flt (d a b : BitVec 5) (ty : BitVec 2) : Statement (.flt d a b ty) :=
  long (0xCA#8 ++ d ++ a ++ b ++ 0xC#7 ++ ty) rfl rfl (up _ (up _ (up _ (up _ (up _ rfl))))) (up _ (up _ (up _ (up _ (up _ rfl)))))
theorem fle (d a b : BitVec 5) (ty : BitVec 2) : Statement (.fle d a b ty) :=
  long (0xCA#8 ++ d ++ a ++ b ++ 0xD#7 ++ ty) rfl rfl (up _ (up _ (up _ (up _ (up _ rfl))))) (up _ (up _ (up _ (up _ (up _ rfl)))))
theorem fclass (d a : BitVec 5) (ty : BitVec 2) : Statement (.fclass d a ty) :=
  long (0xCA#8 ++ d ++ a ++ 0xE#12 ++ ty) rfl rfl (up _ (up _ (up _ (up _ rfl)))) (up _ (up _ (up _ (up _ rfl))))
theorem fsgn (d a b : BitVec 5) (ty : BitVec 2) : Statement (.fsgn d a b ty) :=
  long (0xCA#8 ++ d ++ a ++ b ++ 0xF#7 ++ ty) rfl rfl (up _ (up _ (up _ (up _ (up _ rfl))))) (up _ (up _ (up _ (up _ (up _ rfl)))))
theorem beq (a b : BitVec 5) (disp : BitVec 11) : Statement (.beq a b disp) :=
  long (0xCB#8 ++ a ++ b ++ 0x0#3 ++ disp) rfl rfl (up _ (up _ (up _ (up _ rfl)))) (up _ (up _ (up _ (up _ rfl))))
theorem bne (a b : BitVec 5) (disp : BitVec 11) : Statement (.bne a b disp) :=
  long (0xCB#8 ++ a ++ b ++ 0x1#3 ++ disp) rfl rfl (up _ (up _ (up _ (up _ rfl)))) (up _ (up _ (up _ (up _ rfl))))
theorem blt (a b : BitVec 5) (disp : BitVec 11) : Statement (.blt a b disp) :=
  long (0xCB#8 ++ a ++ b ++ 0x2#3 ++ disp) rfl rfl (up _ (up _ (up _ (up _ rfl)))) (up _ (up _ (up _ (up _ rfl))))
theorem bge (a b : BitVec 5) (disp : BitVec 11) : Statement (.bge a b disp) :=
  long (0xCB#8 ++ a ++ b ++ 0x3#3 ++ disp) rfl rfl (up _ (up _ (up _ (up _ rfl)))) (up _ (up _ (up _ (up _ rfl))))
theorem bltn (a b : BitVec 5) (disp : BitVec 11) : Statement (.bltn a b disp) :=
  long (0xCB#8 ++ a ++ b ++ 0x4#3 ++ disp) rfl rfl (up _ (up _ (up _ (up _ rfl)))) (up _ (up _ (up _ (up _ rfl))))
theorem bgen (a b : BitVec 5) (disp : BitVec 11) : Statement (.bgen a b disp) :=
  long (0xCB#8 ++ a ++ b ++ 0x5#3 ++ disp) rfl rfl (up _ (up _ (up _ (up _ rfl)))) (up _ (up _ (up _ (up _ rfl))))
theorem bany (a b : BitVec 5) (disp : BitVec 11) : Statement (.bany a b disp) :=
  long (0xCB#8 ++ a ++ b ++ 0x6#3 ++ disp) rfl rfl (up _ (up _ (up _ (up _ rfl)))) (up _ (up _ (up _ (up _ rfl))))
theorem bnone (a b : BitVec 5) (disp : BitVec 11) : Statement (.bnone a b disp) :=
  long (0xCB#8 ++ a ++ b ++ 0x7#3 ++ disp) rfl rfl (up _ (up _ (up _ (up _ rfl)))) (up _ (up _ (up _ (up _ rfl))))
theorem jmp (disp : BitVec 24) : Statement (.jmp disp) :=
  long (0xCC#8 ++ disp) rfl rfl (up _ rfl) (up _ rfl)
theorem call (disp : BitVec 24) : Statement (.call disp) :=
  long (0xCD#8 ++ disp) rfl rfl (up _ rfl) (up _ rfl)
theorem lp (l cnt : BitVec 5) (span : BitVec 11) : Statement (.lp l cnt span) :=
  long (0xCE#8 ++ l ++ cnt ++ 0x0#3 ++ span) rfl rfl (up _ (up _ (up _ (up _ rfl)))) (up _ (up _ (up _ (up _ rfl))))
theorem lpx (l e : BitVec 5) (span : BitVec 11) : Statement (.lpx l e span) :=
  long (0xCF#8 ++ l ++ e ++ 0x0#3 ++ span) rfl rfl (up _ (up _ (up _ (up _ rfl)))) (up _ (up _ (up _ (up _ rfl))))
theorem jr (a : BitVec 5) : Statement (.jr a) :=
  long (0x1A00#13 ++ a ++ 0x0#14) rfl rfl (up _ (up _ rfl)) (up _ (up _ rfl))
theorem callr (a : BitVec 5) : Statement (.callr a) :=
  long (0x1A00#13 ++ a ++ 0x1#14) rfl rfl (up _ (up _ rfl)) (up _ (up _ rfl))
theorem ret : Statement (.ret) :=
  long (0xD0000002#32) rfl rfl rfl rfl
theorem yield : Statement (.yield) :=
  long (0xD0000003#32) rfl rfl rfl rfl
theorem halt : Statement (.halt) :=
  long (0xD0000004#32) rfl rfl rfl rfl
theorem brk : Statement (.brk) :=
  long (0xD0000005#32) rfl rfl rfl rfl
theorem nop : Statement (.nop) :=
  long (0xD0000006#32) rfl rfl rfl rfl
theorem lpexit (l : BitVec 5) : Statement (.lpexit l) :=
  long (0x1A00#13 ++ l ++ 0x7#14) rfl rfl (up _ (up _ rfl)) (up _ (up _ rfl))
theorem lpidx (d l : BitVec 5) : Statement (.lpidx d l) :=
  long (0xD0#8 ++ d ++ l ++ 0x8#14) rfl rfl (up _ (up _ (up _ rfl))) (up _ (up _ (up _ rfl)))
theorem ldI8 (d base : BitVec 5) (q : BitVec 2) (off : BitVec 9) : Statement (.ldI8 d base q off) :=
  long (0xD1#8 ++ d ++ base ++ q ++ 0x0#3 ++ off) rfl rfl (up _ (up _ (up _ (up _ (up _ rfl))))) (up _ (up _ (up _ (up _ (up _ rfl)))))
theorem ldN8 (d base : BitVec 5) (q : BitVec 2) (off : BitVec 9) : Statement (.ldN8 d base q off) :=
  long (0xD1#8 ++ d ++ base ++ q ++ 0x1#3 ++ off) rfl rfl (up _ (up _ (up _ (up _ (up _ rfl))))) (up _ (up _ (up _ (up _ (up _ rfl)))))
theorem ldI16 (d base : BitVec 5) (q : BitVec 2) (off : BitVec 9) : Statement (.ldI16 d base q off) :=
  long (0xD1#8 ++ d ++ base ++ q ++ 0x2#3 ++ off) rfl rfl (up _ (up _ (up _ (up _ (up _ rfl))))) (up _ (up _ (up _ (up _ (up _ rfl)))))
theorem ldN16 (d base : BitVec 5) (q : BitVec 2) (off : BitVec 9) : Statement (.ldN16 d base q off) :=
  long (0xD1#8 ++ d ++ base ++ q ++ 0x3#3 ++ off) rfl rfl (up _ (up _ (up _ (up _ (up _ rfl))))) (up _ (up _ (up _ (up _ (up _ rfl)))))
theorem ldI32 (d base : BitVec 5) (q : BitVec 2) (off : BitVec 9) : Statement (.ldI32 d base q off) :=
  long (0xD1#8 ++ d ++ base ++ q ++ 0x4#3 ++ off) rfl rfl (up _ (up _ (up _ (up _ (up _ rfl))))) (up _ (up _ (up _ (up _ (up _ rfl)))))
theorem ldN32 (d base : BitVec 5) (q : BitVec 2) (off : BitVec 9) : Statement (.ldN32 d base q off) :=
  long (0xD1#8 ++ d ++ base ++ q ++ 0x5#3 ++ off) rfl rfl (up _ (up _ (up _ (up _ (up _ rfl))))) (up _ (up _ (up _ (up _ (up _ rfl)))))
theorem ldB64 (d base : BitVec 5) (q : BitVec 2) (off : BitVec 9) : Statement (.ldB64 d base q off) :=
  long (0xD1#8 ++ d ++ base ++ q ++ 0x6#3 ++ off) rfl rfl (up _ (up _ (up _ (up _ (up _ rfl))))) (up _ (up _ (up _ (up _ (up _ rfl)))))
theorem stB8 (s base : BitVec 5) (q : BitVec 2) (off : BitVec 9) : Statement (.stB8 s base q off) :=
  long (0xD2#8 ++ s ++ base ++ q ++ 0x0#3 ++ off) rfl rfl (up _ (up _ (up _ (up _ (up _ rfl))))) (up _ (up _ (up _ (up _ (up _ rfl)))))
theorem stB16 (s base : BitVec 5) (q : BitVec 2) (off : BitVec 9) : Statement (.stB16 s base q off) :=
  long (0xD2#8 ++ s ++ base ++ q ++ 0x1#3 ++ off) rfl rfl (up _ (up _ (up _ (up _ (up _ rfl))))) (up _ (up _ (up _ (up _ (up _ rfl)))))
theorem stB32 (s base : BitVec 5) (q : BitVec 2) (off : BitVec 9) : Statement (.stB32 s base q off) :=
  long (0xD2#8 ++ s ++ base ++ q ++ 0x2#3 ++ off) rfl rfl (up _ (up _ (up _ (up _ (up _ rfl))))) (up _ (up _ (up _ (up _ (up _ rfl)))))
theorem stB64 (s base : BitVec 5) (q : BitVec 2) (off : BitVec 9) : Statement (.stB64 s base q off) :=
  long (0xD2#8 ++ s ++ base ++ q ++ 0x3#3 ++ off) rfl rfl (up _ (up _ (up _ (up _ (up _ rfl))))) (up _ (up _ (up _ (up _ (up _ rfl)))))
theorem ldF16 (d base : BitVec 5) (q : BitVec 2) (off : BitVec 9) : Statement (.ldF16 d base q off) :=
  long (0xD3#8 ++ d ++ base ++ q ++ 0x0#3 ++ off) rfl rfl (up _ (up _ (up _ (up _ (up _ rfl))))) (up _ (up _ (up _ (up _ (up _ rfl)))))
theorem ldBf16 (d base : BitVec 5) (q : BitVec 2) (off : BitVec 9) : Statement (.ldBf16 d base q off) :=
  long (0xD3#8 ++ d ++ base ++ q ++ 0x1#3 ++ off) rfl rfl (up _ (up _ (up _ (up _ (up _ rfl))))) (up _ (up _ (up _ (up _ (up _ rfl)))))
theorem ldF32 (d base : BitVec 5) (q : BitVec 2) (off : BitVec 9) : Statement (.ldF32 d base q off) :=
  long (0xD3#8 ++ d ++ base ++ q ++ 0x2#3 ++ off) rfl rfl (up _ (up _ (up _ (up _ (up _ rfl))))) (up _ (up _ (up _ (up _ (up _ rfl)))))
theorem ldF64 (d base : BitVec 5) (q : BitVec 2) (off : BitVec 9) : Statement (.ldF64 d base q off) :=
  long (0xD3#8 ++ d ++ base ++ q ++ 0x3#3 ++ off) rfl rfl (up _ (up _ (up _ (up _ (up _ rfl))))) (up _ (up _ (up _ (up _ (up _ rfl)))))
theorem stF16 (s base : BitVec 5) (q : BitVec 2) (off : BitVec 9) : Statement (.stF16 s base q off) :=
  long (0xD4#8 ++ s ++ base ++ q ++ 0x0#3 ++ off) rfl rfl (up _ (up _ (up _ (up _ (up _ rfl))))) (up _ (up _ (up _ (up _ (up _ rfl)))))
theorem stBf16 (s base : BitVec 5) (q : BitVec 2) (off : BitVec 9) : Statement (.stBf16 s base q off) :=
  long (0xD4#8 ++ s ++ base ++ q ++ 0x1#3 ++ off) rfl rfl (up _ (up _ (up _ (up _ (up _ rfl))))) (up _ (up _ (up _ (up _ (up _ rfl)))))
theorem stF32 (s base : BitVec 5) (q : BitVec 2) (off : BitVec 9) : Statement (.stF32 s base q off) :=
  long (0xD4#8 ++ s ++ base ++ q ++ 0x2#3 ++ off) rfl rfl (up _ (up _ (up _ (up _ (up _ rfl))))) (up _ (up _ (up _ (up _ (up _ rfl)))))
theorem stF64 (s base : BitVec 5) (q : BitVec 2) (off : BitVec 9) : Statement (.stF64 s base q off) :=
  long (0xD4#8 ++ s ++ base ++ q ++ 0x3#3 ++ off) rfl rfl (up _ (up _ (up _ (up _ (up _ rfl))))) (up _ (up _ (up _ (up _ (up _ rfl)))))
theorem staB8 (s base : BitVec 5) (q : BitVec 2) (aw : BitVec 5) (n1 : BitVec 4) : Statement (.staB8 s base q aw n1) :=
  long (0xD5#8 ++ s ++ base ++ q ++ 0x0#3 ++ aw ++ n1) rfl rfl (up _ (up _ (up _ (up _ (up _ (up _ rfl)))))) (up _ (up _ (up _ (up _ (up _ (up _ rfl))))))
theorem staB16 (s base : BitVec 5) (q : BitVec 2) (aw : BitVec 5) (n1 : BitVec 4) : Statement (.staB16 s base q aw n1) :=
  long (0xD5#8 ++ s ++ base ++ q ++ 0x1#3 ++ aw ++ n1) rfl rfl (up _ (up _ (up _ (up _ (up _ (up _ rfl)))))) (up _ (up _ (up _ (up _ (up _ (up _ rfl))))))
theorem staB32 (s base : BitVec 5) (q : BitVec 2) (aw : BitVec 5) (n1 : BitVec 4) : Statement (.staB32 s base q aw n1) :=
  long (0xD5#8 ++ s ++ base ++ q ++ 0x2#3 ++ aw ++ n1) rfl rfl (up _ (up _ (up _ (up _ (up _ (up _ rfl)))))) (up _ (up _ (up _ (up _ (up _ (up _ rfl))))))
theorem staB64 (s base : BitVec 5) (q : BitVec 2) (aw : BitVec 5) (n1 : BitVec 4) : Statement (.staB64 s base q aw n1) :=
  long (0xD5#8 ++ s ++ base ++ q ++ 0x3#3 ++ aw ++ n1) rfl rfl (up _ (up _ (up _ (up _ (up _ (up _ rfl)))))) (up _ (up _ (up _ (up _ (up _ (up _ rfl))))))
theorem amoswap (d a b : BitVec 5) (q : BitVec 2) (w : BitVec 1) : Statement (.amoswap d a b q w) :=
  long (0xD6#8 ++ d ++ a ++ b ++ 0x0#1 ++ q ++ 0x0#5 ++ w) rfl rfl (up _ (up _ (up _ (up _ (up _ (up _ (up _ rfl))))))) (up _ (up _ (up _ (up _ (up _ (up _ (up _ rfl)))))))
theorem amoadd (d a b : BitVec 5) (q : BitVec 2) (w : BitVec 1) : Statement (.amoadd d a b q w) :=
  long (0xD6#8 ++ d ++ a ++ b ++ 0x0#1 ++ q ++ 0x2#5 ++ w) rfl rfl (up _ (up _ (up _ (up _ (up _ (up _ (up _ rfl))))))) (up _ (up _ (up _ (up _ (up _ (up _ (up _ rfl)))))))
theorem amoand (d a b : BitVec 5) (q : BitVec 2) (w : BitVec 1) : Statement (.amoand d a b q w) :=
  long (0xD6#8 ++ d ++ a ++ b ++ 0x0#1 ++ q ++ 0x4#5 ++ w) rfl rfl (up _ (up _ (up _ (up _ (up _ (up _ (up _ rfl))))))) (up _ (up _ (up _ (up _ (up _ (up _ (up _ rfl)))))))
theorem amoor (d a b : BitVec 5) (q : BitVec 2) (w : BitVec 1) : Statement (.amoor d a b q w) :=
  long (0xD6#8 ++ d ++ a ++ b ++ 0x0#1 ++ q ++ 0x6#5 ++ w) rfl rfl (up _ (up _ (up _ (up _ (up _ (up _ (up _ rfl))))))) (up _ (up _ (up _ (up _ (up _ (up _ (up _ rfl)))))))
theorem amoxor (d a b : BitVec 5) (q : BitVec 2) (w : BitVec 1) : Statement (.amoxor d a b q w) :=
  long (0xD6#8 ++ d ++ a ++ b ++ 0x0#1 ++ q ++ 0x8#5 ++ w) rfl rfl (up _ (up _ (up _ (up _ (up _ (up _ (up _ rfl))))))) (up _ (up _ (up _ (up _ (up _ (up _ (up _ rfl)))))))
theorem amominI (d a b : BitVec 5) (q : BitVec 2) (w : BitVec 1) : Statement (.amominI d a b q w) :=
  long (0xD6#8 ++ d ++ a ++ b ++ 0x0#1 ++ q ++ 0xA#5 ++ w) rfl rfl (up _ (up _ (up _ (up _ (up _ (up _ (up _ rfl))))))) (up _ (up _ (up _ (up _ (up _ (up _ (up _ rfl)))))))
theorem amomaxI (d a b : BitVec 5) (q : BitVec 2) (w : BitVec 1) : Statement (.amomaxI d a b q w) :=
  long (0xD6#8 ++ d ++ a ++ b ++ 0x0#1 ++ q ++ 0xC#5 ++ w) rfl rfl (up _ (up _ (up _ (up _ (up _ (up _ (up _ rfl))))))) (up _ (up _ (up _ (up _ (up _ (up _ (up _ rfl)))))))
theorem amominN (d a b : BitVec 5) (q : BitVec 2) (w : BitVec 1) : Statement (.amominN d a b q w) :=
  long (0xD6#8 ++ d ++ a ++ b ++ 0x0#1 ++ q ++ 0xE#5 ++ w) rfl rfl (up _ (up _ (up _ (up _ (up _ (up _ (up _ rfl))))))) (up _ (up _ (up _ (up _ (up _ (up _ (up _ rfl)))))))
theorem amomaxN (d a b : BitVec 5) (q : BitVec 2) (w : BitVec 1) : Statement (.amomaxN d a b q w) :=
  long (0xD6#8 ++ d ++ a ++ b ++ 0x0#1 ++ q ++ 0x10#5 ++ w) rfl rfl (up _ (up _ (up _ (up _ (up _ (up _ (up _ rfl))))))) (up _ (up _ (up _ (up _ (up _ (up _ (up _ rfl)))))))
theorem cas (d a b : BitVec 5) (q : BitVec 2) (w : BitVec 1) : Statement (.cas d a b q w) :=
  long (0xD6#8 ++ d ++ a ++ b ++ 0x0#1 ++ q ++ 0x12#5 ++ w) rfl rfl (up _ (up _ (up _ (up _ (up _ (up _ (up _ rfl))))))) (up _ (up _ (up _ (up _ (up _ (up _ (up _ rfl)))))))
theorem amofadd (d a b : BitVec 5) (q : BitVec 2) (w : BitVec 1) : Statement (.amofadd d a b q w) :=
  long (0xD6#8 ++ d ++ a ++ b ++ 0x0#1 ++ q ++ 0x14#5 ++ w) rfl rfl (up _ (up _ (up _ (up _ (up _ (up _ (up _ rfl))))))) (up _ (up _ (up _ (up _ (up _ (up _ (up _ rfl)))))))
theorem fence (q : BitVec 5) : Statement (.fence q) :=
  long (0x1AE0#13 ++ q ++ 0x0#14) rfl rfl (up _ (up _ rfl)) (up _ (up _ rfl))
theorem fenceI : Statement (.fenceI) :=
  long (0xD7000001#32) rfl rfl rfl rfl
theorem qset (q a : BitVec 5) : Statement (.qset q a) :=
  long (0xD7#8 ++ q ++ a ++ 0x2#14) rfl rfl (up _ (up _ (up _ rfl))) (up _ (up _ (up _ rfl)))
theorem qget (d q : BitVec 5) : Statement (.qget d q) :=
  long (0xD7#8 ++ d ++ q ++ 0x3#14) rfl rfl (up _ (up _ (up _ rfl))) (up _ (up _ (up _ rfl)))
theorem fill (r : BitVec 5) : Statement (.fill r) :=
  long (0xD8#8 ++ r ++ 0x0#19) rfl rfl (up _ (up _ rfl)) (up _ (up _ rfl))
theorem drain (r : BitVec 5) : Statement (.drain r) :=
  long (0xD8#8 ++ r ++ 0x1#19) rfl rfl (up _ (up _ rfl)) (up _ (up _ rfl))
theorem peek (d a : BitVec 5) : Statement (.peek d a) :=
  long (0xD8#8 ++ d ++ a ++ 0x2#14) rfl rfl (up _ (up _ (up _ rfl))) (up _ (up _ (up _ rfl)))
theorem msend (tag a b : BitVec 5) : Statement (.msend tag a b) :=
  long (0xD8#8 ++ tag ++ a ++ b ++ 0x3#9) rfl rfl (up _ (up _ (up _ (up _ rfl)))) (up _ (up _ (up _ (up _ rfl))))
theorem mwait (d : BitVec 5) : Statement (.mwait d) :=
  long (0xD8#8 ++ d ++ 0x4#19) rfl rfl (up _ (up _ rfl)) (up _ (up _ rfl))
theorem mget (d h : BitVec 5) : Statement (.mget d h) :=
  long (0xD8#8 ++ d ++ h ++ 0x5#14) rfl rfl (up _ (up _ (up _ rfl))) (up _ (up _ (up _ rfl)))
theorem arm (a b : BitVec 5) : Statement (.arm a b) :=
  long (0x1B00#13 ++ a ++ b ++ 0x6#9) rfl rfl (up _ (up _ (up _ rfl))) (up _ (up _ (up _ rfl)))
theorem arrive (q a b : BitVec 5) : Statement (.arrive q a b) :=
  long (0xD8#8 ++ q ++ a ++ b ++ 0x7#9) rfl rfl (up _ (up _ (up _ (up _ rfl)))) (up _ (up _ (up _ (up _ rfl))))
theorem await (d a b : BitVec 5) : Statement (.await d a b) :=
  long (0xD8#8 ++ d ++ a ++ b ++ 0x8#9) rfl rfl (up _ (up _ (up _ (up _ rfl)))) (up _ (up _ (up _ (up _ rfl))))
theorem wtadd (d a : BitVec 5) : Statement (.wtadd d a) :=
  long (0xD8#8 ++ d ++ a ++ 0x9#14) rfl rfl (up _ (up _ (up _ rfl))) (up _ (up _ (up _ rfl)))
theorem wtdel (d a : BitVec 5) : Statement (.wtdel d a) :=
  long (0xD8#8 ++ d ++ a ++ 0xA#14) rfl rfl (up _ (up _ (up _ rfl))) (up _ (up _ (up _ rfl)))
theorem start (d a b : BitVec 5) : Statement (.start d a b) :=
  long (0xD9#8 ++ d ++ a ++ b ++ 0x0#9) rfl rfl (up _ (up _ (up _ (up _ rfl)))) (up _ (up _ (up _ (up _ rfl))))
theorem reap (d a : BitVec 5) : Statement (.reap d a) :=
  long (0xD9#8 ++ d ++ a ++ 0x1#14) rfl rfl (up _ (up _ (up _ rfl))) (up _ (up _ (up _ rfl)))
theorem migrate (a : BitVec 5) : Statement (.migrate a) :=
  long (0x1B20#13 ++ a ++ 0x2#14) rfl rfl (up _ (up _ rfl)) (up _ (up _ rfl))
theorem spawn (red a b : BitVec 5) : Statement (.spawn red a b) :=
  long (0xD9#8 ++ red ++ a ++ b ++ 0x3#9) rfl rfl (up _ (up _ (up _ (up _ rfl)))) (up _ (up _ (up _ (up _ rfl))))
theorem sret (a : BitVec 5) : Statement (.sret a) :=
  long (0x1B20#13 ++ a ++ 0x4#14) rfl rfl (up _ (up _ rfl)) (up _ (up _ rfl))
theorem sync (d : BitVec 5) : Statement (.sync d) :=
  long (0xD9#8 ++ d ++ 0x5#19) rfl rfl (up _ (up _ rfl)) (up _ (up _ rfl))
theorem chopen (a b : BitVec 5) : Statement (.chopen a b) :=
  long (0x1B20#13 ++ a ++ b ++ 0x6#9) rfl rfl (up _ (up _ (up _ rfl))) (up _ (up _ (up _ rfl)))
theorem chaccept (a b : BitVec 5) : Statement (.chaccept a b) :=
  long (0x1B20#13 ++ a ++ b ++ 0x7#9) rfl rfl (up _ (up _ (up _ rfl))) (up _ (up _ (up _ rfl)))
theorem chclose (port : BitVec 5) : Statement (.chclose port) :=
  long (0x1B20#13 ++ port ++ 0x8#14) rfl rfl (up _ (up _ rfl)) (up _ (up _ rfl))
theorem chstat (d port : BitVec 5) : Statement (.chstat d port) :=
  long (0xD9#8 ++ d ++ port ++ 0x9#14) rfl rfl (up _ (up _ (up _ rfl))) (up _ (up _ (up _ rfl)))
theorem bar (a : BitVec 5) : Statement (.bar a) :=
  long (0x1B40#13 ++ a ++ 0x0#14) rfl rfl (up _ (up _ rfl)) (up _ (up _ rfl))
theorem allred (tok src dst : BitVec 5) (e : BitVec 3) (bar mode : BitVec 1) : Statement (.allred tok src dst e bar mode) :=
  long (0xDA#8 ++ tok ++ src ++ dst ++ e ++ 0x4#4 ++ bar ++ mode) rfl rfl (up _ (up _ (up _ (up _ (up _ (up _ (up _ rfl))))))) (up _ (up _ (up _ (up _ (up _ (up _ (up _ rfl)))))))
theorem red (tok src dst : BitVec 5) (e : BitVec 3) (bar mode : BitVec 1) : Statement (.red tok src dst e bar mode) :=
  long (0xDA#8 ++ tok ++ src ++ dst ++ e ++ 0x5#4 ++ bar ++ mode) rfl rfl (up _ (up _ (up _ (up _ (up _ (up _ (up _ rfl))))))) (up _ (up _ (up _ (up _ (up _ (up _ (up _ rfl)))))))
theorem bcast (tok src dst : BitVec 5) (e : BitVec 3) (bar mode : BitVec 1) : Statement (.bcast tok src dst e bar mode) :=
  long (0xDA#8 ++ tok ++ src ++ dst ++ e ++ 0x6#4 ++ bar ++ mode) rfl rfl (up _ (up _ (up _ (up _ (up _ (up _ (up _ rfl))))))) (up _ (up _ (up _ (up _ (up _ (up _ (up _ rfl)))))))
theorem allgat (tok src dst : BitVec 5) (e : BitVec 3) (bar mode : BitVec 1) : Statement (.allgat tok src dst e bar mode) :=
  long (0xDA#8 ++ tok ++ src ++ dst ++ e ++ 0x7#4 ++ bar ++ mode) rfl rfl (up _ (up _ (up _ (up _ (up _ (up _ (up _ rfl))))))) (up _ (up _ (up _ (up _ (up _ (up _ (up _ rfl)))))))
theorem vadd (d a b : BitVec 5) (rm : BitVec 3) (ty : BitVec 2) : Statement (.vadd d a b rm ty) :=
  long (0xDB#8 ++ d ++ a ++ b ++ rm ++ 0x0#4 ++ ty) rfl rfl (up _ (up _ (up _ (up _ (up _ (up _ rfl)))))) (up _ (up _ (up _ (up _ (up _ (up _ rfl))))))
theorem vsub (d a b : BitVec 5) (rm : BitVec 3) (ty : BitVec 2) : Statement (.vsub d a b rm ty) :=
  long (0xDB#8 ++ d ++ a ++ b ++ rm ++ 0x1#4 ++ ty) rfl rfl (up _ (up _ (up _ (up _ (up _ (up _ rfl)))))) (up _ (up _ (up _ (up _ (up _ (up _ rfl))))))
theorem vmul (d a b : BitVec 5) (rm : BitVec 3) (ty : BitVec 2) : Statement (.vmul d a b rm ty) :=
  long (0xDB#8 ++ d ++ a ++ b ++ rm ++ 0x2#4 ++ ty) rfl rfl (up _ (up _ (up _ (up _ (up _ (up _ rfl)))))) (up _ (up _ (up _ (up _ (up _ (up _ rfl))))))
theorem vdiv (d a b : BitVec 5) (rm : BitVec 3) (ty : BitVec 1) : Statement (.vdiv d a b rm ty) :=
  long (0xDB#8 ++ d ++ a ++ b ++ rm ++ 0x6#5 ++ ty) rfl rfl (up _ (up _ (up _ (up _ (up _ (up _ rfl)))))) (up _ (up _ (up _ (up _ (up _ (up _ rfl))))))
theorem vsqrt (d a : BitVec 5) (rm : BitVec 3) (ty : BitVec 1) : Statement (.vsqrt d a rm ty) :=
  long (0xDB#8 ++ d ++ a ++ 0x0#5 ++ rm ++ 0x8#5 ++ ty) rfl rfl (up _ (up _ (up _ (up _ (up _ (up _ rfl)))))) (up _ (up _ (up _ (up _ (up _ (up _ rfl))))))
theorem vmin (d a b : BitVec 5) (ty : BitVec 2) : Statement (.vmin d a b ty) :=
  long (0xDB#8 ++ d ++ a ++ b ++ 0x5#7 ++ ty) rfl rfl (up _ (up _ (up _ (up _ (up _ rfl))))) (up _ (up _ (up _ (up _ (up _ rfl)))))
theorem vmax (d a b : BitVec 5) (ty : BitVec 2) : Statement (.vmax d a b ty) :=
  long (0xDB#8 ++ d ++ a ++ b ++ 0x6#7 ++ ty) rfl rfl (up _ (up _ (up _ (up _ (up _ rfl))))) (up _ (up _ (up _ (up _ (up _ rfl)))))
theorem vmac (d a b : BitVec 5) (rm : BitVec 3) (ty : BitVec 2) : Statement (.vmac d a b rm ty) :=
  long (0xDB#8 ++ d ++ a ++ b ++ rm ++ 0x7#4 ++ ty) rfl rfl (up _ (up _ (up _ (up _ (up _ (up _ rfl)))))) (up _ (up _ (up _ (up _ (up _ (up _ rfl))))))
theorem vceq (d a b : BitVec 5) (ty : BitVec 2) : Statement (.vceq d a b ty) :=
  long (0xDB#8 ++ d ++ a ++ b ++ 0x8#7 ++ ty) rfl rfl (up _ (up _ (up _ (up _ (up _ rfl))))) (up _ (up _ (up _ (up _ (up _ rfl)))))
theorem vclt (d a b : BitVec 5) (ty : BitVec 2) : Statement (.vclt d a b ty) :=
  long (0xDB#8 ++ d ++ a ++ b ++ 0x9#7 ++ ty) rfl rfl (up _ (up _ (up _ (up _ (up _ rfl))))) (up _ (up _ (up _ (up _ (up _ rfl)))))
theorem vcle (d a b : BitVec 5) (ty : BitVec 2) : Statement (.vcle d a b ty) :=
  long (0xDB#8 ++ d ++ a ++ b ++ 0xA#7 ++ ty) rfl rfl (up _ (up _ (up _ (up _ (up _ rfl))))) (up _ (up _ (up _ (up _ (up _ rfl)))))
theorem vsel (d a b : BitVec 5) (ty : BitVec 2) : Statement (.vsel d a b ty) :=
  long (0xDB#8 ++ d ++ a ++ b ++ 0xB#7 ++ ty) rfl rfl (up _ (up _ (up _ (up _ (up _ rfl))))) (up _ (up _ (up _ (up _ (up _ rfl)))))
theorem vand (d a b : BitVec 5) (ty : BitVec 1) : Statement (.vand d a b ty) :=
  long (0xDB#8 ++ d ++ a ++ b ++ 0x19#8 ++ ty) rfl rfl (up _ (up _ (up _ (up _ (up _ rfl))))) (up _ (up _ (up _ (up _ (up _ rfl)))))
theorem vor (d a b : BitVec 5) (ty : BitVec 1) : Statement (.vor d a b ty) :=
  long (0xDB#8 ++ d ++ a ++ b ++ 0x1B#8 ++ ty) rfl rfl (up _ (up _ (up _ (up _ (up _ rfl))))) (up _ (up _ (up _ (up _ (up _ rfl)))))
theorem vxor (d a b : BitVec 5) (ty : BitVec 1) : Statement (.vxor d a b ty) :=
  long (0xDB#8 ++ d ++ a ++ b ++ 0x1D#8 ++ ty) rfl rfl (up _ (up _ (up _ (up _ (up _ rfl))))) (up _ (up _ (up _ (up _ (up _ rfl)))))
theorem vcvt (d a : BitVec 5) (src : BitVec 2) (rm : BitVec 3) (ty : BitVec 2) : Statement (.vcvt d a src rm ty) :=
  long (0xDB#8 ++ d ++ a ++ 0x0#3 ++ src ++ rm ++ 0xF#4 ++ ty) rfl rfl (up _ (up _ (up _ (up _ (up _ (up _ (up _ rfl))))))) (up _ (up _ (up _ (up _ (up _ (up _ (up _ rfl)))))))
theorem vectorCompletion (thr : Nat) : Statement (.vectorCompletion thr) :=
  event rfl rfl
theorem vclaim (d a : BitVec 5) : Statement (.vclaim d a) :=
  long (0xDC#8 ++ d ++ a ++ 0x0#14) rfl rfl (up _ (up _ (up _ rfl))) (up _ (up _ (up _ rfl)))
theorem vgrant (d : BitVec 5) : Statement (.vgrant d) :=
  long (0xDC#8 ++ d ++ 0x1#19) rfl rfl (up _ (up _ rfl)) (up _ (up _ rfl))
theorem vlset (d a : BitVec 5) : Statement (.vlset d a) :=
  long (0xDC#8 ++ d ++ a ++ 0x2#14) rfl rfl (up _ (up _ (up _ rfl))) (up _ (up _ (up _ rfl)))
theorem vlget (d : BitVec 5) : Statement (.vlget d) :=
  long (0xDC#8 ++ d ++ 0x3#19) rfl rfl (up _ (up _ rfl)) (up _ (up _ rfl))
theorem vsget (d : BitVec 5) : Statement (.vsget d) :=
  long (0xDC#8 ++ d ++ 0x4#19) rfl rfl (up _ (up _ rfl)) (up _ (up _ rfl))
theorem vsset (a : BitVec 5) : Statement (.vsset a) :=
  long (0x1B80#13 ++ a ++ 0x5#14) rfl rfl (up _ (up _ rfl)) (up _ (up _ rfl))
theorem pset (d a : BitVec 5) : Statement (.pset d a) :=
  long (0xDC#8 ++ d ++ a ++ 0x6#14) rfl rfl (up _ (up _ (up _ rfl))) (up _ (up _ (up _ rfl)))
theorem pget (d a : BitVec 5) : Statement (.pget d a) :=
  long (0xDC#8 ++ d ++ a ++ 0x7#14) rfl rfl (up _ (up _ (up _ rfl))) (up _ (up _ (up _ rfl)))
theorem vredsum (d a : BitVec 5) (rm : BitVec 3) (ty : BitVec 2) : Statement (.vredsum d a rm ty) :=
  long (0xDC#8 ++ d ++ a ++ 0x0#5 ++ rm ++ 0x2#4 ++ ty) rfl rfl (up _ (up _ (up _ (up _ (up _ (up _ rfl)))))) (up _ (up _ (up _ (up _ (up _ (up _ rfl))))))
theorem vredmin (d a : BitVec 5) (ty : BitVec 2) : Statement (.vredmin d a ty) :=
  long (0xDC#8 ++ d ++ a ++ 0x3#12 ++ ty) rfl rfl (up _ (up _ (up _ (up _ rfl)))) (up _ (up _ (up _ (up _ rfl))))
theorem vredmax (d a : BitVec 5) (ty : BitVec 2) : Statement (.vredmax d a ty) :=
  long (0xDC#8 ++ d ++ a ++ 0x4#12 ++ ty) rfl rfl (up _ (up _ (up _ (up _ rfl)))) (up _ (up _ (up _ (up _ rfl))))
theorem vshuf (d a b : BitVec 5) (w : BitVec 1) : Statement (.vshuf d a b w) :=
  long (0xDC#8 ++ d ++ a ++ b ++ 0xA#8 ++ w) rfl rfl (up _ (up _ (up _ (up _ (up _ rfl))))) (up _ (up _ (up _ (up _ (up _ rfl)))))
theorem vgather (d a b : BitVec 5) (w : BitVec 1) : Statement (.vgather d a b w) :=
  long (0xDC#8 ++ d ++ a ++ b ++ 0xB#8 ++ w) rfl rfl (up _ (up _ (up _ (up _ (up _ rfl))))) (up _ (up _ (up _ (up _ (up _ rfl)))))
theorem vpadd (d a b : BitVec 5) (sat pt : BitVec 2) : Statement (.vpadd d a b sat pt) :=
  long (0xDD#8 ++ d ++ a ++ b ++ sat ++ 0x0#5 ++ pt) rfl rfl (up _ (up _ (up _ (up _ (up _ (up _ rfl)))))) (up _ (up _ (up _ (up _ (up _ (up _ rfl))))))
theorem vpsub (d a b : BitVec 5) (sat pt : BitVec 2) : Statement (.vpsub d a b sat pt) :=
  long (0xDD#8 ++ d ++ a ++ b ++ sat ++ 0x1#5 ++ pt) rfl rfl (up _ (up _ (up _ (up _ (up _ (up _ rfl)))))) (up _ (up _ (up _ (up _ (up _ (up _ rfl))))))
theorem vpmul (d a b : BitVec 5) (sat pt : BitVec 2) : Statement (.vpmul d a b sat pt) :=
  long (0xDD#8 ++ d ++ a ++ b ++ sat ++ 0x2#5 ++ pt) rfl rfl (up _ (up _ (up _ (up _ (up _ (up _ rfl)))))) (up _ (up _ (up _ (up _ (up _ (up _ rfl))))))
theorem vpmac (d a b : BitVec 5) (sat pt : BitVec 2) : Statement (.vpmac d a b sat pt) :=
  long (0xDD#8 ++ d ++ a ++ b ++ sat ++ 0x3#5 ++ pt) rfl rfl (up _ (up _ (up _ (up _ (up _ (up _ rfl)))))) (up _ (up _ (up _ (up _ (up _ (up _ rfl))))))
theorem vexp2 (d a : BitVec 5) : Statement (.vexp2 d a) :=
  long (0xDD#8 ++ d ++ a ++ 0x20#14) rfl rfl (up _ (up _ (up _ rfl))) (up _ (up _ (up _ rfl)))
theorem vlog2 (d a : BitVec 5) : Statement (.vlog2 d a) :=
  long (0xDD#8 ++ d ++ a ++ 0x21#14) rfl rfl (up _ (up _ (up _ rfl))) (up _ (up _ (up _ rfl)))
theorem vrcp (d a : BitVec 5) : Statement (.vrcp d a) :=
  long (0xDD#8 ++ d ++ a ++ 0x22#14) rfl rfl (up _ (up _ (up _ rfl))) (up _ (up _ (up _ rfl)))
theorem vrsqrt (d a : BitVec 5) : Statement (.vrsqrt d a) :=
  long (0xDD#8 ++ d ++ a ++ 0x23#14) rfl rfl (up _ (up _ (up _ rfl))) (up _ (up _ (up _ rfl)))
theorem vtanh (d a : BitVec 5) : Statement (.vtanh d a) :=
  long (0xDD#8 ++ d ++ a ++ 0x24#14) rfl rfl (up _ (up _ (up _ rfl))) (up _ (up _ (up _ rfl)))
theorem tclaim (t : BitVec 5) : Statement (.tclaim t) :=
  long (0xDE#8 ++ t ++ 0x0#19) rfl rfl (up _ (up _ rfl)) (up _ (up _ rfl))
theorem trelease (t : BitVec 5) : Statement (.trelease t) :=
  long (0xDE#8 ++ t ++ 0x1#19) rfl rfl (up _ (up _ rfl)) (up _ (up _ rfl))
theorem tshape (t : BitVec 5) (e : BitVec 3) : Statement (.tshape t e) :=
  long (0xDE#8 ++ t ++ 0x0#10 ++ e ++ 0x2#6) rfl rfl (up _ (up _ (up _ (up _ rfl)))) (up _ (up _ (up _ (up _ rfl))))
theorem tinfo (d t : BitVec 5) : Statement (.tinfo d t) :=
  long (0xDE#8 ++ d ++ t ++ 0x3#14) rfl rfl (up _ (up _ (up _ rfl))) (up _ (up _ (up _ rfl)))
theorem tld (t a b : BitVec 5) : Statement (.tld t a b) :=
  long (0xDE#8 ++ t ++ a ++ b ++ 0x4#9) rfl rfl (up _ (up _ (up _ (up _ rfl)))) (up _ (up _ (up _ (up _ rfl))))
theorem tsave (t a b : BitVec 5) : Statement (.tsave t a b) :=
  long (0xDE#8 ++ t ++ a ++ b ++ 0x5#9) rfl rfl (up _ (up _ (up _ (up _ rfl)))) (up _ (up _ (up _ (up _ rfl))))
theorem trowld (t a p : BitVec 5) : Statement (.trowld t a p) :=
  long (0xDE#8 ++ t ++ a ++ p ++ 0x6#9) rfl rfl (up _ (up _ (up _ (up _ rfl)))) (up _ (up _ (up _ (up _ rfl))))
theorem trowst (t a p : BitVec 5) : Statement (.trowst t a p) :=
  long (0xDE#8 ++ t ++ a ++ p ++ 0x7#9) rfl rfl (up _ (up _ (up _ (up _ rfl)))) (up _ (up _ (up _ (up _ rfl))))
theorem tcolld (t a p : BitVec 5) : Statement (.tcolld t a p) :=
  long (0xDE#8 ++ t ++ a ++ p ++ 0x8#9) rfl rfl (up _ (up _ (up _ (up _ rfl)))) (up _ (up _ (up _ (up _ rfl))))
theorem tcolst (t a p : BitVec 5) : Statement (.tcolst t a p) :=
  long (0xDE#8 ++ t ++ a ++ p ++ 0x9#9) rfl rfl (up _ (up _ (up _ (up _ rfl)))) (up _ (up _ (up _ (up _ rfl))))
theorem cvq (d p : BitVec 5) (sat : BitVec 2) (rnd : BitVec 1) (e : BitVec 3) (wide : BitVec 1) (fmt : BitVec 2) : Statement (.cvq d p sat rnd e wide fmt) :=
  long (0xDF#8 ++ d ++ p ++ 0x0#2 ++ sat ++ rnd ++ e ++ 0x0#3 ++ wide ++ fmt) rfl rfl (up _ (up _ (up _ (up _ (up _ (up _ (up _ (up _ (up _ rfl))))))))) (up _ (up _ (up _ (up _ (up _ (up _ (up _ (up _ (up _ rfl)))))))))
theorem cvd (p src : BitVec 5) (e : BitVec 3) (wide : BitVec 1) (fmt : BitVec 2) : Statement (.cvd p src e wide fmt) :=
  long (0xDF#8 ++ p ++ src ++ 0x0#5 ++ e ++ 0x1#3 ++ wide ++ fmt) rfl rfl (up _ (up _ (up _ (up _ (up _ (up _ (up _ rfl))))))) (up _ (up _ (up _ (up _ (up _ (up _ (up _ rfl)))))))
theorem mmaE2m1 (tok a ta tb : BitVec 5) (mode : BitVec 1) : Statement (.mmaE2m1 tok a ta tb mode) :=
  long (0xE0#8 ++ tok ++ a ++ ta ++ tb ++ mode ++ 0x0#3) rfl rfl (up _ (up _ (up _ (up _ (up _ (up _ rfl)))))) (up _ (up _ (up _ (up _ (up _ (up _ rfl))))))
theorem mmaE4m3 (tok a ta tb : BitVec 5) (mode : BitVec 1) : Statement (.mmaE4m3 tok a ta tb mode) :=
  long (0xE0#8 ++ tok ++ a ++ ta ++ tb ++ mode ++ 0x1#3) rfl rfl (up _ (up _ (up _ (up _ (up _ (up _ rfl)))))) (up _ (up _ (up _ (up _ (up _ (up _ rfl))))))
theorem mmaE5m2 (tok a ta tb : BitVec 5) (mode : BitVec 1) : Statement (.mmaE5m2 tok a ta tb mode) :=
  long (0xE0#8 ++ tok ++ a ++ ta ++ tb ++ mode ++ 0x2#3) rfl rfl (up _ (up _ (up _ (up _ (up _ (up _ rfl)))))) (up _ (up _ (up _ (up _ (up _ (up _ rfl))))))
theorem mmaE4m3e5m2 (tok a ta tb : BitVec 5) (mode : BitVec 1) : Statement (.mmaE4m3e5m2 tok a ta tb mode) :=
  long (0xE0#8 ++ tok ++ a ++ ta ++ tb ++ mode ++ 0x3#3) rfl rfl (up _ (up _ (up _ (up _ (up _ (up _ rfl)))))) (up _ (up _ (up _ (up _ (up _ (up _ rfl))))))
theorem mmaI8 (tok a ta tb : BitVec 5) (mode : BitVec 1) : Statement (.mmaI8 tok a ta tb mode) :=
  long (0xE0#8 ++ tok ++ a ++ ta ++ tb ++ mode ++ 0x4#3) rfl rfl (up _ (up _ (up _ (up _ (up _ (up _ rfl)))))) (up _ (up _ (up _ (up _ (up _ (up _ rfl))))))
theorem mmaBf16 (tok a ta tb : BitVec 5) (mode : BitVec 1) : Statement (.mmaBf16 tok a ta tb mode) :=
  long (0xE0#8 ++ tok ++ a ++ ta ++ tb ++ mode ++ 0x5#3) rfl rfl (up _ (up _ (up _ (up _ (up _ (up _ rfl)))))) (up _ (up _ (up _ (up _ (up _ (up _ rfl))))))
theorem mmaF32 (tok a ta tb : BitVec 5) (mode : BitVec 1) : Statement (.mmaF32 tok a ta tb mode) :=
  long (0xE0#8 ++ tok ++ a ++ ta ++ tb ++ mode ++ 0x6#3) rfl rfl (up _ (up _ (up _ (up _ (up _ (up _ rfl)))))) (up _ (up _ (up _ (up _ (up _ (up _ rfl))))))
theorem mmaF64 (tok a ta tb : BitVec 5) (mode : BitVec 1) : Statement (.mmaF64 tok a ta tb mode) :=
  long (0xE0#8 ++ tok ++ a ++ ta ++ tb ++ mode ++ 0x7#3) rfl rfl (up _ (up _ (up _ (up _ (up _ (up _ rfl)))))) (up _ (up _ (up _ (up _ (up _ (up _ rfl))))))
theorem twait (d a : BitVec 5) : Statement (.twait d a) :=
  long (0xE1#8 ++ d ++ a ++ 0x0#14) rfl rfl (up _ (up _ (up _ rfl))) (up _ (up _ (up _ rfl)))
theorem twaitT (d a : BitVec 5) : Statement (.twaitT d a) :=
  long (0xE1#8 ++ d ++ a ++ 0x1#14) rfl rfl (up _ (up _ (up _ rfl))) (up _ (up _ (up _ rfl)))
theorem ttest (d a : BitVec 5) : Statement (.ttest d a) :=
  long (0xE1#8 ++ d ++ a ++ 0x2#14) rfl rfl (up _ (up _ (up _ rfl))) (up _ (up _ (up _ rfl)))
theorem tcancel (d a : BitVec 5) : Statement (.tcancel d a) :=
  long (0xE1#8 ++ d ++ a ++ 0x3#14) rfl rfl (up _ (up _ (up _ rfl))) (up _ (up _ (up _ rfl)))
theorem tdetach (d a : BitVec 5) : Statement (.tdetach d a) :=
  long (0xE1#8 ++ d ++ a ++ 0x4#14) rfl rfl (up _ (up _ (up _ rfl))) (up _ (up _ (up _ rfl)))
theorem tadopt (d a : BitVec 5) : Statement (.tadopt d a) :=
  long (0xE1#8 ++ d ++ a ++ 0x5#14) rfl rfl (up _ (up _ (up _ rfl))) (up _ (up _ (up _ rfl)))
theorem tprio (d a b : BitVec 5) : Statement (.tprio d a b) :=
  long (0xE1#8 ++ d ++ a ++ b ++ 0x6#9) rfl rfl (up _ (up _ (up _ (up _ rfl)))) (up _ (up _ (up _ (up _ rfl))))
theorem tafter (d a b : BitVec 5) : Statement (.tafter d a b) :=
  long (0xE1#8 ++ d ++ a ++ b ++ 0x7#9) rfl rfl (up _ (up _ (up _ (up _ rfl)))) (up _ (up _ (up _ (up _ rfl))))
theorem tfault (d a : BitVec 5) : Statement (.tfault d a) :=
  long (0xE1#8 ++ d ++ a ++ 0x8#14) rfl rfl (up _ (up _ (up _ rfl))) (up _ (up _ (up _ rfl)))
theorem tlist (d a : BitVec 5) : Statement (.tlist d a) :=
  long (0xE1#8 ++ d ++ a ++ 0x9#14) rfl rfl (up _ (up _ (up _ rfl))) (up _ (up _ (up _ rfl)))
theorem copy (tok src dst : BitVec 5) (e : BitVec 3) (bar mode : BitVec 1) : Statement (.copy tok src dst e bar mode) :=
  long (0xE2#8 ++ tok ++ src ++ dst ++ e ++ 0x0#4 ++ bar ++ mode) rfl rfl (up _ (up _ (up _ (up _ (up _ (up _ (up _ rfl))))))) (up _ (up _ (up _ (up _ (up _ (up _ (up _ rfl)))))))
theorem cset (tok src dst : BitVec 5) (e : BitVec 3) (bar mode : BitVec 1) : Statement (.cset tok src dst e bar mode) :=
  long (0xE2#8 ++ tok ++ src ++ dst ++ e ++ 0x1#4 ++ bar ++ mode) rfl rfl (up _ (up _ (up _ (up _ (up _ (up _ (up _ rfl))))))) (up _ (up _ (up _ (up _ (up _ (up _ (up _ rfl)))))))
theorem adict (mask a b : BitVec 5) : Statement (.adict mask a b) :=
  long (0xE3#8 ++ mask ++ a ++ b ++ 0x0#9) rfl rfl (up _ (up _ (up _ (up _ rfl)))) (up _ (up _ (up _ (up _ rfl))))
theorem acfg (tok a : BitVec 5) (e : BitVec 3) : Statement (.acfg tok a e) :=
  long (0xE3#8 ++ tok ++ a ++ 0x0#5 ++ e ++ 0x1#6) rfl rfl (up _ (up _ (up _ (up _ (up _ rfl))))) (up _ (up _ (up _ (up _ (up _ rfl)))))
theorem aset (p a b : BitVec 5) : Statement (.aset p a b) :=
  long (0xE3#8 ++ p ++ a ++ b ++ 0x2#9) rfl rfl (up _ (up _ (up _ (up _ rfl)))) (up _ (up _ (up _ (up _ rfl))))
theorem ascale (p a b : BitVec 5) : Statement (.ascale p a b) :=
  long (0xE3#8 ++ p ++ a ++ b ++ 0x3#9) rfl rfl (up _ (up _ (up _ (up _ rfl)))) (up _ (up _ (up _ (up _ rfl))))
theorem arun (tok a b : BitVec 5) (e : BitVec 3) : Statement (.arun tok a b e) :=
  long (0xE3#8 ++ tok ++ a ++ b ++ e ++ 0x4#6) rfl rfl (up _ (up _ (up _ (up _ (up _ rfl))))) (up _ (up _ (up _ (up _ (up _ rfl)))))
theorem asample (a b : BitVec 5) (e : BitVec 3) : Statement (.asample a b e) :=
  long (0x1C60#13 ++ a ++ b ++ e ++ 0x5#6) rfl rfl (up _ (up _ (up _ (up _ rfl)))) (up _ (up _ (up _ (up _ rfl))))
theorem astop (d a : BitVec 5) : Statement (.astop d a) :=
  long (0xE3#8 ++ d ++ a ++ 0x6#14) rfl rfl (up _ (up _ (up _ rfl))) (up _ (up _ (up _ rfl)))
theorem acal (d a : BitVec 5) : Statement (.acal d a) :=
  long (0xE3#8 ++ d ++ a ++ 0x7#14) rfl rfl (up _ (up _ (up _ rfl))) (up _ (up _ (up _ rfl)))
theorem astat (d a : BitVec 5) : Statement (.astat d a) :=
  long (0xE3#8 ++ d ++ a ++ 0x8#14) rfl rfl (up _ (up _ (up _ rfl))) (up _ (up _ (up _ rfl)))
theorem mfs (d : BitVec 5) (n : BitVec 10) : Statement (.mfs d n) :=
  long (0xE4#8 ++ d ++ n ++ 0x0#9) rfl rfl (up _ (up _ (up _ rfl))) (up _ (up _ (up _ rfl)))
theorem mts (s : BitVec 5) (n : BitVec 10) : Statement (.mts s n) :=
  long (0xE4#8 ++ s ++ n ++ 0x1#9) rfl rfl (up _ (up _ (up _ rfl))) (up _ (up _ (up _ rfl)))
theorem epfqRead (thr : Nat) : Statement (.epfqRead thr) :=
  event rfl rfl
theorem budgetWrite (v : BitVec 64) : Statement (.budgetWrite v) :=
  event rfl rfl
theorem pfloorWrite (v : BitVec 64) : Statement (.pfloorWrite v) :=
  event rfl rfl
theorem pweightWrite (v : BitVec 64) : Statement (.pweightWrite v) :=
  event rfl rfl
theorem eret : Statement (.eret) :=
  long (0xE4000002#32) rfl rfl rfl rfl
theorem trap (n : BitVec 10) : Statement (.trap n) :=
  long (0x1C80#13 ++ n ++ 0x3#9) rfl rfl (up _ (up _ rfl)) (up _ (up _ rfl))
theorem tlbinv (a b : BitVec 5) : Statement (.tlbinv a b) :=
  long (0x1C80#13 ++ a ++ b ++ 0x4#9) rfl rfl (up _ (up _ (up _ rfl))) (up _ (up _ (up _ rfl)))
theorem wdset (d a : BitVec 5) : Statement (.wdset d a) :=
  long (0xE4#8 ++ d ++ a ++ 0x5#14) rfl rfl (up _ (up _ (up _ rfl))) (up _ (up _ (up _ rfl)))
theorem kill (a : BitVec 5) : Statement (.kill a) :=
  long (0x1C80#13 ++ a ++ 0x6#14) rfl rfl (up _ (up _ rfl)) (up _ (up _ rfl))
theorem preempt (a : BitVec 5) : Statement (.preempt a) :=
  long (0x1C80#13 ++ a ++ 0x7#14) rfl rfl (up _ (up _ rfl)) (up _ (up _ rfl))
theorem ext (a : BitVec 5) (e : BitVec 3) : Statement (.ext a e) :=
  long (0x1CA0#13 ++ a ++ 0x0#5 ++ e ++ 0x0#6) rfl rfl (up _ (up _ (up _ (up _ rfl)))) (up _ (up _ (up _ (up _ rfl))))
theorem exr (d : BitVec 5) (e : BitVec 3) : Statement (.exr d e) :=
  long (0xE5#8 ++ d ++ 0x0#10 ++ e ++ 0x1#6) rfl rfl (up _ (up _ (up _ (up _ rfl)))) (up _ (up _ (up _ (up _ rfl))))
theorem exti (e : BitVec 3) (h : BitVec 2) (mode : BitVec 1) (imm : BitVec 16) : Statement (.exti e h mode imm) :=
  long (0xE6#8 ++ e ++ h ++ mode ++ 0x0#2 ++ imm) rfl rfl (up _ (up _ (up _ (up _ (up _ rfl))))) (up _ (up _ (up _ (up _ (up _ rfl)))))
theorem addMove_16 (d a : BitVec 5) : Statement (.addMove_16 d a) :=
  short (0x1#6 ++ d ++ a) rfl rfl rfl (.inl (up _ (up _ rfl)))
theorem add_16 (d a : BitVec 5) : Statement (.add_16 d a) :=
  short (0x2#6 ++ d ++ a) rfl rfl rfl (.inl (up _ (up _ rfl)))
theorem sub_16 (d a : BitVec 5) : Statement (.sub_16 d a) :=
  short (0x3#6 ++ d ++ a) rfl rfl rfl (.inl (up _ (up _ rfl)))
theorem and_16 (d a : BitVec 5) : Statement (.and_16 d a) :=
  short (0x4#6 ++ d ++ a) rfl rfl rfl (.inl (up _ (up _ rfl)))
theorem or_16 (d a : BitVec 5) : Statement (.or_16 d a) :=
  short (0x5#6 ++ d ++ a) rfl rfl rfl (.inl (up _ (up _ rfl)))
theorem xor_16 (d a : BitVec 5) : Statement (.xor_16 d a) :=
  short (0x6#6 ++ d ++ a) rfl rfl rfl (.inl (up _ (up _ rfl)))
theorem sll_16 (d a : BitVec 5) : Statement (.sll_16 d a) :=
  short (0x7#6 ++ d ++ a) rfl rfl rfl (.inl (up _ (up _ rfl)))
theorem faddF64_16 (d a : BitVec 5) : Statement (.faddF64_16 d a) :=
  short (0x8#6 ++ d ++ a) rfl rfl rfl (.inl (up _ (up _ rfl)))
theorem fmulF64_16 (d a : BitVec 5) : Statement (.fmulF64_16 d a) :=
  short (0x9#6 ++ d ++ a) rfl rfl rfl (.inl (up _ (up _ rfl)))
theorem faddF32_16 (d a : BitVec 5) : Statement (.faddF32_16 d a) :=
  short (0xA#6 ++ d ++ a) rfl rfl rfl (.inl (up _ (up _ rfl)))
theorem fmulF32_16 (d a : BitVec 5) : Statement (.fmulF32_16 d a) :=
  short (0xB#6 ++ d ++ a) rfl rfl rfl (.inl (up _ (up _ rfl)))
theorem ldB64_16 (d a : BitVec 5) : Statement (.ldB64_16 d a) :=
  short (0xC#6 ++ d ++ a) rfl rfl rfl (.inl (up _ (up _ rfl)))
theorem stB64_16 (d a : BitVec 5) : Statement (.stB64_16 d a) :=
  short (0xD#6 ++ d ++ a) rfl rfl rfl (.inl (up _ (up _ rfl)))
theorem ldN32_16 (d a : BitVec 5) : Statement (.ldN32_16 d a) :=
  short (0xE#6 ++ d ++ a) rfl rfl rfl (.inl (up _ (up _ rfl)))
theorem stB32_16 (d a : BitVec 5) : Statement (.stB32_16 d a) :=
  short (0xF#6 ++ d ++ a) rfl rfl rfl (.inl (up _ (up _ rfl)))
theorem ldF32_16 (d a : BitVec 5) : Statement (.ldF32_16 d a) :=
  short (0x10#6 ++ d ++ a) rfl rfl rfl (.inl (up _ (up _ rfl)))
theorem stF32_16 (d a : BitVec 5) : Statement (.stF32_16 d a) :=
  short (0x11#6 ++ d ++ a) rfl rfl rfl (.inl (up _ (up _ rfl)))
theorem li_16 (d imm : BitVec 5) : Statement (.li_16 d imm) :=
  short (0x12#6 ++ d ++ imm) rfl rfl rfl (.inl (up _ (up _ rfl)))
theorem addi_16 (d imm : BitVec 5) : Statement (.addi_16 d imm) :=
  short (0x13#6 ++ d ++ imm) rfl rfl rfl (.inl (up _ (up _ rfl)))
theorem slli_16 (d imm : BitVec 5) : Statement (.slli_16 d imm) :=
  short (0x14#6 ++ d ++ imm) rfl rfl rfl (.inl (up _ (up _ rfl)))
theorem srli_16 (d imm : BitVec 5) : Statement (.srli_16 d imm) :=
  short (0x15#6 ++ d ++ imm) rfl rfl rfl (.inl (up _ (up _ rfl)))
theorem srai_16 (d imm : BitVec 5) : Statement (.srai_16 d imm) :=
  short (0x16#6 ++ d ++ imm) rfl rfl rfl (.inl (up _ (up _ rfl)))
theorem ldB64Sp_16 (d imm : BitVec 5) : Statement (.ldB64Sp_16 d imm) :=
  short (0x17#6 ++ d ++ imm) rfl rfl rfl (.inl (up _ (up _ rfl)))
theorem stB64Sp_16 (d imm : BitVec 5) : Statement (.stB64Sp_16 d imm) :=
  short (0x18#6 ++ d ++ imm) rfl rfl rfl (.inl (up _ (up _ rfl)))
theorem jmp_16 (disp : BitVec 10) : Statement (.jmp_16 disp) :=
  short (0x19#6 ++ disp) rfl rfl rfl (.inl (up _ rfl))
theorem call_16 (disp : BitVec 10) : Statement (.call_16 disp) :=
  short (0x1A#6 ++ disp) rfl rfl rfl (.inl (up _ rfl))
theorem halt_16 : Statement (.halt_16) :=
  short (0x6C00#16) rfl rfl rfl (.inl rfl)
theorem yield_16 : Statement (.yield_16) :=
  short (0x6C01#16) rfl rfl rfl (.inl rfl)
theorem ret_16 : Statement (.ret_16) :=
  short (0x6C02#16) rfl rfl rfl (.inl rfl)
theorem brk_16 : Statement (.brk_16) :=
  short (0x6C03#16) rfl rfl rfl (.inl rfl)
theorem nop_16 : Statement (.nop_16) :=
  short (0x6C04#16) rfl rfl rfl (.inl rfl)
theorem replyWriteback (thr : Nat) : Statement (.replyWriteback thr) :=
  event rfl rfl
theorem watchdogExpiry (thr : Nat) : Statement (.watchdogExpiry thr) :=
  event rfl rfl
theorem threadEnd (thr : Nat) : Statement (.threadEnd thr) :=
  event rfl rfl
theorem postedWritePerform (thr idx : Nat) : Statement (.postedWritePerform thr idx) :=
  event rfl rfl
theorem mailboxMessageDelivery (core : Nat) : Statement (.mailboxMessageDelivery core) :=
  event rfl rfl
theorem pendingCompletionDelivery (core : Nat) : Statement (.pendingCompletionDelivery core) :=
  event rfl rfl
theorem channelPushDelivery (chan : Nat) : Statement (.channelPushDelivery chan) :=
  event rfl rfl
theorem updateApply (die : Nat) : Statement (.updateApply die) :=
  event rfl rfl
theorem parkedClaimGrant (course : Nat) : Statement (.parkedClaimGrant course) :=
  event rfl rfl
theorem tokenSelect (eng : Engine) : Statement (.tokenSelect eng) :=
  event rfl rfl
theorem permitGrant (die : Nat) : Statement (.permitGrant die) :=
  event rfl rfl
theorem mmaPartialReady (course : Nat) : Statement (.mmaPartialReady course) :=
  event rfl rfl
theorem partialRetry (course : Nat) : Statement (.partialRetry course) :=
  event rfl rfl
theorem mortarMerge (acc : Nat) : Statement (.mortarMerge acc) :=
  event rfl rfl
theorem copyUnit (course : Nat) : Statement (.copyUnit course) :=
  event rfl rfl
theorem collectiveComplete (tok : BitVec 32) : Statement (.collectiveComplete tok) :=
  event rfl rfl
theorem acfgComplete (tok : BitVec 32) : Statement (.acfgComplete tok) :=
  event rfl rfl
theorem vaultRequestArrival (die : Nat) : Statement (.vaultRequestArrival die) :=
  event rfl rfl
theorem vaultTick (die : Nat) : Statement (.vaultTick die) :=
  event rfl rfl
theorem settleTimeout (tok : BitVec 32) : Statement (.settleTimeout tok) :=
  event rfl rfl
theorem runTimeLimit (tok : BitVec 32) : Statement (.runTimeLimit tok) :=
  event rfl rfl
theorem sampleConversionDone (thr : Nat) : Statement (.sampleConversionDone thr) :=
  event rfl rfl
theorem calibrationDone (thr : Nat) : Statement (.calibrationDone thr) :=
  event rfl rfl
theorem calibrationExpiry (column : Nat) : Statement (.calibrationExpiry column) :=
  event rfl rfl
theorem calibrationTemperatureDrift (die : Nat) (temp : BitVec 8) : Statement (.calibrationTemperatureDrift die temp) :=
  event rfl rfl
theorem preemptionHalt (thr : Nat) : Statement (.preemptionHalt thr) :=
  event rfl rfl
theorem swapOut (core : Nat) : Statement (.swapOut core) :=
  event rfl rfl
theorem swapIn (core : Nat) : Statement (.swapIn core) :=
  event rfl rfl
theorem quantumExpiry (core : Nat) : Statement (.quantumExpiry core) :=
  event rfl rfl
theorem doorbell (part ring : Nat) : Statement (.doorbell part ring) :=
  event rfl rfl
theorem launch (part ring : Nat) : Statement (.launch part ring) :=
  event rfl rfl
theorem launchAccept (part ring : Nat) : Statement (.launchAccept part ring) :=
  event rfl rfl
theorem nopPacket (part ring : Nat) : Statement (.nopPacket part ring) :=
  event rfl rfl
theorem waitend (part ring : Nat) : Statement (.waitend part ring) :=
  event rfl rfl
theorem preemptPacket (part ring : Nat) : Statement (.preemptPacket part ring) :=
  event rfl rfl
theorem resumePacket (part ring : Nat) : Statement (.resumePacket part ring) :=
  event rfl rfl
theorem killPacket (part ring : Nat) : Statement (.killPacket part ring) :=
  event rfl rfl
theorem teamPlacement (part : Nat) : Statement (.teamPlacement part) :=
  event rfl rfl
theorem launchEnd (launch : Nat) : Statement (.launchEnd launch) :=
  event rfl rfl
theorem contextClaim (core : Nat) : Statement (.contextClaim core) :=
  event rfl rfl
theorem migrationArrival (core : Nat) : Statement (.migrationArrival core) :=
  event rfl rfl
theorem stealAgent (core : Nat) : Statement (.stealAgent core) :=
  event rfl rfl
theorem thermalRankingRewrite (die : Nat) (row : List Nat) : Statement (.thermalRankingRewrite die row) :=
  event rfl rfl
theorem removalLevelChange (core level : Nat) : Statement (.removalLevelChange core level) :=
  event rfl rfl
theorem thermalDisplacement (thr : Nat) : Statement (.thermalDisplacement thr) :=
  event rfl rfl
theorem powerWindow (die watts : Nat) : Statement (.powerWindow die watts) :=
  event rfl rfl
theorem thermalTrip (die : Nat) (detail : BitVec 8) : Statement (.thermalTrip die detail) :=
  event rfl rfl
theorem flitReceive (lnk : LinkId) (seq : BitVec 8) (good : Bool) : Statement (.flitReceive lnk seq good) :=
  event rfl rfl
theorem nakReceive (lnk : LinkId) (seq : BitVec 8) : Statement (.nakReceive lnk seq) :=
  event rfl rfl
theorem laneFailure (lnk : LinkId) (repairable : Bool) : Statement (.laneFailure lnk repairable) :=
  event rfl rfl
theorem retrainComplete (lnk : LinkId) : Statement (.retrainComplete lnk) :=
  event rfl rfl
theorem moduleDown (lnk : LinkId) (sideband : Bool) : Statement (.moduleDown lnk sideband) :=
  event rfl rfl
theorem ebnanPortDown (port : Nat) : Statement (.ebnanPortDown port) :=
  event rfl rfl
theorem pierFailure (part : Nat) (rank : BitVec 8) : Statement (.pierFailure part rank) :=
  event rfl rfl
theorem hostWriteDeviceDram (addr : Nat) (bytes : List (BitVec 8)) : Statement (.hostWriteDeviceDram addr bytes) :=
  event rfl rfl
theorem hostSectorAccess (addr : Nat) (bytes : List (BitVec 8)) : Statement (.hostSectorAccess addr bytes) :=
  event rfl rfl
theorem bootstat (cmd : CmdHead) : Statement (.bootstat cmd) :=
  event rfl rfl
theorem partset (cmd : CmdHead) (cfg : PartCfg) : Statement (.partset cmd cfg) :=
  event rfl rfl
theorem partdel (cmd : CmdHead) (part : Nat) : Statement (.partdel cmd part) :=
  event rfl rfl
theorem attest (cmd : CmdHead) (addr : Nat) (nonce : List (BitVec 8)) : Statement (.attest cmd addr nonce) :=
  event rfl rfl
theorem mgmtq (cmd : CmdHead) (addr : Nat) : Statement (.mgmtq cmd addr) :=
  event rfl rfl
theorem freeze (cmd : CmdHead) : Statement (.freeze cmd) :=
  event rfl rfl
theorem thaw (cmd : CmdHead) : Statement (.thaw cmd) :=
  event rfl rfl
theorem dhalt (cmd : CmdHead) (target : DbgTarget) (writes : List DbgWrite) : Statement (.dhalt cmd target writes) :=
  event rfl rfl
theorem debugHaltReached (thr : Nat) : Statement (.debugHaltReached thr) :=
  event rfl rfl
theorem drun (cmd : CmdHead) (thr : Nat) (writes : List DbgWrite) : Statement (.drun cmd thr writes) :=
  event rfl rfl
theorem dstep (cmd : CmdHead) (thr : Nat) : Statement (.dstep cmd thr) :=
  event rfl rfl
theorem floor (cmd : CmdHead) (version : BitVec 32) (sig : List (BitVec 8)) : Statement (.floor cmd version sig) :=
  event rfl rfl
theorem freezePinAssert : Statement (.freezePinAssert) :=
  event rfl rfl
theorem freezePinRelease : Statement (.freezePinRelease) :=
  event rfl rfl
theorem deviceReset (image : List (BitVec 8)) : Statement (.deviceReset image) :=
  event rfl rfl
theorem scanReadout (die chain : Nat) : Statement (.scanReadout die chain) :=
  event rfl rfl
theorem patrolScrub (sector : Nat) : Statement (.patrolScrub sector) :=
  event rfl rfl
theorem illegalInstruction (bits : BitVec 32) (half : Bool) : Statement (.illegalInstruction bits half) :=
  event rfl rfl
theorem instructionFetchFault (addr : BitVec 57) (perm : Bool) : Statement (.instructionFetchFault addr perm) :=
  event rfl rfl
theorem pierSetConfigure (part : Nat) (cfg : PierCfg) : Statement (.pierSetConfigure part cfg) :=
  event rfl rfl

end Sys2Proof.Laws.Encoding
end

