-- ==== Sys2Proof/Tests/Device.lean ====
section
/-! SUPPORT. A small device for the tests: partition 0 with course 0 and the first granule of memory, mapped where it lies,
and one thread of a free launch on core 0, at user level, about to issue at 0x100. -/

set_option Elab.async false

namespace Sys2Proof.Tests

open Sys2Proof Sys2Proof.Machine

def thread : Ctx :=
  { Ctx.blank with live := true, grant := 16, want := 16, status := mkStatus false 0 true 0 0, pc := 0x100 }

def device : State :=
  { State.reset with
    threads := [(0, thread)]
    cores := [(0, { Core.zero with team := some (0, 0), cycle := 16, tlb := [(0, 0, openLeaf)] })]
    parts := [(0, { Part.open with svec := 0x4000, shares := Vector.replicate 8 28, vaultGroups := [0, 1, 8] })]
    courses := [(0, { Course.zero with tlb := [(0, 0, openLeaf)] })]
    launches := [(0, { Launch.zero with live := true, n := 4, groups := [0] })]
    teams := [(0, { Team.zero with state := .resident 0 })] }

/-- The device with general registers set. -/
def regs (l : List (Nat × Word)) : State := device.modMe fun c => l.foldl (fun c x => c.setG x.1 x.2) c

/-- Bytes of physical memory, and of core 0's scratchpad. -/
def withMem (s : State) (a : Nat) (bs : List Byte) : State := { s with mem := Mem.write s.mem a bs }
def withSpad (s : State) (a : Nat) (bs : List Byte) : State :=
  s.modTm 0 fun m => { m with spad := Mem.write m.spad a bs }

def det (s : State) : State := s.modMe fun c => { c with status := mkStatus true 0 true 0 0 }
def atLevel (s : State) (l : BitVec 2) : State := s.modMe fun c => { c with status := setPl c.status l }
def inHandler (s : State) : State := s.modMe fun c => { c with status := setIh c.status true }
def ext (s : State) (e : Nat) (v : Word) : State := s.modMe fun c => { c with e := vset c.e e v }
def policy (s : State) (q : Nat) (v : Word32) : State := s.modMe fun c => { c with q := vset c.q q v }

/-- The device with an instruction's bytes at its pc. -/
def holds (i : Instr) (s : State) : State := withMem s 0x100 (halfBytes (encode i))

/-- A device with cout bound to thread 1's queue. -/
def piped : State := device.modMe fun c => { c with cout := some (0, 1), cin := some (0, 1) }

/-- A window register full, and a thread's receive queue. -/
def withWin (s : State) (r : Nat) (v : Word) : State :=
  s.modTm 0 fun m => { m with win := vset m.win r v, winFull := vset m.winFull r true }
def withQueue (s : State) (q : List Item) : State := s.modChan 0 fun c => { c with q := q }

/-- p0 = 0x100, p1 = 0x200, p2 = 0x300, stride 1; vl = 2; the elements of the three streams. -/
def vec (size : Nat) (xs ys zs : List Word) : State :=
  let put := fun (s : State) (a : Nat) (l : List Word) => withSpad s a (l.flatMap fun x => toBytes size x)
  (put (put (put device 0x100 xs) 0x200 ys) 0x300 zs).modMe fun c =>
    { c with vl := 2, p := ((c.p.set 0 (ptr 0x100)).set 1 (ptr 0x200)).set 2 (ptr 0x300) }
where ptr (a : Nat) : Word32 := BitVec.ofNat 32 (a + 2 ^ 19)

def shapeOf (rows cols fmt tag : Nat) : BitVec 48 := BitVec.ofNat 48 (rows + cols * 2 ^ 9 + fmt * 2 ^ 18 + tag * 2 ^ 22)

/-- The device with page tables for ASID 0: one table, at 0, of every level, whose second leaf maps the first granule. -/
def tabled : State :=
  (withMem device 0 ([1, 0, 0, 0, 0, 0, 0, 0] ++ toBytes 8 openLeaf)).modPart 0 fun p => { p with trange := 0x1_0000 }

/-- Handle 3 bound to slot 127, of a shape, with a payload. -/
def tiled (s : State) (shape : BitVec 48) (bs : List Byte) : State :=
  (s.modSlot 0 127 fun z => { z with bd := true, shape := shape, payload := Mem.write [] 0 bs, handle := 3 }).modMe fun c =>
    { c with t := vset c.t 3 (some 127) }

def value (s : State) (r : BitVec 5) : Option Word :=
  match rd s r with
  | .ok x => some x
  | .error _ => none

/-- An instruction with operand fields fs may issue, and its sources read as listed. -/
def meets (s : State) (level : Nat) (fs : List Field) (rs : List (BitVec 5 × Word)) : Bool :=
  decide (MayIssue s level fs) && rs.all fun x => value s x.1 == some x.2

theorem meets_spec {s : State} {level : Nat} {fs : List Field} {rs : List (BitVec 5 × Word)}
    (h : meets s level fs rs = true) : MayIssue s level fs ∧ ∀ x ∈ rs, rd s x.1 = .ok x.2 := by
  simp only [meets, Bool.and_eq_true, decide_eq_true_eq, List.all_eq_true, beq_iff_eq] at h
  refine ⟨h.1, fun x hx => ?_⟩
  have := h.2 x hx
  unfold value at this
  split at this
  · next y hy => rw [hy]; simpa using this
  · simp at this

/-- The instruction completes with the threads, window writes, scratchpads, channels, memory and agenda of t. -/
def runs (o : Out) (t : State) : Bool :=
  match o with
  | .next u => decide (u.threads = t.threads) && decide (u.cores.map (fun k => (k.1, k.2.wb, k.2.tm.spad)) = t.cores.map fun k => (k.1, k.2.wb, k.2.tm.spad)) &&
      decide (u.chans = t.chans) && decide (u.mem = t.mem) && decide (u.agenda = t.agenda)
  | _ => false

/-- The next state meets a test. -/
def leaves (o : Out) (f : State → Bool) : Bool :=
  match o with
  | .next t => f t
  | _ => false

/-- The state after an instruction or event that completes. -/
def after (i : Instr) (s : State) : State :=
  match exec i s with
  | .next t => t
  | _ => s

/-- A trap as step 7 takes it. -/
def trapped (s : State) (half : Bool) (cls : TrapClass) (info addr : Word) : State :=
  (s.issued half).trapAt s.cur cls info addr

end Sys2Proof.Tests
end

