-- ==== Sys2Proof/Tests/Slice0.lean ====
section
/-! SUPPORT. The decoder against words written out from the encoding tables of the spec, and well-formedness. -/

set_option Elab.async false

namespace Sys2Proof.Tests

open Sys2Proof Sys2Proof.Machine

/-! ## Well-formedness: a term that each check refuses, whose word the decoder refuses too -/

theorem test_wf : ∀ i ∈ ([.bfxN64 1 2 60 4, .bfi 1 2 63 1, .fadd 1 2 3 5 0, .fsqrt 1 2 7 1, .fmac 1 2 3 6 0, .fcvtFloatFloat 1 2 1 0 1,
    .fcvtFloatInteger 1 2 0 5 0, .lp 0 3 0, .lpx 1 3 1024, .spawn 6 1 2, .allred 1 2 3 4 0 0, .copy 1 2 3 4 0 0, .mmaI8 1 2 3 4 0,
    .vadd 1 2 3 1 2, .vadd 1 2 3 5 0, .vdiv 1 2 3 5 0, .vcvt 1 2 0 0 0, .vcvt 1 2 2 0 3, .vredsum 1 2 5 0, .vpadd 1 2 3 3 0,
    .vpmul 1 2 3 0 3, .vpmac 1 2 3 1 2, .cvq 1 2 3 0 0 0 0] : List Instr),
    i.wf = false ∧ ((encode32 i).bind decode32).isNone = true := by decide +kernel

/-! ## Decoding: the words that the spec gives, and a word for each row of the opcode table -/

/-- R83, R138, R129, R148, R86, R164, R178, R188, R184, R197, R207, R211, R228, R233, R237, R251, R258, R284. -/
theorem test_decode_spec : ∀ x ∈ ([(0xE64C8000, .exti 2 1 1 0x8000), (0xCE00C006, .lp 0 3 6), (0xCA310A1D, .fmac 6 4 5 0 1),
    (0xD708C002, .qset 1 3), (0xD421D400, .stF32 4 7 1 0), (0xD80A1607, .arrive 1 8 11), (0xDB100201, .vadd 2 0 1 0 1),
    (0xDB10021D, .vmac 2 0 1 0 1), (0xDC094006, .pset 1 5), (0xDE200000, .tclaim 4), (0xDE200042, .tshape 4 1),
    (0xDE218E04, .tld 4 6 7), (0xDF300040, .cvq 6 0 0 0 1 0 0), (0xE0498858, .mmaE2m1 9 6 4 5 1), (0xE0018850, .mmaE2m1 0 6 4 5 0),
    (0xE1520000, .twait 10 8), (0xE2490A81, .copy 9 4 5 2 0 1), (0xD9014006, .chopen 5 0), (0xDA010000, .bar 4),
    (0xE3490A84, .arun 9 4 5 2), (0xE4600800, .mfs 12 4), (0xE4000002, .eret), (0xE4000203, .trap 1)] : List (Word32 × Instr)),
    decode32 x.1 = some x.2 := by decide +kernel

/-- Majors that no rule assigns, and reserved bits (R85, R91). -/
theorem test_decode_reserved : [(0xC0000000 : Word32), 0xC10001FF, 0xE7000000, 0xFF000000, 0xE64D8000, 0xDE418000, 0xE40001FF].all
    (fun w => (decode32 w).isNone) = true ∧ (decode16 0).isNone = true ∧ (decode16 0xBFFF).isNone = true := by decide +kernel

theorem test_encode_bytes : halfBytes (encode (.trap 1)) = [0x00, 0xE4, 0x03, 0x02] ∧ halfBytes (encode .ret_16) = [2, 0x6C] := by
  decide +kernel

/-- The decoder reads the table's numbering, and the first step after reset runs the instruction. -/
theorem test_fetchWord : (decodeTableWord 32 0xC10C4000) = some (.add 1 17 0) ∧
    leaves (step (State.reset.withFetchWord 32 0xC8080005)) (fun t => t.me.gpr 1 == 5) := by decide +kernel

theorem test_decode_short : ∀ x ∈ ([
    (0x073D, .addMove_16 25 29), (0x0AA7, .add_16 21 7), (0x0CAB, .sub_16 5 11), (0x12AD, .and_16 21 13),
    (0x157D, .or_16 11 29), (0x1873, .xor_16 3 19), (0x1F37, .sll_16 25 23), (0x22BD, .faddF64_16 21 29),
    (0x2567, .fmulF64_16 11 7), (0x2825, .faddF32_16 1 5), (0x2E25, .fmulF32_16 17 5), (0x32FB, .ldB64_16 23 27),
    (0x34ED, .stB64_16 7 13), (0x3B37, .ldN32_16 25 23), (0x3E7B, .stB32_16 19 27), (0x40A3, .ldF32_16 5 3),
    (0x47ED, .stF32_16 31 13), (0x4AFD, .li_16 23 29), (0x4DB5, .addi_16 13 21), (0x52FF, .slli_16 23 31),
    (0x543B, .srli_16 1 27), (0x59F9, .srai_16 15 25), (0x5C79, .ldB64Sp_16 3 25), (0x607D, .stB64Sp_16 3 29),
    (0x6481, .jmp_16 129), (0x687F, .call_16 127), (0x6C00, .halt_16), (0x6C01, .yield_16), (0x6C02, .ret_16),
    (0x6C03, .brk_16), (0x6C04, .nop_16)] : List (Half × Instr)), decode16 x.1 = some x.2 := by decide +kernel

theorem test_decode_major01 : ∀ x ∈ ([
    (0xC1AA7200, .add 21 9 25), (0xC1194E01, .sub 3 5 7), (0xC1B8DA02, .and 23 3 13), (0xC1197603, .or 3 5 27),
    (0xC1D95E04, .xor 27 5 15), (0xC12EC605, .andn 5 27 3), (0xC13BC606, .sll 7 15 3), (0xC1C8DE07, .srl 25 3 15),
    (0xC11A6608, .sra 3 9 19), (0xC1DA4E09, .rol 27 9 7), (0xC19ACE0A, .ror 19 11 7), (0xC16DCE0B, .mul 13 23 7),
    (0xC128DA0C, .mulh 5 3 13), (0xC1FEEA0D, .mulhn 31 27 21), (0xC1EF6E0E, .div 29 29 23), (0xC19BD60F, .divn 19 15 11),
    (0xC1796610, .rem 15 5 19), (0xC1FD7A11, .remn 31 21 29), (0xC1994E12, .min 19 5 7), (0xC1DAEA13, .max 27 11 21),
    (0xC14FF614, .minn 9 31 27), (0xC1196A15, .maxn 3 5 21), (0xC1ADFE16, .seq 21 23 31), (0xC1E94A17, .sne 29 5 5),
    (0xC18FCA18, .slt 17 31 5), (0xC11CFA19, .sge 3 19 29), (0xC19E6E1A, .sltn 19 25 23), (0xC10F6E1B, .sgen 1 29 23),
    (0xC159C01C, .clz 11 7), (0xC1F8C01D, .ctz 31 3), (0xC16CC01E, .popc 13 19), (0xC14BC01F, .bswap 9 15),
    (0xC1CE7E20, .leaB8 25 25 31), (0xC12AFA21, .leaB16 5 11 29), (0xC1CC5222, .leaB32 25 17 9),
    (0xC1DC7623, .leaB64 27 17 27), (0xC1BE5E24, .hash 23 25 15), (0xC1494025, .bank 9 5)] : List (Word32 × Instr)), decode32 x.1 = some x.2 := by decide +kernel

theorem test_decode_major02 : ∀ x ∈ ([
    (0xC25A5DB1, .addi 11 9 7601)] : List (Word32 × Instr)), decode32 x.1 = some x.2 := by decide +kernel

theorem test_decode_major03 : ∀ x ∈ ([
    (0xC3787E13, .andi 15 1 15891)] : List (Word32 × Instr)), decode32 x.1 = some x.2 := by decide +kernel

theorem test_decode_major04 : ∀ x ∈ ([
    (0xC45C6417, .ori 11 17 9239)] : List (Word32 × Instr)), decode32 x.1 = some x.2 := by decide +kernel

theorem test_decode_major05 : ∀ x ∈ ([
    (0xC50A75A1, .xori 1 9 13729)] : List (Word32 × Instr)), decode32 x.1 = some x.2 := by decide +kernel

theorem test_decode_major06 : ∀ x ∈ ([
    (0xC6BD4011, .slli 23 21 17), (0xC61F4133, .srli 3 29 51), (0xC6CE4233, .srai 25 25 51), (0xC63FC333, .roli 7 31 51)] : List (Word32 × Instr)), decode32 x.1 = some x.2 := by decide +kernel

theorem test_decode_major07 : ∀ x ∈ ([
    (0xC71B458D, .bfxN64 3 13 22 13), (0xC7EAD58D, .bfxI64 29 11 22 13), (0xC719E58D, .bfi 3 7 22 13)] : List (Word32 × Instr)), decode32 x.1 = some x.2 := by decide +kernel

theorem test_decode_major08 : ∀ x ∈ ([
    (0xC83DD159, .li 7 381273)] : List (Word32 × Instr)), decode32 x.1 = some x.2 := by decide +kernel

theorem test_decode_major09 : ∀ x ∈ ([
    (0xC9092003, .lis 1 73731)] : List (Word32 × Instr)), decode32 x.1 = some x.2 := by decide +kernel

theorem test_decode_major0A : ∀ x ∈ ([
    (0xCA6E5302, .fadd 13 25 9 4 2), (0xCABFCF07, .fsub 23 31 7 4 3), (0xCAEFFF08, .fmul 29 31 31 4 0),
    (0xCA49EB0F, .fdiv 9 7 21 4 3), (0xCA584112, .fsqrt 11 1 4 2), (0xCA486614, .fmin 9 1 19 0),
    (0xCA8DD61A, .fmax 17 23 11 2), (0xCA7D5F1D, .fmac 15 21 15 4 1), (0xCACBC320, .fcvtFloatFloat 25 15 1 4 0),
    (0xCA084326, .fcvtFloatInteger 1 1 1 4 2), (0xCA6DC32A, .fcvtIntegerFloat 13 23 1 4 2), (0xCA2BCE2D, .feq 5 15 7 1),
    (0xCAFB6A31, .flt 31 13 21 1), (0xCAF87E36, .fle 31 1 31 2), (0xCA29C03B, .fclass 5 7 3), (0xCA6FD63F, .fsgn 13 31 11 3)] : List (Word32 × Instr)), decode32 x.1 = some x.2 := by decide +kernel

theorem test_decode_major0B : ∀ x ∈ ([
    (0xCBA94655, .beq 21 5 1621), (0xCBEE495B, .bne 29 25 347), (0xCB5AD209, .blt 11 11 521), (0xCB0A5F73, .bge 1 9 1907),
    (0xCB4FE59B, .bltn 9 31 1435), (0xCB4A6857, .bgen 9 9 87), (0xCB09F23B, .bany 1 7 571), (0xCBDB7B61, .bnone 27 13 865)] : List (Word32 × Instr)), decode32 x.1 = some x.2 := by decide +kernel

theorem test_decode_major0C : ∀ x ∈ ([
    (0xCC0E5531, .jmp 939313)] : List (Word32 × Instr)), decode32 x.1 = some x.2 := by decide +kernel

theorem test_decode_major0D : ∀ x ∈ ([
    (0xCD80F07F, .call 8450175)] : List (Word32 × Instr)), decode32 x.1 = some x.2 := by decide +kernel

theorem test_decode_major0E : ∀ x ∈ ([
    (0xCE6CC167, .lp 13 19 359)] : List (Word32 × Instr)), decode32 x.1 = some x.2 := by decide +kernel

theorem test_decode_major0F : ∀ x ∈ ([
    (0xCFAC4167, .lpx 21 17 359)] : List (Word32 × Instr)), decode32 x.1 = some x.2 := by decide +kernel

theorem test_decode_major10 : ∀ x ∈ ([
    (0xD0024000, .jr 9), (0xD000C001, .callr 3), (0xD0000002, .ret), (0xD0000003, .yield), (0xD0000004, .halt),
    (0xD0000005, .brk), (0xD0000006, .nop), (0xD005C007, .lpexit 23), (0xD0EEC008, .lpidx 29 27)] : List (Word32 × Instr)), decode32 x.1 = some x.2 := by decide +kernel

theorem test_decode_major11 : ∀ x ∈ ([
    (0xD14A41C3, .ldI8 9 9 0 451), (0xD15852B1, .ldN8 11 1 1 177), (0xD14FC43F, .ldI16 9 31 0 63),
    (0xD1AFC63B, .ldN16 21 31 0 59), (0xD17B682B, .ldI32 15 13 2 43), (0xD13F4A41, .ldN32 7 29 0 65),
    (0xD1ED5D1B, .ldB64 29 21 1 283)] : List (Word32 × Instr)), decode32 x.1 = some x.2 := by decide +kernel

theorem test_decode_major12 : ∀ x ∈ ([
    (0xD2EFD109, .stB8 29 31 1 265), (0xD26F53AB, .stB16 13 29 1 427), (0xD23E7543, .stB32 7 25 3 323),
    (0xD22BF64B, .stB64 5 15 3 75)] : List (Word32 × Instr)), decode32 x.1 = some x.2 := by decide +kernel

theorem test_decode_major13 : ∀ x ∈ ([
    (0xD36CC09F, .ldF16 13 19 0 159), (0xD3BA628D, .ldBf16 23 9 2 141), (0xD3EBC597, .ldF32 29 15 0 407),
    (0xD3FAD6A5, .ldF64 31 11 1 165)] : List (Word32 × Instr)), decode32 x.1 = some x.2 := by decide +kernel

theorem test_decode_major14 : ∀ x ∈ ([
    (0xD4DE61AF, .stF16 27 25 2 431), (0xD46DE25F, .stBf16 13 23 2 95), (0xD4B865D5, .stF32 23 1 2 469),
    (0xD4E87753, .stF64 29 1 3 339)] : List (Word32 × Instr)), decode32 x.1 = some x.2 := by decide +kernel

theorem test_decode_major15 : ∀ x ∈ ([
    (0xD59940F3, .staB8 19 5 0 15 3), (0xD52C6235, .staB16 5 17 2 3 5), (0xD58A751D, .staB32 17 9 3 17 13),
    (0xD54FE659, .staB64 9 31 2 5 9)] : List (Word32 × Instr)), decode32 x.1 = some x.2 := by decide +kernel

theorem test_decode_major16 : ∀ x ∈ ([
    (0xD61AF601, .amoswap 3 11 27 0 1), (0xD6096204, .amoadd 1 5 17 0 0), (0xD62C4EC8, .amoand 5 17 7 3 0),
    (0xD6AEE24C, .amoor 21 27 17 1 0), (0xD679D690, .amoxor 15 7 11 2 0), (0xD65B6694, .amominI 11 13 19 2 0),
    (0xD69F5699, .amomaxI 19 29 11 2 1), (0xD60C461C, .amominN 1 17 3 0 0), (0xD66FDEE0, .amomaxN 13 31 15 3 0),
    (0xD6DFF2A4, .cas 27 31 25 2 0), (0xD67D5A69, .amofadd 15 21 13 1 1)] : List (Word32 × Instr)), decode32 x.1 = some x.2 := by decide +kernel

theorem test_decode_major17 : ∀ x ∈ ([
    (0xD705C000, .fence 23), (0xD7000001, .fenceI), (0xD71A4002, .qset 3 9), (0xD7094003, .qget 1 5)] : List (Word32 × Instr)), decode32 x.1 = some x.2 := by decide +kernel

theorem test_decode_major18 : ∀ x ∈ ([
    (0xD8180000, .fill 3), (0xD8180001, .drain 3), (0xD858C002, .peek 11 3), (0xD82E6603, .msend 5 25 19),
    (0xD8780004, .mwait 15), (0xD898C005, .mget 19 3), (0xD8075606, .arm 29 11), (0xD85C7A07, .arrive 11 17 29),
    (0xD80C6E08, .await 1 17 23), (0xD8AD4009, .wtadd 21 21), (0xD878C00A, .wtdel 15 3)] : List (Word32 × Instr)), decode32 x.1 = some x.2 := by decide +kernel

theorem test_decode_major19 : ∀ x ∈ ([
    (0xD99B6E00, .start 19 13 23), (0xD9584001, .reap 11 1), (0xD9054002, .migrate 21), (0xD9297E03, .spawn 5 5 31),
    (0xD9044004, .sret 17), (0xD9680005, .sync 13), (0xD903C206, .chopen 15 1), (0xD9016207, .chaccept 5 17),
    (0xD9014008, .chclose 5), (0xD94E4009, .chstat 9 25)] : List (Word32 × Instr)), decode32 x.1 = some x.2 := by decide +kernel

theorem test_decode_major1A : ∀ x ∈ ([
    (0xDA00C000, .bar 3), (0xDAC86751, .allred 25 1 19 5 0 1), (0xDA4E6BD5, .red 9 25 21 7 0 1),
    (0xDA48F6D9, .bcast 9 3 27 3 0 1), (0xDA2846DF, .allgat 5 1 3 3 1 1)] : List (Word32 × Instr)), decode32 x.1 = some x.2 := by decide +kernel

theorem test_decode_major1B : ∀ x ∈ ([
    (0xDBCF4701, .vadd 25 29 3 4 1), (0xDBFC4305, .vsub 31 17 1 4 1), (0xDB297F09, .vmul 5 5 31 4 1),
    (0xDB8BDB0D, .vdiv 17 15 13 4 1), (0xDBFE4111, .vsqrt 31 25 4 1), (0xDB98DA14, .vmin 19 3 13 0),
    (0xDB4D621A, .vmax 9 21 17 2), (0xDB487F1D, .vmac 9 1 31 4 1), (0xDB89DA23, .vceq 17 7 13 3),
    (0xDB9CFA27, .vclt 19 19 29 3), (0xDBE9DA2A, .vcle 29 7 13 2), (0xDB2FC22E, .vsel 5 31 1 2),
    (0xDBE97A33, .vand 29 5 29 1), (0xDBCB5A36, .vor 25 13 13 0), (0xDB2A623B, .vxor 5 9 17 1),
    (0xDB4C433C, .vcvt 9 17 1 4 0)] : List (Word32 × Instr)), decode32 x.1 = some x.2 := by decide +kernel

theorem test_decode_major1C : ∀ x ∈ ([
    (0xDCFFC000, .vclaim 31 31), (0xDCC80001, .vgrant 25), (0xDC0AC002, .vlset 1 11), (0xDC080003, .vlget 1),
    (0xDCF80004, .vsget 31), (0xDC074005, .vsset 29), (0xDCCCC006, .pset 25 19), (0xDC4EC007, .pget 9 27),
    (0xDCBE4108, .vredsum 23 25 4 0), (0xDCA8400E, .vredmin 21 1 2), (0xDCAE4010, .vredmax 21 25 0),
    (0xDC686615, .vshuf 13 1 19 1), (0xDCB97217, .vgather 23 5 25 1)] : List (Word32 × Instr)), decode32 x.1 = some x.2 := by decide +kernel

theorem test_decode_major1D : ∀ x ∈ ([
    (0xDD2DF701, .vpadd 5 23 27 2 1), (0xDD89C705, .vpsub 17 7 3 2 1), (0xDD7C7709, .vpmul 15 17 27 2 1),
    (0xDDBEC30D, .vpmac 23 27 1 2 1), (0xDD28C020, .vexp2 5 3), (0xDDDF4021, .vlog2 27 29), (0xDD4CC022, .vrcp 9 19),
    (0xDDF8C023, .vrsqrt 31 3), (0xDD4AC024, .vtanh 9 11)] : List (Word32 × Instr)), decode32 x.1 = some x.2 := by decide +kernel

theorem test_decode_major1E : ∀ x ∈ ([
    (0xDEF80000, .tclaim 31), (0xDED80001, .trelease 27), (0xDEA80142, .tshape 21 5), (0xDE9C4003, .tinfo 19 17),
    (0xDE8E5E04, .tld 17 25 15), (0xDE9FF205, .tsave 19 31 25), (0xDE3AD606, .trowld 7 11 11),
    (0xDE2B7E07, .trowst 5 13 31), (0xDE7F6A08, .tcolld 15 29 21), (0xDEEED209, .tcolst 29 27 9)] : List (Word32 × Instr)), decode32 x.1 = some x.2 := by decide +kernel

theorem test_decode_major1F : ∀ x ∈ ([
    (0xDF6BC942, .cvq 13 15 2 0 5 0 2), (0xDF7DC148, .cvd 15 23 5 0 0)] : List (Word32 × Instr)), decode32 x.1 = some x.2 := by decide +kernel

theorem test_decode_major20 : ∀ x ∈ ([
    (0xE0DE76D8, .mmaE2m1 27 25 27 13 1), (0xE08D47F9, .mmaE4m3 17 21 3 31 1), (0xE0BA5A5A, .mmaE5m2 23 9 13 5 1),
    (0xE07E73DB, .mmaE4m3e5m2 15 25 25 29 1), (0xE098523C, .mmaI8 19 1 9 3 1), (0xE0FFC25D, .mmaBf16 31 31 1 5 1),
    (0xE0EF5E7E, .mmaF32 29 29 15 7 1), (0xE04A4FDF, .mmaF64 9 9 7 29 1)] : List (Word32 × Instr)), decode32 x.1 = some x.2 := by decide +kernel

theorem test_decode_major21 : ∀ x ∈ ([
    (0xE1184000, .twait 3 1), (0xE14BC001, .twaitT 9 15), (0xE11CC002, .ttest 3 19), (0xE14C4003, .tcancel 9 17),
    (0xE1D9C004, .tdetach 27 7), (0xE1394005, .tadopt 7 5), (0xE19B7206, .tprio 19 13 25), (0xE18BC207, .tafter 17 15 1),
    (0xE10CC008, .tfault 1 19), (0xE1EC4009, .tlist 29 17)] : List (Word32 × Instr)), decode32 x.1 = some x.2 := by decide +kernel

theorem test_decode_major22 : ∀ x ∈ ([
    (0xE2ABFEC1, .copy 21 15 31 3 0 1), (0xE2DCC645, .cset 27 19 3 1 0 1)] : List (Word32 × Instr)), decode32 x.1 = some x.2 := by decide +kernel

theorem test_decode_major23 : ∀ x ∈ ([
    (0xE3D96200, .adict 27 5 17), (0xE37EC141, .acfg 15 27 5), (0xE37FC602, .aset 15 31 3), (0xE3AEEE03, .ascale 21 27 23),
    (0xE3CB4344, .arun 25 13 1 5), (0xE3015BC5, .asample 5 13 7), (0xE36CC006, .astop 13 19), (0xE36BC007, .acal 13 15),
    (0xE3EBC008, .astat 29 15)] : List (Word32 × Instr)), decode32 x.1 = some x.2 := by decide +kernel

theorem test_decode_major24 : ∀ x ∈ ([
    (0xE48CBA00, .mfs 17 605), (0xE43FEE01, .mts 7 1015), (0xE4000002, .eret), (0xE402FE03, .trap 383),
    (0xE403FE04, .tlbinv 15 31), (0xE4D8C005, .wdset 27 3), (0xE4024006, .kill 9), (0xE4064007, .preempt 25)] : List (Word32 × Instr)), decode32 x.1 = some x.2 := by decide +kernel

theorem test_decode_major25 : ∀ x ∈ ([
    (0xE500C0C0, .ext 3 3), (0xE50800C1, .exr 1 3)] : List (Word32 × Instr)), decode32 x.1 = some x.2 := by decide +kernel

theorem test_decode_major26 : ∀ x ∈ ([
    (0xE6E05E43, .exti 7 0 0 24131)] : List (Word32 × Instr)), decode32 x.1 = some x.2 := by decide +kernel

end Sys2Proof.Tests
end

