-- ==== Sys2Proof/Tests/WitnessCore.lean ====
section
/-! SUPPORT. A concrete state and operands that meet the hypotheses of each statement, and, with them, what the
spec says follows there; the step, issue, operands, scalar instructions and memory. -/

set_option Elab.async false

namespace Sys2Proof.Tests

open Sys2Proof Sys2Proof.Machine

/-! ## Encoding and the step -/

theorem witness_DecodeEncode : (Instr.exti 7 3 1 0xFFFF).wf = true ∧ encode (.exti 7 3 1 0xFFFF) ≠ [] ∧
    (Instr.ret_16).wf = true ∧ encode .ret_16 ≠ [] := by decide +kernel

theorem witness_DecodeSound : decode [0x4C, 0xE6, 0x00, 0x80, 7] = .instr (.exti 2 1 1 0x8000) [7] ∧
    decode [0x22, 0x08, 9] = .instr (.add_16 1 2) [9] := by decide +kernel

theorem witness_StepRunsDecoded :
    let s := holds (.add 1 2 3) (regs [(2, 7), (3, 9)])
    let u := s.atSlot 0
    IssuesNext s 0 ∧ ((u.modMe Ctx.awoken).fetch u.cur).toOption.map (·.1) = some (encode (.add 1 2 3)) ∧
      decode (halfBytes (encode (.add 1 2 3))) = .instr (.add 1 2 3) [] ∧
      leaves (step s) (fun t => (t.ctx 0).gpr 1 == 16 && (t.ctx 0).pc == 0x104) := by decide +kernel

theorem witness_StepTraps_illegal :
    let s := withMem device 0x100 [0, 0xC0, 0, 0]
    let u := s.atSlot 0
    IssuesNext s 0 ∧ ((u.modMe Ctx.awoken).fetch u.cur).toOption.map (·.1) = some [0xC000, 0] ∧
      decode [0, 0xC0, 0, 0] = .illegal 0xC0000000 false ∧
      leaves (step s) (fun t => (t.ctx 0).pc == 0x4000) := by decide +kernel

theorem witness_StepTraps_fetch :
    let s := device.modMe fun c => { c with pc := 0x200000 }
    let u := (s.atSlot 0).modMe Ctx.awoken
    IssuesNext s 0 ∧ (match u.fetch u.cur with | .error (.fault a p) => a == 0x200000 && !p | _ => false : Bool) = true ∧
      leaves (step s) (fun t => (t.ctx 0).pc == 0x4000) := by decide +kernel

/-- The first word at the pc holds an error that cannot be corrected. -/
theorem witness_StepTraps_memoryError :
    let s : State := { device with badSectors := [0x100 / 48] }
    let u := (s.atSlot 0).modMe Ctx.awoken
    IssuesNext s 0 ∧ (match u.fetch u.cur with | .error (.bad _ a) => a == 0x100 | _ => false : Bool) = true ∧
      leaves (step s) (fun t => (t.ctx 0).pc == 0x4000 && (t.ctx 0).sv.cause == 10 && (t.ctx 0).sv.addr == 0x100) := by decide +kernel

theorem witness_StepOrder_event : ({ device with plan := [.event .freezePinAssert] } : State).fw.frozen = false ∧ device.nextCmd.isNone = true ∧
    external .freezePinAssert = true ∧ external (.vaultRequestArrival 0) = false ∧
    (device.takeDue (.vaultRequestArrival 0) []).isNone = true ∧ (device.takeDue (.vaultRequestArrival 0) [.vaultRequest 0]).isSome = true := by
  decide +kernel
theorem witness_StepOrder_due :
    let s : State := { device with agenda := [.vaultRequest 0] }
    let w : State := { device with fw := { device.fw with waiting := [.freeze ⟨0, 7⟩] } }
    s.fw.frozen = false ∧ s.nextCmd.isNone = true ∧ s.plan = [] ∧ s.fw.boot ≠ 0 ∧ w.nextCmd.isSome = true ∧
      leaves (step w) (fun t => t.fw.frozen) = true := by decide +kernel
theorem witness_StepOrder_boot :
    let s : State := { device with fw := { device.fw with boot := 0, phase := 1 } }
    s.nextCmd.isNone = true ∧ s.plan = [] ∧ leaves (step s) (fun t => t.fw.phase == 2) = true := by decide +kernel
theorem witness_StepOrder_slot :
    let empty := device.modCore 0 fun k => { k with cycle := 17 }
    let late := device.modMe fun c => { c with resumeAt := 40 }
    let parked := device.modMe fun c => { c with wait := .cond .mailboxEmpty }
    let held := device.modMe fun c => { c with dbgHeld := true, dbgAsked := true }
    SlotComes empty 0 ∧ (empty.atSlot 0).me.live = false ∧ SlotComes late 0 ∧ (late.core 0).cycle < (late.atSlot 0).me.resumeAt ∧
      SlotComes parked 0 ∧ (parked.atSlot 0).awake (parked.slotThread 0) = false ∧ SlotComes held 0 ∧
      leaves (step parked) (fun t => (t.core 0).cycle == 17 && decide (t.threads = parked.threads)) = true := by decide +kernel
theorem witness_StepOrder_none : Quiet State.reset ∧ State.reset.turnCore = none := by
  decide +kernel
theorem witness_StepOrder_frozen :
    let s := { device with fw := { device.fw with frozen := true }, plan := [.slot 0, .event .freezePinRelease] }
    s.fw.frozen = true ∧ s.nextCmd.isNone = true ∧ s.plan = [.slot 0] ++ .event .freezePinRelease :: [] ∧ reachesFrozen .freezePinRelease = true ∧
      (∀ x ∈ [Turn.slot 0], x.reachesFrozen = false) ∧ Turn.event .freezePinRelease ∉ [Turn.slot 0] := by decide +kernel

/-! ## Issue -/

theorem witness_IllFormedTraps : (Instr.lp 0 3 0).wf = false ∧ (Instr.bfxN64 1 2 63 1).wf = false ∧
    (Instr.fadd 1 2 3 5 0).wf = false := by decide +kernel

theorem witness_IssueOrder_code : [Field.dst 0 26, .src 1 2, .src 2 3].findSome? Field.bad ≠ none ∧
    [Field.dst 0 25, .src 1 24, .src 2 31].findSome? Field.bad ≠ none := by decide +kernel
theorem witness_IssueOrder_lent :
    let s := device.modMe fun c => { c with lent := true }
    let fs : List Field := [.dst 0 1, .src 1 16, .src 2 3]
    fs.findSome? Field.bad = none ∧ s.me.lent = true ∧ fs.findSome? Field.window = some 16 := by decide +kernel
theorem witness_IssueOrder_park :
    let s := device.modMe fun c => { c with gFull := vset c.gFull 15 false }
    let fs : List Field := [.dst 0 1, .src 1 15, .src 2 3]
    fs.findSome? Field.bad = none ∧ (s.me.lent = true → fs.findSome? Field.window = none) ∧
      (∃ f ∈ fs, f.ready s s.cur = false) := by decide +kernel
theorem witness_IssueOrder_watchdog :
    let s := device.modMe fun c => { c with wd := 0x1000000 }
    let fs : List Field := [.dst 0 1, .src 1 2, .src 2 3]
    fs.findSome? Field.bad = none ∧ (∀ f ∈ fs, f.ready s s.cur = true) ∧ s.wdLimit s.cur < s.me.wd + 1 := by decide +kernel
theorem witness_IssueOrder_push :
    let fs : List Field := [.dst 0 25, .src 1 2, .src 2 3]
    fs.findSome? Field.bad = none ∧ (∀ f ∈ fs, f.ready device device.cur = true) ∧
      device.me.wd + 1 ≤ device.wdLimit device.cur ∧ device.me.outKey = none ∧ piped.me.outKey = some 1 ∧
      (∀ f ∈ fs, f.ready piped piped.cur = true) ∧
      ((piped.modChan 1 fun c => { c with closed := true }).chan 1).closed = true := by decide +kernel

/-! ## Operands and scalar instructions -/

theorem witness_SourceReads :
    value device 0 = some 0 ∧ value (regs [(15, 5)]) 15 = some 5 ∧ value (withWin device 60 6) 16 = some 6 ∧
    value (withWin device 3 8) 23 = some 8 ∧ device.me.cin = none ∧ piped.me.cin ≠ none ∧
    ((withQueue piped [.val 3, .mark .endMark]).chan piped.me.inKey).q = .val 3 :: [.mark .endMark] ∧
    ((withQueue piped [.mark .endMark]).chan piped.me.inKey).q = .mark .endMark :: [] ∧
    ((withQueue piped [.mark .abortMark]).chan piped.me.inKey).q = .mark .abortMark :: [] ∧
    (piped.chan piped.me.inKey).q = [] ∧ winIndex 15 23 = 63 ∧ winIndex 0 19 = 63 := by decide +kernel

theorem witness_OperandEffects : piped.me.outKey = some 1 ∧
    leaves (.next (piped.dest piped.cur 25 7)) (fun t => (t.chan 1).inFlight == [.val 7] && (t.core 0).pushDue == [(24, 1)]) ∧
    leaves (.next (device.dest device.cur 23 7)) (fun t => (t.core 0).wb == [⟨24, 3, some 7, true⟩]) := by decide +kernel

def looping (a b : LoopReg) : Ctx :=
  { thread with l := (Vector.replicate 2 a).set 1 b, status := setLd thread.status 2, ir := 0xC2000000, irHalf := false }
theorem witness_LoopEndTest :
    let inner : LoopReg := ⟨1, 3, 1, 0xF8, 6, true⟩
    let done : LoopReg := ⟨2, 3, 1, 0xF8, 6, true⟩
    let outer : LoopReg := ⟨0, -4, -2, 0xF0, 10, true⟩
    let past : LoopReg := ⟨-2, -4, -2, 0xF0, 10, true⟩
    let longer : LoopReg := ⟨1, 3, 1, 0xF8, 20, true⟩
    (looping inner outer).advance.pc = 0xF8 ∧ (looping done outer).advance.pc = 0xF0 ∧
    (looping done past).advance.pc = 0x104 ∧ stLd (looping done past).advance.status = 0 ∧
    stIh (looping done outer).status = false ∧ (looping longer outer).advance.pc = 0x104 ∧ outer.top.toNat < inner.top.toNat := by decide +kernel

theorem witness_IntegerResults_two :
    let s := regs [(2, 0x8000_0000_0000_0000), (3, -1)]
    meets s 0 [.dst 0 1, .src 1 2, .src 2 3] [(2, 0x8000_0000_0000_0000), (3, -1)] ∧
    (∀ x ∈ [(Instr.div 1 2 3, (0x8000_0000_0000_0000 : Word)), (.rem 1 2 3, 0), (.mulh 1 2 3, 0), (.add 1 2 3, 0x7FFF_FFFF_FFFF_FFFF),
        (.sra 1 2 3, -1), (.sltn 1 2 3, 1), (.slt 1 2 3, 1), (.srl 1 2 3, 1), (.mulhn 1 2 3, 0x7FFF_FFFF_FFFF_FFFF),
        (.maxn 1 2 3, -1), (.min 1 2 3, 0x8000_0000_0000_0000), (.leaB64 1 2 3, 0x7FFF_FFFF_FFFF_FFF8)],
      runs (exec x.1 s) (finish (s.issued false) [2, 3] 1 x.2)) := by decide +kernel

theorem witness_IntegerResults_one :
    let s := regs [(2, 0xF0)]
    meets s 0 [.dst 0 1, .src 1 2] [(2, 0xF0)] ∧ (0 : BitVec 6).toNat + (63 : BitVec 6).toNat + 1 ≤ 64 ∧
    (∀ x ∈ [(Instr.clz 1 2, (56 : Word)), (.ctz 1 2, 4), (.popc 1 2, 4), (.bswap 1 2, 0xF000_0000_0000_0000), (.bank 1 2, 0),
        (.bfxN64 1 2 4 3, 15), (.bfxI64 1 2 4 3, -1), (.addi 1 2 0x2000, -0x1F10), (.andi 1 2 0x3FFF, 0xF0), (.slli 1 2 63, 0)],
      runs (exec x.1 s) (finish (s.issued false) [2] 1 x.2)) := by decide +kernel

theorem witness_IntegerResults_rest :
    let s := regs [(1, 0x1234), (2, 0xFF)]
    meets s 0 [.both 0 1, .src 1 2] [(1, 0x1234), (2, 0xFF)] ∧
    (∀ x ∈ [(Instr.bfi 1 2 60 3, (0xF000_0000_0000_1234 : Word)), (.bfi 1 2 0 63, 0xFF)],
      runs (exec x.1 s) (finish (s.issued false) [2] 1 x.2)) ∧
    (∀ x ∈ [(Instr.li 1 0x40000, (-0x40000 : Word)), (.lis 1 1, 0x1234 * 0x80000 + 1), (.exr 1 7, 9)],
      runs (exec x.1 (ext s 7 9)) (finish ((ext s 7 9).issued false) [] 1 x.2)) ∧
    meets s 0 [] [] ∧
    leaves (exec (.exti 2 1 0 0x8000) (ext s 2 (-1))) (fun t => vget 0 t.me.e 2 == 0xFFFF_FFFF_8000_FFFF) ∧
    leaves (exec (.exti 2 1 1 0x8000) (ext s 2 (-1))) (fun t => vget 0 t.me.e 2 == 0xFFFF_FFFF_8000_0000) ∧
    leaves (exec (.ext 2 5) s) (fun t => vget 0 t.me.e 5 == 0xFF) := by decide +kernel

theorem witness_CompactResults :
    let s := regs [(1, 0x12), (2, 0x3F)]
    meets s 0 [.both 0 1, .src 1 2] [(1, 0x12), (2, 0x3F)] ∧ meets s 0 [.dst 0 1, .src 1 2] [(2, 0x3F)] ∧
    (∀ x ∈ [(Instr.addMove_16 1 2, (0x3F : Word)), (.add_16 1 2, 0x51), (.sub_16 1 2, -0x2D), (.and_16 1 2, 0x12), (.or_16 1 2, 0x3F),
        (.xor_16 1 2, 0x2D), (.sll_16 1 2, 0)], runs (exec x.1 s) (finish (s.issued true) [2] 1 x.2)) ∧
    (∀ x ∈ [(Instr.li_16 1 16, (-16 : Word)), (.addi_16 1 31, 0x11), (.slli_16 1 31, 0x9_0000_0000), (.srli_16 1 1, 9),
        (.srai_16 1 4, 1)], runs (exec x.1 s) (finish (s.issued true) [] 1 x.2)) := by decide +kernel

theorem witness_ScalarFrame : (15 : BitVec 5).toNat < 16 ∧
    (∀ c ∈ [(0 : BitVec 5), 15, 20, 23], c.toNat < 16 ∨ (20 ≤ c.toNat ∧ c.toNat < 24)) ∧ device.me.activeLoops = 0 := by
  decide +kernel

/-! ## Floating point -/

theorem witness_FloatResults :
    let one : Word := 0x3FF0_0000_0000_0000
    let s := regs [(1, one), (2, one), (3, 0x4000_0000_0000_0000)]
    meets s 0 [.dst 0 1, .src 1 2, .src 2 3, .vs] [(2, one), (3, 0x4000_0000_0000_0000)] ∧ meets s 0 [.dst 0 1, .src 1 2, .vs] [] ∧
    meets s 0 [.both 0 1, .src 1 2, .src 2 3, .vs] [(1, one)] ∧ meets s 0 [.dst 0 1, .src 1 2] [] ∧
    meets s 0 [.dst 0 1, .src 1 2, .src 2 3] [] ∧ meets s 0 [.both 0 1, .src 1 2, .vs] [] ∧ (4 : BitVec 3).toNat < 5 ∧
    (∀ x ∈ [(Instr.fadd 1 2 3 0 0, (0x4008_0000_0000_0000 : Word)), (.fsub 1 2 3 4 0, 0xBFF0_0000_0000_0000),
        (.fmul 1 2 3 1 0, 0x4000_0000_0000_0000), (.fdiv 1 2 3 2 0, 0x3FE0_0000_0000_0000), (.flt 1 2 3 0, 1), (.feq 1 2 3 0, 0),
        (.fle 1 2 3 0, 1), (.fmin 1 2 3 0, one), (.fmax 1 2 3 0, 0x4000_0000_0000_0000), (.fmac 1 2 3 0 0, 0x4008_0000_0000_0000),
        (.fsgn 1 2 3 0, one)], runs (exec x.1 s) (finish (s.issued false) [2, 3] 1 x.2)) ∧
    (∀ x ∈ [(Instr.fsqrt 1 2 0 0, one), (.fcvtFloatFloat 1 2 0 0 1, 0x3F80_0000), (.fcvtFloatInteger 1 2 2 0 0, 1),
        (.fclass 1 2 0, 64)], runs (exec x.1 s) (finish (s.issued false) [2] 1 x.2)) := by decide +kernel

theorem witness_FlagsAndFpe :
    let s := device.modMe fun c => { c with vs := 0x200 }
    (0 : BitVec 4) &&& s.me.vs.extractLsb' 5 4 = 0 ∧ (1 : BitVec 4) &&& s.me.vs.extractLsb' 5 4 = 0 ∧
      ((15 : BitVec 4) &&& (device.modMe fun c => { c with vs := 0x20 }).me.vs.extractLsb' 5 4) = 1 := by decide +kernel

theorem witness_FloatSpecials : (3 : Nat) < 2 ^ (Fmt.f64.p - 1) ∧ false = Nat.testBit 3 (Fmt.f64.p - 1 - 1) ∧
    (FVal.fin true 1 0).isNan = false ∧ 0x0000_0001 < 2 ^ (fmtOf 1).width ∧
    decodeF (fmtOf 1) 0x8000_0001 = .fin true 1 (-149) ∧ (FVal.isNan (.inf true) && FVal.isNan (.nan true true 0 0)) = false := by
  decide +kernel

/-! ## Branches, jumps and loops -/

theorem witness_Transfers_branch :
    let s := regs [(2, -1), (3, 1)]
    let go := fun (disp : BitVec 11) => (s.issued false).modCtx s.cur fun c => { c with pc := s.me.pc + 2 * disp.signExtend 57 }
    meets s 0 [.src 1 2, .src 2 3] [(2, -1), (3, 1)] ∧
    (∀ i ∈ [Instr.bne 2 3 0x400, .blt 2 3 0x400, .bgen 2 3 0x400, .bany 2 3 0x400], runs (exec i s) (go 0x400)) ∧
    (∀ i ∈ [Instr.beq 2 3 0x3FF, .bge 2 3 0x3FF, .bltn 2 3 0x3FF, .bnone 2 3 0x3FF],
      runs (exec i s) (finishNo (s.issued false) [2, 3])) := by decide +kernel

theorem witness_Transfers_jump :
    let s := regs [(2, 0x200), (15, 0x300)]
    let goes := fun (i : Instr) (pc : BitVec 57) (g15 : Word) => leaves (exec i s) fun t => t.me.pc == pc && t.me.gpr 15 == g15
    meets s 0 [] [] ∧ meets s 0 [.src 1 2] [(2, 0x200)] ∧ meets s 0 [.src 1 15] [(15, 0x300)] ∧
    (0x200 : Word).getLsbD 0 = false ∧ canonical 0x200 = true ∧
    goes (.jmp (-128)) 0 0x300 ∧ goes (.call 0x7FFFFF) 0x10000FE 0x104 ∧ goes (.jmp_16 (-128)) 0 0x300 ∧ goes (.call_16 (-128)) 0 0x102 ∧
    goes (.jr 2) 0x200 0x300 ∧ goes (.callr 15) 0x300 0x104 ∧ goes .ret 0x300 0x300 ∧ goes .ret_16 0x300 0x300 := by decide +kernel

theorem witness_Transfers_jumpTraps :
    let s := regs [(2, 0x8000_0000_0000_0001), (3, 0x0100_0000_0000_0000)]
    meets s 0 [.src 1 2] [(2, 0x8000_0000_0000_0001)] ∧ meets s 0 [.src 1 3] [(3, 0x0100_0000_0000_0000)] ∧
    (0x8000_0000_0000_0001 : Word).getLsbD 0 = true ∧ canonical 0x0100_0000_0000_0000 = false ∧
    runs (exec (.jr 2) s) (trapped s false .align 3 0x8000_0000_0000_0001) ∧
    runs (exec (.callr 3) s) (trapped s false .addr 3 0x0100_0000_0000_0000) := by decide +kernel

theorem witness_Transfers_control : meets device 0 [] [] ∧
    (∀ i ∈ [Instr.nop, .yield], leaves (exec i device) fun t => t.me.pc == 0x104) ∧
    (∀ i ∈ [Instr.nop_16, .yield_16], leaves (exec i device) fun t => t.me.pc == 0x102) ∧
    leaves (exec .halt device) (fun t => t.me.wait == .halting && t.agenda == [.threadEnd 0]) ∧
    (∀ i ∈ [Instr.brk, .brk_16], leaves (exec i device) fun t => t.me.pc == 0x4000 && t.me.sv.epc == 0x100) := by decide +kernel

theorem witness_Loops_lp :
    let s := regs [(2, 5)]
    let one := s.modMe fun c => { c with status := setLd c.status 1, l := vset c.l 1 ⟨0, 9, 1, 0xF0, 1023, true⟩ }
    (0 < (1 : BitVec 11).toNat ∧ (1023 : BitVec 11).toNat < 1024) ∧ stIh s.me.status = false ∧ (s.me.loopReg 0).act = false ∧
    stLd s.me.status = 0 ∧ meets s 0 [.file 1 0 1, .src 2 2] [(2, 5)] ∧
    leaves (exec (.lp 0 2 1023) s) (fun t => stLd t.me.status == 1 && (t.me.loopReg 0) == ⟨0, 5, 1, 0x104, 1023, true⟩) ∧
    leaves (exec (.lp 0 0 1) s) (fun t => stLd t.me.status == 0 && t.me.pc == 0x106) ∧
    stLd one.me.status = 1 ∧ (one.me.loopReg 1).top.toNat ≤ one.me.pc.toNat + 4 ∧ meets one 0 [.file 1 0 1, .src 2 2] [(2, 5)] ∧
    leaves (exec (.lp 0 2 1) one) (fun t => stLd t.me.status == 2) := by decide +kernel

theorem witness_Loops_lpx :
    let s := ext (ext device 2 0x0000_0000_0000_0003) 3 0xFFFF_FFFF
    meets s 0 [.file 1 1 1, .ext 2 2] [] ∧
    leaves (exec (.lpx 1 2 1) s) (fun t => (t.me.loopReg 1) == ⟨3, 0, -1, 0x104, 1, true⟩) ∧
    leaves (exec (.lpx 1 2 1) (ext s 2 0x0000_0003_0000_0003)) (fun t => t.me.pc == 0x106) ∧
    runs (exec (.lpx 1 2 1) (ext s 3 0)) (trapped (ext s 3 0) false .loop 2 0) ∧
    runs (exec (.lpx 1 2 1) (ext s 3 0x1_0000_0001)) (trapped (ext s 3 0x1_0000_0001) false .opnd 0x303 0) := by decide +kernel

theorem witness_Loops_nesting :
    let s := regs [(2, 5)]
    let h := inHandler s
    let act := s.modMe fun c => { c with status := setLd c.status 1, l := vset c.l 0 ⟨0, 9, 1, 0xF0, 1023, true⟩ }
    let two := s.modMe fun c => { c with status := setLd c.status 2 }
    let out := s.modMe fun c => { c with status := setLd c.status 1, l := vset c.l 1 ⟨0, 9, 1, 0xF0, 10, true⟩ }
    (∀ x ∈ [h, act, two, out], meets x 0 [.file 1 0 1, .src 2 2] [(2, 5)] ∧ meets x 0 [.file 1 0 1, .ext 2 2] [] ∧
      runs (exec (.lp 0 2 1) x) (trapped x false .loop 1 0) ∧ runs (exec (.lpx 0 2 1) x) (trapped x false .loop 1 0)) := by
  decide +kernel

theorem witness_Loops_exit :
    let inner : LoopReg := ⟨7, 9, 1, 0xF8, 6, true⟩
    let outer : LoopReg := ⟨1, 9, 1, 0xF0, 12, true⟩
    let one := device.modMe fun c => { c with status := setLd c.status 1, l := vset c.l 0 inner }
    let two := device.modMe fun c => { c with status := setLd c.status 2, l := vset (vset c.l 0 inner) 1 outer }
    meets two 0 [.dst 0 1, .file 1 0 1, .loop 0] [] ∧ meets two 0 [.file 1 1 1] [] ∧
    leaves (exec (.lpidx 1 0) two) (fun t => t.me.gpr 1 == 7) ∧
    leaves (exec (.lpexit 0) one) (fun t => stLd t.me.status == 0 && !(t.me.loopReg 0).act) ∧
    leaves (exec (.lpexit 0) two) (fun t => stLd t.me.status == 1 && !(t.me.loopReg 0).act && (t.me.loopReg 1).act) ∧
    leaves (exec (.lpexit 1) two) (fun t => stLd t.me.status == 0 && !(t.me.loopReg 0).act) ∧
    (one.me.loopReg 1).act = false ∧ outer.top.toNat < inner.top.toNat ∧
    runs (exec (.lpexit 0) device) (finishNo (device.issued false) []) := by decide +kernel

/-! ## Memory -/

theorem witness_AccessChecks_order :
    let stop := fun (s : State) (q : BitVec 2) (ea : Word) (size : Nat) (cls : TrapClass) (info addr : Word) =>
      ((match s.access 0 q ea size .load anySpace with
      | .error (.trap c i a) => decide (c = cls) && i == info && a == addr
      | .error (.lost c i a) => decide (c = cls) && i == info && a == addr
      | _ => false) : Bool)
    let local' := policy device 1 64
    let far := policy device 2 128
    stop (policy device 3 6) 3 0 8 .opnd 0x304 0 ∧ stop device 0 0x0100_0000_0000_0000 8 .addr 0 0x0100_0000_0000_0000 ∧
    stop local' 1 0x80000 8 .addr 0 0x80000 ∧ stop far 2 (1280 * 0x80000) 8 .addr 0 (1280 * 0x80000) ∧
    stop device 0 0x1004 8 .align 0 0x1004 ∧ stop local' 1 0x60000 8 .spad 0 0x60000 ∧ stop far 2 0x400000 8 .perm 0 0x400000 ∧
    stop device 0 0x10000 8 .page 0x100_0000_0000 0x10000 ∧
    (local'.access 0 1 0x5FFF8 8 .load anySpace).toOption.map (fun a => (a.loc, a.via.home)) = some (.spad 0 0x5FFF8, 0) ∧
    (far.access 0 2 0x5FFF8 8 .load anySpace).toOption.map (fun a => (a.loc, a.via.home)) = some (.spad 0 0x5FFF8, 0) ∧
    (device.access 0 0 0xFFF8 8 .store anySpace).toOption.map (·.loc) = some (.phys 0xFFF8) := by decide +kernel

theorem witness_AccessChecks_translation :
    (device.tlbHit 0 0 0xFFFF).isSome = true ∧ device.tlbHit 0 0 0x10000 = none ∧
    (device.walk (device.part 0) 0 0x10000).toOption = none ∧ (tabled.walk (tabled.part 0) 0 0x18000).toOption = some openLeaf ∧
    (device.part 0).ownsRange (openLeaf.toNat / 2 ^ 16 % 2 ^ 32) 1 = true ∧ openLeaf.getLsbD 7 = true ∧ openLeaf.getLsbD 4 = true ∧
    ((0 : BitVec 2) ≠ 0 ∨ openLeaf.getLsbD 7 = true) := by decide +kernel

theorem witness_Loads_issue :
    let s := regs [(2, 0x1000), (14, 0xFFF8)]
    let lands := fun (i : Instr) (l : Loc) => leaves (exec i s) fun t =>
      ((match t.me.wait with | .load m _ _ _ _ _ _ _ _ _ _ => m == l | _ => false) : Bool) && t.agenda == [.reply 0]
    meets s 0 [.dst 0 1, .src 1 2] [(2, 0x1000)] ∧ meets s 0 [.dst 0 1, .src 1 14] [(14, 0xFFF8)] ∧
    lands (.ldB64 1 2 0 0x100) (.phys 0x800) ∧ lands (.ldI8 1 2 0 0xFF) (.phys 0x10FF) ∧ lands (.ldF32_16 1 2) (.phys 0x1000) ∧
    lands (.ldB64Sp_16 1 0) (.phys 0xFFF8) ∧ lands (.ldN16 1 2 0 1) (.phys 0x1002) ∧ lands (.ldBf16 1 2 0 1) (.phys 0x1002) := by
  decide +kernel

/-- The caches that an access of core 0 passes. -/
def aVia : Via := ⟨some 0, 0, .normal, 0, 0, none, (0, 0, 0), 0⟩
/-- Through a page homed on core 200, on another die, of a partition that has it. -/
def farVia : Via := { aVia with home := 200, page := (0, 0, BitVec.ofNat 64 (2 * 2 ^ 59 + 200 * 2 ^ 48)) }
def wide (s : State) : State := s.modPart 0 fun p => { p with courses := [0, 25] }
/-- A line of a slice that an access by aVia has filled. -/
def aLine (n : Nat) (cls : EvClass) : L2Line := ⟨n, cls, false, newSecs 0, [], [(0, 0, 0)], []⟩
theorem witness_CacheLines :
    let empty : Caches := ⟨[], [], [], 0⟩
    let one := (empty.read aVia 0x1000).1
    let ws := (List.range 3).map (fun n => aLine n .normal) ++ [aLine 3 .stream] ++ (List.range 12).map fun n => aLine (4 + n) .keep
    let host := { device with caches := { empty with l2 := [(0, [{ aLine (lineNo 0x8000_0000_0000) .normal with secs := newSecs 0 }])] } }
    let worn := { device with caches := one, badWords := [0x200] }
    (empty.find 0 (lineNo 0x1000)).isNone = true ∧ empty.slice 0 = [] ∧ one.l2 = [(0, [aLine (lineNo 0x1000) .normal])] ∧
    (one.find 0 (lineNo 0x1000)).isSome = true ∧ one.l1 = [(0, [blockNo 0x1000])] ∧
    (one.write { aVia with core := some 1 } 0x1000 []).1.l1 = [] ∧ (empty.write { aVia with wp := 2 } 0x1000 []).1.l2 = [] ∧
    ((empty.write aVia 0x1000 [7]).1.find 0 (lineNo 0x1000)).map (fun x => (x.dirty, x.below)) = some (true, [(64, 7)]) ∧
    victims .normal ws = [3] ∧ victims .keep ws = [15, 3] ∧ victims .keep (ws.drop 4) = [15] ∧ victims .normal (ws.take 4) = [] ∧
    classOf (3 * 2 ^ 12 + 5 * 2 ^ 22) 2 = .keep ∧ classOf (3 * 2 ^ 12 + 5 * 2 ^ 22) 3 = .normal ∧ classOf (3 * 2 ^ 12) 5 = .normal ∧
    classOf (3 * 2 ^ 12 + 5 * 2 ^ 22) 5 = .stream ∧ lineHash 0x10030 = 342 ∧
    inHost 0x8000_0000_0000 = true ∧ ((host.hostAccess 0x8000_0000_0030 48 true).caches.slice 0).map (fun x => x.secs.take 2) =
      [[.owned, .invalid]] ∧ ((host.hostAccess 0x8000_0000_0000 48 false).caches.slice 0).map (fun x => x.secs.take 2) =
      [[.shared, .owned]] ∧
    worn.badUnit (.phys 0x1000) 8 = some (1, 0x1000) ∧ (worn.dropLines fun _ => true).badUnit (.phys 0x1000) 8 = some (0, 0x1000) ∧
    (worn.dropLines fun _ => true).caches.l2 = [] := by decide +kernel

/-- The device whose thread waits for the reply of a load of 0x1000. -/
def loading (k : LdKind) (bs : List Byte) : State :=
  (withMem device 0x1000 bs).modMe fun c => { c with wait := .load (.phys 0x1000) aVia 0x1000 k 1 true false false false none [] }
theorem witness_Loads_reply :
    let s := loading .i16 [0xFE, 0xFF]
    (s.ctx 0).wait = .load (.phys 0x1000) aVia 0x1000 .i16 1 true false false false none [] ∧ s.badUnit (.phys 0x1000) 2 = none ∧
    leaves (exec (.replyWriteback 0) s) (fun t => t.me.gpr 1 == -2 && t.me.wait == .ready && t.me.pc == 0x104) ∧
    leaves (exec (.replyWriteback 0) (loading .n8 [0xFE, 0xFF])) (fun t => t.me.gpr 1 == 0xFE) ∧
    ({ s with badSectors := [0x1000 / 48] }.badUnit (.phys 0x1000) 2).isSome = true ∧
    leaves (exec (.replyWriteback 0) { s with badSectors := [0x1000 / 48] }) (fun t => t.me.pc == 0x4000 && t.me.gpr 1 == 0) ∧
    (let second := { (s.modMe fun c => { c with wait := .load (.phys 0x1000) aVia 0x1000 .i16 1 true true true false (some 2) [] }) with keystone := 2 }
     let other := second.setCtx 1 { thread with wait := .load (.phys 0) aVia 0 .i16 1 true true true false (some 1) [] }
     (some (2 : BitVec 64)).all second.inSequence = true ∧ (some (2 : BitVec 64)).all other.inSequence = false ∧
     leaves (exec (.replyWriteback 0) other) (fun t => t.agenda == [.reply 0] && (t.ctx 0).wait != .ready)) := by
  decide +kernel

/-- A load under the thread's own posted writes: one gives all its bytes, one only some, one is an arrival on its word. -/
theorem witness_Loads_own :
    let s := loading .i16 [0xFE, 0xFF]
    let own := fun (l : Loc) (bs : List Byte) (w : Option (Loc × BitVec 32)) => s.modMe fun c =>
      { c with posted := [⟨l, bs, w, .loose, .device, aVia, false, false, false, false⟩] }
    let whole := own (.phys 0x1000) [5, 0] none
    (s.forwards 0 (.phys 0x1000) 2) = true ∧ whole.forwards 0 (.phys 0x1000) 2 = true ∧
    leaves (exec (.replyWriteback 0) whole) (fun t => t.me.gpr 1 == 5 && t.me.posted.map (fun p => (p.joined, p.led)) == [(false, true)]) ∧
    (own (.phys 0x1000) [5] none).forwards 0 (.phys 0x1000) 2 = false ∧
    (own (.phys 0) [5] (some (.phys 0x1000, 1))).forwards 0 (.phys 0x1000) 2 = false ∧
    leaves (exec (.replyWriteback 0) (own (.phys 0x1000) [5] none)) (fun t => t.agenda == [.reply 0] && t.me.gpr 1 == 0) ∧
    (let back := device.modMe fun c => { c with wait := .answered ⟨0, none, 9, 0⟩ 0x1000 1 true [] }
     leaves (exec (.replyWriteback 0) back) (fun t => t.me.gpr 1 == 9 && t.me.wait == .ready)) ∧
    (let away := (wide s).modMe fun c => { c with wait := .load (.phys 0x1000) farVia 0x1000 .i16 1 true true false true none [] }
     leaves (exec (.replyWriteback 0) away) (fun t => (match t.me.wait with | .answered a _ _ _ _ => a.old == -2 | _ => false : Bool) &&
       t.me.gpr 1 == 0)) := by
  decide +kernel

theorem witness_Stores_issue :
    let s := regs [(1, 0x1122334455667788), (2, 0x1000), (14, 0x1000)]
    let posts := fun (i : Instr) (a : Nat) (bs : List Byte) => leaves (exec i s) fun t =>
      t.me.posted.map (fun p => (p.loc, p.bytes)) == [(.phys a, bs)] && t.mem == s.mem
    meets s 0 [.src 0 1, .src 1 2] [(1, 0x1122334455667788), (2, 0x1000)] ∧ s.me.posted.length < 8 ∧
    (s.issued false).qOrd 0 ≠ .sc ∧ (policy s 1 5).qOrd 1 = .sc ∧
    posts (.stB8 1 2 0 0xFF) 0x10FF [0x88] ∧ posts (.stF32 1 2 0 0x100) 0xC00 [0x88, 0x77, 0x66, 0x55] ∧
    posts (.stB64Sp_16 1 31) 0x10F8 [0x88, 0x77, 0x66, 0x55, 0x44, 0x33, 0x22, 0x11] ∧ posts (.stB32_16 1 2) 0x1000 [0x88, 0x77, 0x66, 0x55] ∧
    leaves (exec (.stB64 1 2 1 0) (policy s 1 5)) (fun t => t.keystone == 1 && t.me.pc == 0x100) ∧
    (let full := s.modMe fun c => { c with posted := List.replicate 8 ⟨.phys 0, [], none, .loose, .thread, aVia, false, false, false, false⟩ }
     8 ≤ full.me.posted.length ∧ leaves (exec (.stB64 1 2 0 0) full) (fun t => t.me.wait == .cond .postedFull)) := by decide +kernel

theorem witness_Stores_arrival :
    let s := policy (regs [(1, 7), (2, 0x1000), (3, 0x2000)]) 0 64
    let far := policy (regs [(1, 7), (2, 0x1000), (3, 0x82000)]) 0 128
    meets s 0 [.src 0 1, .src 1 2, .src 5 3] [(1, 7), (2, 0x1000), (3, 0x2000)] ∧
    (s.access 0 0 0x1000 4 .store spadSpace).toOption.map (·.via.home) = some 0 ∧
    (far.access 0 0 0x82000 16 .store spadSpace).toOption.map (·.via.home) = some 1 ∧
    leaves (exec (.staB32 1 2 0 3 15) s) (fun t => t.me.posted.map (fun p => p.arrival) == [some (.spad 0 0x2000, 16)]) ∧
    runs (exec (.staB32 1 2 0 3 15) far) (trapped far false .addr 1 0x82000) := by decide +kernel

/-- A posted write of the thread to address 0x1000. -/
def write0 (order : Order) (via : Via) : Posted := ⟨.phys 0x1000, [9], none, order, .device, via, false, false, false, false⟩
def posting (ps : List Posted) : State := (wide device).modMe fun c => { c with posted := ps }
theorem witness_Stores_perform :
    let s := posting [write0 .loose aVia, write0 .loose aVia]
    s.me.posted[1]? = some (write0 .loose aVia) ∧ (write0 .loose aVia).sent = false ∧
    ((s.me.posted.take 1).any fun a => a.before (write0 .loose aVia)) = true ∧
    runs (exec (.postedWritePerform 0 1) s) s ∧ leaves (exec (.postedWritePerform 0 0) s) (fun t => t.physRead 0x1000 1 == [9]) ∧
    dieOfCore (coreOf 0) ≠ dieOfCore 200 ∧
    leaves (exec (.postedWritePerform 0 0) (posting [write0 .release farVia])) (fun t =>
      (t.die 1).updates.length == 1 && t.mem == device.mem && t.me.posted.length == 1) := by decide +kernel

theorem witness_Stores_events :
    let w := write0 .sc aVia
    let s := device.modMe fun c => { c with wait := .storeSc w 1 }
    let fin := device.modMe fun c => { c with wait := .finish 0, pc := 0x104 }
    let mail := { device with flights := [⟨0, 5⟩] }
    let push := device.modChan 1 fun c => { c with inFlight := [.val 3, .val 4] }
    let upd := after (.postedWritePerform 0 0) (posting [write0 .release farVia])
    s.me.wait = .storeSc w 1 ∧ leaves (exec (.replyWriteback 0) s) (fun t => t.physRead 0x1000 1 == [9] && t.me.pc == 0x104) ∧
    fin.me.wait = .finish 0 ∧ leaves (exec (.replyWriteback 0) fin) (fun t => t.me.wait == .ready) ∧
    mail.flights.find? (fun f => f.core == 0) = some ⟨0, 5⟩ ∧ (mail.core 0).tm.mailbox.length < 32 ∧
    leaves (exec (.mailboxMessageDelivery 0) mail) (fun t => (t.core 0).tm.mailbox == [5] && t.flights.isEmpty) ∧
    (push.chan 1).inFlight = .val 3 :: [.val 4] ∧
    leaves (exec (.channelPushDelivery 1) push) (fun t => (t.chan 1).q == [.val 3] && (t.chan 1).inFlight == [.val 4]) ∧
    (nextUpdate (upd.die 1).updates).isSome = true ∧
    leaves (exec (.updateApply 1) upd) (fun t => t.physRead 0x1000 1 == [9] && t.me.posted.isEmpty) := by decide +kernel

theorem witness_MemoryWrites :
    let s := withSpad (withMem device 0x1000 [1, 2, 3]) 0x5FFFF [9]
    (∀ t ∈ slotsOf 0, (match (s.ctx t).wait with | .await _ _ _ _ => false | _ => true : Bool) = true) ∧ Memory.wf s.mem = true ∧
    (s.physWrite 0x1001 [0, 5]).mem = [(0x1000, 1), (0x1002, 5)] ∧ (s.spadWrite 0 0x5FFFF [0]).spadRead 0 0x5FFFE 2 = [0, 0] := by
  decide +kernel

theorem witness_Atomics_issue :
    let s := regs [(1, 5), (2, 0x1000), (3, 7)]
    meets s 0 [.dst 0 1, .src 1 2, .src 2 3] [(2, 0x1000), (3, 7)] ∧ meets s 0 [.both 0 1, .src 1 2, .src 2 3] [(1, 5)] ∧
    ((s.issued false).access 0 0 0x1000 8 .atomic anySpace).toOption.isSome = true ∧
    leaves (exec (.cas 1 2 3 0 1) s) (fun t => (match t.me.wait with
      | .atomic l _ ea op w d v x c _ _ _ => (l, ea) == (.phys 0x1000, 0x1000) && (op, w, d) == (.cas, true, 1) && (v, x, c) == (7, 5, true)
      | _ => false : Bool)) ∧
    leaves (exec (.amofadd 1 2 3 0 0) s) (fun t => (match t.me.wait with
      | .atomic l _ ea op w d v x c _ _ _ => (l, ea) == (.phys 0x1000, 0x1000) && (op, w, d) == (.fadd, false, 1) && (v, x, c) == (7, 0, true)
      | _ => false : Bool)) ∧
    stDet (det s).me.status = true ∧ runs (exec (.amofadd 1 2 3 0 0) (det s)) (trapped (det s) false .order 0 0) := by decide +kernel

theorem witness_Atomics_reply :
    let s := (withMem device 0x1000 [0xFF, 0xFF, 0xFF, 0xFF, 7]).modMe fun c =>
      { c with wait := .atomic (.phys 0x1000) aVia 0x1000 .maxI false 1 2 0 true true none [] }
    (s.performAll 0).badUnit (.phys 0x1000) 4 = none ∧ (2 : Word).toNat < 2 ^ 32 ∧
    leaves (exec (.replyWriteback 0) s) (fun t => t.physRead 0x1000 5 == [2, 0, 0, 0, 7] && t.me.gpr 1 == -1 && t.me.wait == .ready) ∧
    (let back := device.modMe fun c => { c with wait := .answered ⟨2, none, 9, 0⟩ 0x1000 1 true [] }
     leaves (exec (.replyWriteback 0) back) (fun t => t.me.gpr 1 == 9 && t.me.wait == .ready)) ∧
    (let far := (wide s).modMe fun c => { c with wait := .atomic (.phys 0x1000) farVia 0x1000 .maxI false 1 2 0 true false none [] }
     crossesDie 0 200 = true ∧
     leaves (exec (.replyWriteback 0) far) (fun t => (match t.me.wait with | .answered a _ _ _ _ => a.old == -1 | _ => false : Bool) &&
       t.agenda.length == 1 && t.me.gpr 1 == 0)) := by
  decide +kernel

theorem witness_FencesAndPolicies :
    let s := policy (policy (policy (regs [(2, 0x1_0000_0009)]) 1 (3 + 8 * 2)) 2 (5 + 8 * 5)) 3 6
    let w := s.modMe fun c => { c with posted := [⟨.phys 0x1000, [9], none, .loose, .device, aVia, false, false, false, false⟩] }
    meets s 0 [.file 4 3 3, .src 1 2] [(2, 0x1_0000_0009)] ∧ meets s 0 [.file 4 3 3] [] ∧ meets w 0 [.file 4 2 3] [] ∧
    leaves (exec (.qset 3 2) s) (fun t => vget 0 t.me.q 3 == 9) ∧ leaves (exec (.qget 1 2) s) (fun t => t.me.gpr 1 == 45) ∧
    runs (exec (.fence 3) w) (trapped w false .opnd 0x304 0) ∧
    leaves (exec (.fence 2) s) (fun t => t.keystone == 1 && t.me.pc == 0x104) ∧
    leaves (exec (.fence 0) w) (fun t => t.me.pc == 0x104) ∧ leaves (exec (.fence 1) w) (fun t => t.me.wait == .cond .postedAny) ∧
    leaves (exec (.fence 2) w) (fun t => t.me.wait == .cond .postedAny) ∧
    (let led := s.modMe fun c => { c with posted := [⟨.phys 0x1000, [9], none, .loose, .device, aVia, false, false, true, false⟩] }
     let other := (s.setCtx 1 { thread with wait := .load (.phys 0) aVia 0 .i16 1 true true true false (some 1) [] })
     leaves (exec (.fence 0) led) (fun t => t.me.posted.map (·.kept) == [false]) &&
     leaves (exec (.fence 1) (policy led 1 (2 + 8 * 2))) (fun t => t.me.posted.map (·.kept) == [true]) &&
     leaves (exec (.fence 2) other) (fun t => t.me.wait == .cond .scPending)) ∧
    leaves (exec .fenceI s) (fun t => t.me.pc == 0x104) ∧ leaves (exec .fenceI w) (fun t => t.me.wait == .cond .postedAny) := by
  decide +kernel

theorem witness_FullEmpty :
    let piped : State := device.modMe fun c => { c with cout := some (0, 1), cin := some (0, 1) }
    meets device 0 [.state 0 0] [] ∧ meets device 0 [.state 0 15] [] ∧ meets device 0 [.state 0 23] [] ∧ meets device 0 [.dst 0 1, .peek 1 25] [] ∧
    leaves (exec (.drain 15) device) (fun t => vget true t.me.gFull 15 == false) ∧
    leaves (exec (.fill 16) device) (fun t => (t.core 0).wb == [⟨24, 60, none, true⟩]) ∧
    leaves (exec (.drain 0) device) (fun t => vget true t.me.gFull 0) ∧
    leaves (exec (.peek 1 25) device) (fun t => t.me.gpr 1 == -1) ∧ leaves (exec (.peek 1 24) device) (fun t => t.me.gpr 1 == -1) ∧
    leaves (exec (.peek 1 25) piped) (fun t => t.me.gpr 1 == 8) ∧
    leaves (exec (.peek 1 16) piped) (fun t => t.me.gpr 1 == 0) ∧
    runs (exec (.peek 1 2) (det device)) (trapped (det device) false .order 0 0) ∧ piped.me.outKey = some 1 := by decide +kernel

theorem witness_Mailbox :
    let s := regs [(1, 0x1234), (2, 7), (3, 99), (4, 1280), (5, 1279)]
    let full := s.modTm 7 fun m => { m with mailbox := List.replicate 32 5 }
    let got := s.modTm 0 fun m => { m with mailbox := [0x5_0000_0000_0000_0006] }
    stDet s.me.status = false ∧ meets s 0 [.gsrc 0 1, .src 1 2, .src 2 3] [(1, 0x1234), (2, 7), (3, 99)] ∧
    meets s 0 [.dst 0 6] [] ∧ meets s 0 [.dst 0 6, .dst 1 7, .differ 1 6 7] [] ∧
    runs (exec (.msend 1 4 3) s) (trapped s false .addr 0 1280) ∧ runs (exec (.msend 1 5 3) s) (trapped s false .perm 0 1279) ∧
    32 ≤ full.mailUsed 7 ∧ leaves (exec (.msend 1 2 3) full) (fun t => t.me.wait == .cond (.mailboxFull 7)) ∧
    leaves (exec (.msend 1 2 3) s) (fun t => t.flights == [⟨7, 0x01001234_00000000_0000000000000063⟩]) ∧
    leaves (exec (.mwait 6) s) (fun t => t.me.wait == .cond .mailboxEmpty) ∧ leaves (exec (.mwait 6) got) (fun t => t.me.gpr 6 == 1) ∧
    leaves (exec (.mget 6 7) got) (fun t => t.me.gpr 6 == 6 && t.me.gpr 7 == 5) ∧
    stDet (det s).me.status = true ∧ meets (det s) 0 [.dst 0 6, .dst 1 7, .differ 1 6 7] [] ∧
    (∀ i ∈ [Instr.msend 1 2 3, .mwait 6, .mget 6 7], runs (exec i (det s)) (trapped (det s) false .order 0 0)) := by decide +kernel

theorem witness_ArrivalWords_issue :
    let s := withSpad (regs [(2, 0x5FFF0), (3, 4)]) 0x5FFF0 [1, 0, 0, 0, 1, 0, 0, 0, 4, 0, 0, 0, 3, 0, 1, 0]
    let local' := policy s 3 64
    meets s 0 [.src 1 2, .src 2 3] [(2, 0x5FFF0), (3, 4)] ∧ meets local' 0 [.file 4 3 3, .src 1 2, .src 2 3] [] ∧ meets s 0 [.dst 0 1, .src 1 2, .src 2 3] [] ∧
    ((0x5FFF0 : Word).toNat < 2 ^ 19 ∧ (0x5FFF0 : Word).toNat % 16 = 0 ∧ (0x5FFF0 : Word).toNat + 16 ≤ 0x60000) ∧
    leaves (exec (.arm 2 3) s) (fun t => t.spadRead 0 0x5FFF0 16 == [4, 0, 0, 0, 0, 0, 0, 0, 4, 0, 0, 0, 3, 0, 0, 0]) ∧
    leaves (exec (.arrive 3 2 3) local') (fun t => t.me.posted.map (fun p => p.arrival) == [some (.spad 0 0x5FFF0, 4)]) ∧
    leaves (exec (.await 1 2 0) s) (fun t => t.me.gpr 1 == 4) ∧
    leaves (exec (.await 1 2 3) s) (fun t => t.me.wait == .await 0x5FFF0 4 1 [2, 3] && t.spadRead 0 0x5FFFC 2 == [3, 0]) := by
  decide +kernel

theorem witness_ArrivalWords_count :
    let s := withSpad device 0x100 [3, 0, 0, 0, 1, 0, 0, 0, 0xFF, 0xFF, 0xFF, 0xFF, 3, 0, 1, 0]
    (∀ t ∈ slotsOf 0, (match (s.ctx t).wait with | .await _ _ _ _ => false | _ => true : Bool) = true) ∧
    (s.arrival 0 0x100 1).spadRead 0 0x104 10 = [2, 0, 0, 0, 0xFF, 0xFF, 0xFF, 0xFF, 3, 0] ∧
    (s.arrival 0 0x100 6).spadRead 0 0x104 10 = [1, 0, 0, 0, 1, 0, 0, 0, 0, 0] := by decide +kernel

theorem witness_ArrivalWords_tasks :
    let block := toBytes 4 (0x200 : Word) ++ toBytes 4 (9 : Word) ++ toBytes 8 (0x400 : Word) ++ toBytes 8 (77 : Word) ++ toBytes 8 (0 : Word)
    let s := withSpad (regs [(2, 0x100), (3, 63), (4, 64)]) 0x100 block
    let all := s.modTm 0 fun m => { m with wt := (List.range 64).map fun k => (k, { WtEntry.zero with state := .armed }) }
    meets s 0 [.dst 0 1, .src 1 2] [(2, 0x100)] ∧ meets s 0 [.dst 0 1, .src 1 3] [(3, 63)] ∧
    leaves (exec (.wtadd 1 2) s) (fun t => t.me.gpr 1 == 0 && ((t.core 0).tm.wt.map fun e => (e.1, e.2.word, e.2.threshold)) == [(0, 0x20, 9)]) ∧
    leaves (exec (.wtadd 1 2) all) (fun t => t.me.gpr 1 == -1) ∧
    leaves (exec (.wtdel 1 3) s) (fun t => t.me.gpr 1 == 0) ∧ leaves (exec (.wtdel 1 3) all) (fun t => t.me.gpr 1 == 1) := by decide +kernel

end Sys2Proof.Tests
end

