-- ==== Sys2Proof/Tests/WitnessSystem.lean ====
section
/-! SUPPORT. A concrete state and operands that meet the hypotheses of each statement, and, with them, what the
spec says follows there; traps, system registers, rings, placement, swap, heat, links, host and firmware. -/

set_option Elab.async false

namespace Sys2Proof.Tests

open Sys2Proof Sys2Proof.Machine

/-! ## Traps and system instructions -/

theorem witness_TrapEntry :
    let u := (device.modPart 0 fun p => { p with sdeleg := -1 }).modMe fun c => { c with umask := -1, uvec := 0x7000 }
    let h := inHandler device
    let sh := atLevel h 1
    (11 : Nat) < 64 ∧ stPl u.me.status = 0 ∧ stIh u.me.status = false ∧ (u.part 0).sdeleg.getLsbD 63 = true ∧ u.me.umask.getLsbD 63 = true ∧
    (let t := u.trapEntry 0 63 5 6 0x102 true
     t.me.pc = 0x7000 ∧ stPl t.me.status = 0 ∧ stIh t.me.status = true ∧ t.me.u.cause = 63 + 512 ∧ t.me.u.epc = 0x102) ∧
    (let t := u.trapEntry 0 0 5 6 0x102 false
     t.me.pc = 0x7000 ∧ t.me.u.cause = 0) ∧
    (let t := h.trapEntry 0 14 5 6 0x102 false
     t.me.pc = 0x4000 ∧ stPl t.me.status = 1 ∧ t.me.sv.cause = 14 + 4096 ∧ t.me.sv.info = 5 ∧ t.me.sv.addr = 6 ∧ t.me.resumeAt = 33) ∧
    (stPl sh.me.status = 1 ∧ stIh sh.me.status = true ∧ ((sh.trapEntry 0 13 0 0 0 false).ctx 0).live = false) ∧
    ((device.modPart 0 fun p => { p with svec := 0 }).trapEntry 0 13 0 0 0 false).core 0 ≠ device.core 0 := by decide +kernel

theorem witness_EretAndTrap :
    let h := (inHandler device).modMe fun c => { c with u := { c.u with epc := 0x300 } }
    let s1 := (atLevel (inHandler device) 1).modMe fun c => { c with sv := { c.sv with epc := 0x200, status := setPl 0 2 } }
    let odd := (inHandler device).modMe fun c => { c with u := { c.u with epc := 0x301 } }
    MayIssue h 0 [] ∧ MayIssue s1 0 [] ∧ stIh device.me.status = false ∧ runs (exec .eret device) (trapped device false .priv 0 0) ∧
    runs (exec .eret odd) (trapped odd false .align 3 0x301) ∧
    leaves (exec .eret h) (fun t => t.me.pc == 0x300 && !stIh t.me.status && stPl t.me.status == 0) ∧
    leaves (exec .eret s1) (fun t => t.me.pc == 0x200 && !stIh t.me.status && stPl t.me.status == 1) ∧
    leaves (exec (.trap 0x3FF) device) (fun t => t.me.pc == 0x4000 && t.me.sv.cause == 13 && t.me.sv.info == 0x3FF && t.me.sv.epc == 0x104) := by
  decide +kernel

theorem witness_SystemRegisters_reads :
    let s := (atLevel device 1).modPart 0 fun p => { p with epfq := [(0x1234, 9), (7, 8)], epfqDropped := true }
    let at' := fun (n : Nat) => (⟨24, 0, ⟨0, 0, 0⟩, n, .inl 1⟩ : SysWb)
    sysReadLevel 0x009 = none ∧ sysReadLevel 0x010 = some 0 ∧ sysReadLevel 0x122 = some 1 ∧ sysReadLevel 0x200 = some 2 ∧
    MayIssue s 1 [.dst 0 1] ∧ MayIssue device 0 [.dst 0 1] ∧ MayIssue (atLevel device 2) 2 [.dst 0 1] ∧
    leaves (exec (.mfs 1 0x122) s) (fun t => (t.core 0).sysWb == [at' 0x122] && t.me.gpr 1 == 0) ∧
    ((at' 0x122).act = .inl 1 ∧ (s.ctx 0).live = true ∧ (s.ctx 0).ident = (at' 0x122).who) ∧
    ((s.sysLand (at' 0x122)).me.gpr 1 = 0xC000_0000_0000_1234 ∧ (s.sysLand (at' 0x122)).me.epfqh = 9) ∧
    ((atLevel device 1).sysLand (at' 0x122)).me.gpr 1 = 0 ∧ (device.sysLand (at' 0x010)).me.gpr 1 = 16 ∧
    runs (exec (.mfs 1 0x010) (det device)) (trapped (det device) false .order 0 0) ∧
    runs (exec (.mfs 1 0x009) device) (.trapAt (device.stamp false) 0 .ill 0 0) ∧
    runs (exec (.mfs 1 0x122) device) (.trapAt (device.stamp false) 0 .priv 0 0) := by decide +kernel

theorem witness_SystemRegisters_writes :
    let s := (atLevel (regs [(1, 0xFFFF_FFFF_FFFF_FFFF), (2, 0)]) 2).modPart 0 fun p => { p with trange := 0x1_0000 }
    let wb := fun (n : Nat) (v : Word) => (⟨24, 0, ⟨0, 0, 0⟩, n, .inr v⟩ : SysWb)
    let back := fun (r : BitVec 5) (n : BitVec 10) (v : Word) => leaves (exec (.mts r n) s) fun t =>
      (t.core 0).sysWb == [wb n.toNat (s.me.gpr r.toNat)] && (s.sysLand (wb n.toNat (s.me.gpr r.toNat))).sysVal n.toNat == v
    sysWriteLevel 0x010 = none ∧ sysWriteLevel 0x220 = some 2 ∧ MayIssue s 2 [.gsrc 0 1] ∧ MayIssue device 0 [.gsrc 0 1] ∧
    runs (exec (.mts 1 0x010) s) (.trapAt (s.stamp false) 0 .ill 0 0) ∧ runs (exec (.mts 1 0x220) device) (.trapAt (device.stamp false) 0 .priv 0 0) ∧
    back 1 0x000 (-2) ∧ back 1 0x101 0x1FFFFBAE6 ∧ back 1 0x110 0x0000FFFFFFFFF000 ∧ back 1 0x201 3600 ∧ back 2 0x201 1000 ∧
    back 2 0x203 1 ∧ back 1 0x203 255 ∧ back 1 0x004 0x1FFF ∧ back 1 0x112 0x1FFF0FFF ∧ back 1 0x20F 255 ∧
    s.myPart.hasAsid 0 = true ∧ s.myPart.hasAsid 0xFFFF_FFFF = false ∧ runs (exec (.mts 1 0x111) s) (trapped s false .perm 0 0) ∧
    (s.sysLand ⟨24, 0, ⟨0, 0, 1⟩, 0, .inr 5⟩).threads = s.threads := by
  decide +kernel

theorem witness_SupervisorInstructions :
    let s := (atLevel (regs [(1, 1023), (2, 1024), (3, 0), (4, 2048), (5, 8), (6, 0x40000), (7, 0x10005)]) 1).modPart 0 fun p => { p with trange := 0x1_0000 }
    stPl device.me.status = 0 ∧ (∀ i ∈ [Instr.tlbinv 1 2, .wdset 1 2, .kill 1, .preempt 1], runs (exec i device) (.trapAt (device.stamp false) 0 .priv 0 0)) ∧
    meets s 1 [.src 1 3, .src 2 3] [(3, 0)] ∧ meets s 1 [.dst 0 9, .src 1 2] [(2, 1024)] ∧ meets s 1 [.src 1 3] [] ∧
    leaves (exec (.tlbinv 3 3) s) (fun t => (t.core 0).tlb == []) ∧ runs (exec (.tlbinv 3 6) s) (trapped s false .opnd 2 0) ∧
    runs (exec (.tlbinv 3 7) s) (trapped s false .perm 0 0) ∧
    leaves (exec (.wdset 9 2) s) (fun t => t.me.gpr 9 == 0x1000000 && (t.part 0).wdlimit == 1024) ∧ runs (exec (.wdset 9 1) s) (trapped s false .opnd 1 0) ∧
    (∀ i ∈ [Instr.kill 4, .preempt 4], runs (exec i s) (trapped s false .addr 0 2048)) ∧
    (∀ i ∈ [Instr.kill 5, .preempt 5], runs (exec i s) (trapped s false .perm 0 8)) ∧
    leaves (exec (.preempt 3) s) (fun t => (t.core 0).preempting) ∧ leaves (exec (.kill 3) s) (fun t => (t.teamOf 0 0).state == .killed) := by
  decide +kernel

theorem witness_IssueEvents :
    let h := device.modMe fun c => { c with wait := .halting }
    let w := device.modMe fun c => { c with wd := 0x1000000 }
    (h.ctx 0).live = true ∧ (h.ctx 0).posted = [] ∧ leaves (exec (.threadEnd 0) h) (fun t => !(t.ctx 0).live) ∧
    w.wdLimit 0 < (w.ctx 0).wd + 1 ∧ leaves (exec (.watchdogExpiry 0) w) (fun t => t.me.sv.cause == 14 && t.me.sv.info == 0x1000000) ∧
    runs (exec (.watchdogExpiry 0) device) device ∧
    leaves (exec (.illegalInstruction 0xC000_0000 false) device) (fun t => t.me.sv.cause == 1 && t.me.sv.bits == 0xC000_0000) ∧
    leaves (exec (.instructionFetchFault 0x200 true) device) (fun t => t.me.sv.info == 1 && t.me.sv.addr == 0x200) ∧
    leaves (exec (.epfqRead 0) (device.modPart 0 fun p => { p with epfq := [(0x1234, 9)] })) (fun t => (t.part 0).epfq == []) := by decide +kernel

/-! ## Rings, placement, swap -/

/-- Partition 0 with ring 0: control block at 0x8000, 4 KiB at 0x9000, holding a packet. -/
def ringed (packet : List Byte) : State :=
  let cb := toBytes 8 (0x9000 : Word) ++ toBytes 8 (0x1000 : Word) ++ toBytes 4 (BitVec.ofNat 64 packet.length) ++ [0, 0, 0, 0, 1]
  (withMem (withMem device 0x8000 cb) 0x9000 packet).modPart 0 fun p =>
    { p with rings := vset p.rings 0 0x8000, sliceCount := 1, trange := 0x1_0000 }
def launchPacket : List Byte :=
  [1, 3, 0, 0, 7, 0, 0, 0] ++ toBytes 8 (0x400 : Word) ++ toBytes 8 (0 : Word) ++ [1, 0, 0, 0, 0, 0, 0, 0] ++ List.replicate 16 0
def control (op : Byte) : List Byte := [op, 1, 0, 0] ++ List.replicate 12 0

theorem witness_RingEvents :
    let s := ringed launchPacket
    let bad := ringed (control 7)
    let halted := after (.doorbell 0 0) bad
    s.served 0 0 = .packet launchPacket ∧ bad.served 0 0 = .bad 1 0 ∧ (ringed []).served 0 0 = .idle ∧
    s.packetOf 0 0 1 = some launchPacket ∧ s.packetOf 0 0 2 = none ∧ s.launchArg 0 launchPacket 0 ≠ none ∧ launchGroups launchPacket = [] ∧
    leaves (exec (.doorbell 0 0) s) (fun t => t.agenda == [.packet 0 0]) ∧ halted.physRead 0x8018 8 = [2, 1, 0, 0, 0, 0, 0, 0] ∧
    leaves (exec (.launch 0 0) s) (fun t => t.agenda == [.launchAccept 0 0]) ∧
    leaves (exec (.launchAccept 0 0) s) (fun t => (t.launch 1).live || (t.launch 0).n == 1) ∧
    (let far := ringed (launchPacket.take 16 ++ toBytes 8 (0x20000 : Word) ++ launchPacket.drop 24)
     let grouped := [1, 4] ++ (launchPacket.take 26).drop 2 ++ [1, 0] ++ launchPacket.drop 28 ++ List.replicate 16 0
     far.launchArg 0 (launchPacket.take 16 ++ toBytes 8 (0x20000 : Word) ++ launchPacket.drop 24) 0 = none ∧
     leaves (exec (.launchAccept 0 0) far) (fun t => t.physRead 0x8018 2 == [2, 8]) ∧
     (s.ring 0 0).cb ≠ 0 ∧ (s.ring 0 0).state = 1 ∧ launchGroups grouped = [0] ∧
     leaves (exec (.launchAccept 0 0) ((ringed grouped).setGroup 0
       { valid := true, part := 0, launch := 0, members := [], homing := [] })) (fun t => t.agenda == [] && t.nextLaunch == 0)) ∧
    (∀ x ∈ [(Instr.nopPacket 0 0, (2 : Byte)), (.waitend 0 0, 3), (.preemptPacket 0 0, 4), (.resumePacket 0 0, 5), (.killPacket 0 0, 6)],
      (ringed (control x.2)).packetOf 0 0 x.2.toNat = some (control x.2) ∧
      leaves (exec x.1 { ringed (control x.2) with launches := [] }) (fun t => t.physRead 0x8014 1 == [16] && t.physRead 0x8020 1 == [1])) := by
  decide +kernel

theorem witness_Placement :
    let s := { device with
      teams := [(0, { Team.zero with state := .resident 0 }), (1, { Team.zero with state := .waiting, order := 5 }),
                (2, { Team.zero with state := .waiting, order := 4 })] }
    let full := s.modPart 0 fun p => { p with courses := [] }
    let late := s.modCore 0 fun k => { k with quantum := 0x400000 }
    let alone := device.modCore 0 fun k => { k with quantum := 0x400000 }
    let finished := { device with threads := [], cores := [], teams := [(0, { Team.zero with state := .ended })],
                                  launches := [(0, { Launch.zero with live := true, n := 1 })] }
    device.waitingTeams 0 = [] ∧ (firstWaiting (s.waitingTeams 0)).map (fun w => w.team) = some 2 ∧ s.pickCore 0 0 = some 1 ∧
    leaves (exec (.teamPlacement 0) s) (fun t => (t.core 1).team == some (0, 2)) ∧ full.pickCore 0 0 = none ∧
    (s.core 0).quantum < (s.part 0).quantum ∧ (late.part 0).quantum ≤ (late.core 0).quantum ∧
    leaves (exec (.quantumExpiry 0) late) (fun t => (t.core 0).preempting) ∧
    leaves (exec (.quantumExpiry 0) alone) (fun t => (t.core 0).quantum == 0 && !(t.core 0).preempting) ∧
    device.launchOver 0 = false ∧ finished.launchOver 0 = true ∧ leaves (exec (.launchEnd 0) finished) (fun t => !(t.launch 0).live) := by decide +kernel

/-- A waiting team of a higher priority displaces the running one; an end record is stored, or its fault reported. -/
theorem witness_Placement_ends :
    let s := { device with
      launches := [(0, { Launch.zero with live := true, n := 1, prio := 1 }), (1, { Launch.zero with live := true, n := 1, prio := 3 })]
      teams := [(0, { Team.zero with state := .resident 0 }), (65536, { Team.zero with state := .waiting, order := 4 })] }
    let ended := { Launch.zero with live := true, n := 1, tag := 7, endrec := 0x18000 }
    (s.teamOf 1 0).state = .waiting ∧ (s.waitingTeams 0).map (·.prio) = [3] ∧ (s.displaceFor 0 (s.waitingTeams 0)).preempted 0 = true ∧
    (s.displaceFor 0 []).preempted 0 = false ∧ ((s.modLaunch 0 fun l => { l with prio := 3 }).displaceFor 0 (s.waitingTeams 0)).preempted 0 = false ∧
    Launch.zero.endrec = 0 ∧ ended.endrec ≠ 0 ∧ tabled.sillAddr 0 0 0x18000 .store = some 0x8000 ∧ tabled.sillAddr 0 0 0x28000 .store = none ∧
    (tabled.writeEnd ended).physRead 0x8000 5 = [7, 0, 0, 0, 1] := by decide +kernel

theorem witness_SwapEvents :
    let s := device.modCore 0 fun k => { k with preempting := true }
    let h := s.modMe fun c => { c with halted := true }
    let out := after (.swapOut 0) h
    let back := (out.modCore 0 fun k => { k with team := some (0, 0), restoring := true }).modTeam 0 0 fun x => { x with state := .resident 0 }
    (s.ctx 0).live = true ∧ s.preempted 0 = true ∧ (s.ctx 0).wait.boundary = true ∧ leaves (exec (.preemptionHalt 0) s) (fun t => t.me.halted) ∧
    device.preempted 0 = false ∧ (s.core 5).team = none ∧ (s.core 0).restoring = false ∧
    (∀ x ∈ h.teamThreads 0 0, (h.ctx x).halted = true) ∧ h.teamThreads 0 0 ≠ [] ∧
    (out.core 0).team = none ∧ (out.teamOf 0 0).state = .out ∧ (out.ctx 0).live = false ∧
    (back.core 0).restoring = true ∧ (back.core 0).team = some (0, 0) ∧
    leaves (exec (.swapIn 0) back) (fun t => !(t.core 0).restoring && (t.ctx 0).live && (t.ctx 0).pc == 0x100) := by decide +kernel

/-- A team whose matrix operation runs, and whose other one waits, is not swapped out yet; a team whose handle no slot can take
waits for its swap-in. -/
theorem witness_SwapWaits :
    let op : TokOp := .mma .f64 0 [] none false
    let h := ((device.modCore 0 fun k => { k with preempting := true }).modMe fun c => { c with halted := true, posted := [] })
    let busy := (h.modToken 1 fun t => { t with state := .running, gen := 1, op := op }).modToken 0x10001 fun t =>
      { t with state := .queued, gen := 1, op := op }
    let back := (device.modCore 0 fun k => { k with restoring := true }).modTeam 0 0 fun x =>
      { x with ctxs := [(0, { thread with t := vset thread.t 3 (some 5) })] }
    (busy.teamTokens 0 0).length = 2 ∧
    leaves (exec (.swapOut 0) busy) (fun t => (t.core 0).team == some (0, 0) && (t.token 0x10001).away && !(t.token 1).away) ∧
    (back.rebindImage 0 id (back.teamOf 0 0).ctxs).isNone = true ∧
    leaves (exec (.swapIn 0) back) (fun t => (t.core 0).restoring && decide (t.threads = back.threads)) := by decide +kernel

/-! ## Heat, power, links -/

theorem witness_ThermalEvents :
    let hot := (device.modMe fun c => c).modCore 0 fun k => { k with removal := 15 }
    let s := (device.modCtx 15 fun _ => { thread with status := mkStatus false 15 false 0 0 }).modCore 0 fun k => { k with removal := 1 }
    s.displaceable 15 = some 0 ∧ leaves (exec (.thermalDisplacement 15) s) (fun t => !(t.ctx 15).live && (t.core 0).arrivals.length == 1) ∧
    hot.displaceable 0 = none ∧ hot.removed 0 = false ∧ (s.ctx 15).live = true ∧ 16 - (s.core 0).removal.toNat ≤ slotOf 15 ∧
    (s.die 0).ranking.find? (fun k => (s.part 0).hasCore k && (s.freeContext k).isSome) = some 0 ∧
    (let p := tiled s 0 []
     let pin := p.modCtx 15 fun c => { c with t := vset c.t 3 (some 127) }
     pin.displaceable 15 = none ∧ (pin.ctx 15).live = true ∧ pin.removed 15 = true ∧
     leaves (exec (.thermalDisplacement 15) pin) (fun t => (t.die 0).mhz == 1875)) ∧
    runs (exec (.removalLevelChange 0 16) device) device ∧ runs (exec (.removalLevelChange 0 0) device) device ∧
    leaves (exec (.powerWindow 0 451) device) (fun t => (t.die 0).mhz == 1875 && (t.die 0).lowWindows == 0) ∧
    leaves (exec (.powerWindow 0 450) device) (fun t => (t.die 0).mhz == 2000 && (t.die 0).lowWindows == 0) ∧
    leaves (exec (.powerWindow 0 427) device) (fun t => (t.die 0).mhz == 2000 && (t.die 0).lowWindows == 1) ∧
    leaves (exec (.powerWindow 0 427) (device.modDie 0 fun d => { d with mhz := 1500, lowWindows := 15 })) (fun t =>
      (t.die 0).mhz == 1625 && (t.die 0).lowWindows == 0) := by decide +kernel

theorem witness_LinkEvents :
    let m : LinkId := linkId 0
    let k := linkNo m
    let down := device.modLink k fun y => { y with state := 2 }
    (device.linkAt k).state = 1 ∧ (farEnd k).isSome = true ∧ farEnd k ≠ some k ∧ (down.linkAt k).state = 2 ∧ k < 32 ∧
    leaves (exec (.flitReceive m 0 true) device) (fun t => (t.linkAt k).rxflits == 1 && (t.linkAt k).rxSeq == 1) ∧
    leaves (exec (.flitReceive m 0 false) device) (fun t => (t.linkAt k).crcerr == 1 && (t.linkAt k).nakSent && t.agenda.length == 1) ∧
    (let two := let y : Msg := ⟨.request, 0, ⟨0, 0, 0⟩, [5], [], 2, 0⟩; (device.sendOn y).sendOn y
     let bad := after (.flitReceive m 0 false) two
     two.underWay k 0 = true ∧ two.underWay k 1 = false ∧ bad.underWay k 1 = true ∧ bad.underWay k 0 = false ∧
     leaves (exec (.flitReceive m 1 true) bad) (fun t => (t.linkAt k).crcerr == 1 && (t.linkAt k).nakSent && (t.linkAt k).rxSeq == 0)) ∧
    (device.outside k 9).underWay k 9 = false ∧ (device.outside k 0).underWay k 0 = true ∧ (down.outside k 0).underWay k 0 = true ∧
    leaves (exec (.flitReceive m 9 true) device) (fun t => (t.linkAt k).rxflits == 0 && !(t.linkAt k).nakSent) ∧
    leaves (exec (.flitReceive m 0 true) down) (fun t => (t.linkAt k).late == [(0, true)]) ∧
    pathTo 0 5 2 = [0, 6] ∧
    leaves (exec (.nakReceive m 0) device) (fun t => (t.linkAt k).naks == 1) ∧
    leaves (exec (.laneFailure m true) device) (fun t => (t.linkAt k).repair == 1) ∧
    leaves (exec (.laneFailure m false) device) (fun t => (t.linkAt k).state == 2 && (t.linkAt k).width == 32 && (t.linkAt k).retrains == 1) ∧
    leaves (exec (.retrainComplete m) down) (fun t => (t.linkAt k).state == 1) ∧
    leaves (exec (.moduleDown m false) device) (fun t => (t.linkAt k).state == 3 && (t.linkAt k).detour && t.fw.frozenHard) ∧
    leaves (exec (.moduleDown m true) device) (fun t => !t.fw.frozen && (t.linkAt k).width == 0) ∧
    leaves (exec (.ebnanPortDown 1) device) (fun t => (t.linkAt 49).state == 3) ∧ (device.linkAt 49).state ≠ 3 := by decide +kernel

/-- A core's reading is free: where it is hot, the removal level rises. -/
theorem witness_RemovalLevel (h : 95 < Config.junction device.fresh 0) :
    leaves (exec (.removalLevelChange 0 15) device) (fun t => (t.core 0).removal == 15 && t.agenda.contains (.contextClaim 0)) = true := by
  have : exec (.removalLevelChange 0 15) device =
      .next ((({ device with fresh := device.fresh + 1 }).modCore 0 fun k => { k with removal := 15 }).post (.contextClaim 0)) := by
    simp only [exec, execRemovalLevelChange, h]; rfl
  rw [this]; decide +kernel

/-- Flits, replay, training, a pier port's loss. -/
theorem witness_Flits :
    let m : Msg := ⟨.request, 0, ⟨0, 0, 0⟩, [0], [], 2, 0⟩
    let sent := device.sendOn m
    let training := device.modLink 1 fun y => { y with state := 2 }
    let down := device.modLink 1 fun y => { y with state := 3 }
    let group := device.modPart 0 fun p => { p with pier := 0x1000702 }
    (device.linkAt 0).detour = false ∧ (device.linkAt 0).queue = [] ∧ (device.linkAt 0).buf.length < 128 ∧ farEnd 0 = some 5 ∧
    sent.agenda = [.flit (linkId 5) 0] ∧ (sent.linkAt 0).buf.length = 1 ∧
    leaves (exec (.flitReceive (linkId 5) 0 true) sent) (fun t => t.agenda == [.reply 0] && (t.linkAt 5).rxSeq == 1) ∧
    leaves (exec (.nakReceive (linkId 0) 0) { sent with agenda := [] }) (fun t =>
      t.agenda == [.flit (linkId 5) 0] && (t.linkAt 0).replayed == 1) ∧
    leaves (exec (.flitReceive (linkId 1) 0 true) training) (fun t => (t.linkAt 1).late == [(0, true)]) ∧
    leaves (exec (.nakReceive (linkId 1) 0) training) (fun t => (t.linkAt 1).nakHeld == some 0) ∧
    leaves (exec (.flitReceive (linkId 1) 0 true) down) (fun t => (t.linkAt 1).rxflits == 0) ∧ runs (exec (.nakReceive (linkId 1) 0) down) down ∧
    leaves (exec (.nakReceive (linkId 32) 0) (device.sendOn { m with path := [32] })) (fun t => (t.linkAt 32).replayed == 1) ∧
    (group.linkAt 47).state = 1 ∧ leaves (exec (.moduleDown (linkId 47) true) { group with parts := [] }) (fun t => (t.linkAt 47).state == 3) := by decide +kernel

/-! ## Host, firmware, reset -/

theorem witness_HostAccesses :
    let s := device.modPart 0 fun p => { p with writable := [(0, 1)] }
    let c := { device with corrSectors := [5] }
    inDram 0x1001 = true ∧ (s.parts.any fun p => p.2.valid && inRanges p.2.writable 0) = true ∧
    leaves (exec (.hostWriteDeviceDram 0x1000 [1, 2]) s) (fun t => t.physRead 0x1000 2 == [1, 2]) ∧
    (device.parts.any fun p => p.2.valid && inRanges p.2.writable 0) = false ∧
    leaves (exec (.hostWriteDeviceDram 0x1000 [1, 2]) device) (fun t => t.physRead 0x1000 2 == [0, 0]) ∧
    inHost (2 ^ 47) = true ∧ inHost (2 ^ 47 + 1) = true ∧
    leaves (exec (.hostSectorAccess (2 ^ 47) [7, 8]) device) (fun t => t.physRead (2 ^ 47) 2 == [7, 8]) ∧
    leaves (exec (.patrolScrub 5) c) (fun t => t.corrSectors == [] && (t.part 0).cecount == 1) ∧ runs (exec (.patrolScrub 6) c) c ∧
    leaves (exec (.hostWriteDeviceDram 0x1000 []) (withMem s 0x1000 [5])) (fun t => t.fw.hostRead == [5]) ∧
    leaves (exec (.hostSectorAccess (2 ^ 47) []) (withMem s (2 ^ 47) [6])) (fun t => t.fw.hostRead == [6]) ∧
    inDram 0x8000_0000_0000 = false ∧ runs (exec (.hostWriteDeviceDram 0x8000_0000_0040 [1]) s) s ∧
    (let cmd := fun (op : Byte) => exec (.hostWriteDeviceDram 0xC000_0000_0000 [op, 1])
     let del := s.modPart 0 fun p => { p with deleting := some ⟨1, 0⟩ }
     leaves (cmd 1 s) (fun t => (vget CmdPage.zero t.fw.pages 0).status == 1) ∧
     leaves (cmd 12 s) (fun t => t.fw.waiting == [.refuse 0 1] && leaves (step t) fun u => (vget CmdPage.zero u.fw.pages 0).reason == 1) ∧
     del.busy = true ∧
     leaves (cmd 12 del) (fun t => t.fw.waiting == [.refuse 0 1])) := by decide +kernel

/-- Each port has the windows; a write over two doorbell words rings both rings; a ring that the host sets running is served. -/
theorem witness_HostAccesses_ports :
    let s := device.modPart 0 fun p => { p with writable := [(0, 1)] }
    let two := (s.modPart 0 fun p => { p with rings := (vset p.rings 0 0x8000).set 1 0x8040 })
    let cb := toBytes 8 (0x9000 : Word) ++ toBytes 8 (0x1000 : Word) ++ [0, 0, 0, 0, 0, 0, 0, 0]
    let halted := (withMem s 0x8000 (cb ++ [2, 1])).modPart 0 fun p => { p with rings := vset p.rings 0 0x8000 }
    inDram 0x1001 = true ∧ leaves (exec (.hostWriteDeviceDram (2 ^ 48 + 0x1000) [1, 2]) s) (fun t => t.physRead 0x1000 2 == [1, 2]) ∧
    leaves (exec (.hostWriteDeviceDram (2 ^ 48 + 0x1000) []) (withMem s 0x1000 [5])) (fun t => t.fw.hostRead == [5]) ∧
    leaves (exec (.hostWriteDeviceDram 0x8000_0000_0000 (List.replicate 16 0)) two)
      (fun t => decide (t.threads = two.threads)) ∧
    (halted.ring 0 0).cb = 0x8000 ∧ (halted.ring 0 0).state ≠ 1 ∧ ((halted.physWrite 0x8018 [1]).ring 0 0).state = 1 ∧
    leaves (exec (.hostWriteDeviceDram 0x8018 [1]) halted) (fun t => t.physRead 0x8018 2 == [1, 0] && t.agenda.contains (.packet 0 0)) := by
  decide +kernel

def page (port : Nat) : CmdHead := ⟨port, 7⟩
def answers (o : Out) (port : Nat) (op status reason : Byte) : Bool :=
  leaves o fun t => vget CmdPage.zero t.fw.pages port == { op := op, status := status, reason := reason, tag := 7, args := [] }
def settings : PartCfg :=
  { part := 1, courses := [1], asidFirst := 0, asidCount := 4096, sliceFirst := 0, sliceCount := 256
    shares := List.replicate 8 0, vaultGroups := [], rings := List.replicate 8 0, faultQueue := 0, quantum := 2 ^ 16
    owned := [], writable := [] }

theorem witness_CommandPages_plain :
    let s := device
    let unbooted := { s with fw := { s.fw with boot := 2 } }
    let hard := { s with fw := { s.fw with frozen := true, frozenHard := true } }
    (page 1).port < 2 ∧ s.fw.boot = 1 ∧ unbooted.fw.boot ≠ 1 ∧ hard.fw.frozenHard = true ∧ s.fw.frozenHard = false ∧ s.fw.pinLow = false ∧
    answers (exec (.bootstat (page 1)) unbooted) 1 1 2 2 ∧ runs (exec (.freeze (page 1)) unbooted) unbooted ∧
    answers (exec (.mgmtq (page 0) (2 ^ 47)) s) 0 5 2 0 ∧ answers (exec (.mgmtq (page 0) (2 ^ 47 + 32)) s) 0 5 3 2 ∧
    (List.replicate 32 (0 : Byte)).length = 32 ∧ inHost (2 ^ 47) = true ∧ inHost (2 ^ 47 + 160 + 7856 - 1) = true ∧
    answers (exec (.freeze (page 0)) s) 0 6 2 0 ∧ leaves (exec (.freeze (page 0)) s) (fun t => t.fw.frozen && !(t.calib 0).v) ∧
    (let del := s.modPart 0 fun p => { p with deleting := some (page 1) }
     s.busy = false ∧ del.busy = true ∧ leaves (exec (.bootstat (page 0)) del) (fun t => t.fw.waiting == [.bootstat (page 0)]) ∧
     leaves (exec (.freeze (page 0)) del) (fun t => t.fw.waiting == [.freeze (page 0)] && !t.fw.frozen)) ∧
    answers (exec (.floor (page 0) 65 []) s) 0 11 3 2 ∧ answers (exec (.floor (page 0) 64 []) s) 0 11 3 2 ∧
    answers (exec (.attest (page 0) (2 ^ 47) []) s) 0 4 3 2 ∧
    answers (exec (.thaw (page 0)) hard) 0 7 3 2 ∧ leaves (exec (.thaw (page 0)) s) (fun t => !t.fw.frozen) ∧
    (let low := { s with fw := { s.fw with frozen := true, pinLow := true } }
     low.fw.pinLow = true ∧ low.fw.frozenHard = false ∧ answers (exec (.thaw (page 0)) low) 0 7 2 0 ∧
     leaves (exec (.thaw (page 0)) low) (fun t => t.fw.frozen)) := by decide +kernel

theorem witness_CommandPages_debug :
    let s := device
    let dbg := { s with fw := { s.fw with dbgctl := 1 } }
    let held := { dbg with threads := [(0, { thread with dbgAsked := true, dbgHeld := true })] }
    s.fw.dbgctl.getLsbD 0 = false ∧ dbg.fw.dbgctl.getLsbD 0 = true ∧ (dbg.ctx 1).live = false ∧
    answers (exec (.dhalt (page 0) (.thread 0) []) s) 0 8 3 3 ∧ answers (exec (.drun (page 0) 0 []) s) 0 9 3 3 ∧
    answers (exec (.dstep (page 0) 0) s) 0 10 3 3 ∧
    leaves (exec (.dhalt (page 0) (.thread 0) []) dbg) (fun t => t.me.dbgAsked) ∧ answers (exec (.dhalt (page 0) (.thread 1) []) dbg) 0 8 3 2 ∧
    (let two := dbg.modTeam 0 1 fun x => { x with state := .ended }
     (dbg.teamOf 0 0).state.alive = true ∧ (two.teamOf 0 1).state.alive = false ∧
     leaves (exec (.dhalt (page 0) (.team 0 0) []) dbg) (fun t => t.me.dbgAsked) ∧ answers (exec (.dhalt (page 0) (.team 0 1) []) two) 0 8 3 2) ∧
    leaves (exec (.drun (page 0) 0 [⟨.g, 3, 9⟩, ⟨.i, 0, 6⟩, ⟨.vs, 0, -1⟩]) held) (fun t => !t.me.dbgAsked && !t.me.dbgHeld &&
      t.me.gpr 3 == 9 && value t 16 == some 6 && t.me.vs == 0x7FF && (t.fw.dbgView.map (·.ctx.dbgHeld)) == some true) ∧
    leaves (exec (.dstep (page 0) 0) held) (fun t => t.me.dbgAsked && !t.me.dbgHeld && t.me.dbgStep) ∧
    answers (exec (.drun (page 0) 1 []) dbg) 0 9 3 2 ∧ answers (exec (.dstep (page 0) 1) dbg) 0 10 3 2 := by decide +kernel

theorem witness_CommandPages_partitions :
    let s := device
    (s.part 1).valid = false ∧ (s.part 0).valid = true ∧ (s.part 0).deleting = none ∧ partCfgOk settings = true ∧ s.partFits settings = true ∧
    s.coursesIdle ((s.part 1).courses.filter fun k => !settings.courses.contains k) = true ∧
    answers (exec (.partdel (page 0) 1) s) 0 3 3 2 ∧ leaves (exec (.partdel (page 0) 0) s) (fun t => (t.part 0).deleting == some (page 0)) ∧
    answers (exec (.partset (page 0) { settings with part := 160 }) s) 0 2 3 2 ∧
    answers (exec (.partset (page 0) { settings with asidFirst := 1 }) s) 0 2 3 2 ∧
    leaves (exec (.partset (page 0) settings) s) (fun t => (t.part 1).valid && (t.part 1).courses == [1]) ∧
    answers (exec (.partset (page 0) settings) s) 0 2 2 0 ∧
    (let taken := s.modPart 0 fun p => { p with trange := 0x10_0000 }
     0 < (taken.part 0).asidCount ∧ answers (exec (.partset (page 0) settings) taken) 0 2 3 2) := by decide +kernel

/-- A partition goes once its launches have ended: its scratchpads and slots are zero, its page done. -/
theorem witness_CommandPages_deletion :
    let going := { (device.modPart 0 fun p => { p with courses := [0], deleting := some (page 0) }) with launches := [], threads := [] }
    let dirty := tiled (withSpad going 0x100 [9]) 0 [5]
    (dirty.part 0).deleting = some (page 0) ∧ (dirty.launches.filter fun l => l.2.live) = [] ∧
    ((dirty.finishDelete 0).part 0).valid = false ∧ (dirty.finishDelete 0).spadRead 0 0x100 1 = [0] ∧
    (vget CmdPage.zero (dirty.finishDelete 0).fw.pages 0).status = 2 ∧
    (device.finishDelete 0).parts = device.parts ∧ (device.killLaunch 0).teamOf 0 0 ≠ device.teamOf 0 0 ∧
    ((device.modVGroup 8 fun v => { v with cfg := .configured, run := .holding, cells := [(0, 1)] }).reassign 8).vgroup 8 =
      { (device.vgroup 8) with run := .holding } := by decide +kernel

theorem witness_FreezeAndReset :
    let low := { device with fw := { device.fw with pinLow := true, frozen := true } }
    let asked := device.modMe fun c => { c with dbgAsked := true }
    device.fw.pinLow = false ∧ low.fw.pinLow = true ∧ leaves (exec .freezePinAssert device) (fun t => t.fw.frozen && t.fw.pinLow) ∧
    leaves (exec .freezePinRelease low) (fun t => !t.fw.frozen && !t.fw.pinLow) ∧
    (asked.ctx 0).live = true ∧ (asked.ctx 0).wait.boundary = true ∧ leaves (exec (.debugHaltReached 0) asked) (fun t => t.me.dbgHeld) ∧
    runs (exec (.debugHaltReached 0) device) device := by decide +kernel

theorem witness_ScanAndReset :
    let low := { device with fw := { device.fw with pinLow := true, frozen := true } }
    low.fw.dbgctl.getLsbD 0 = false ∧
    ((low.scanBack 8 0 (.columns (List.replicate 64 { low.calib 0 with v := false }))).calib 3).v = false ∧
    (low.scanBack 0 21 (.slices [(0, [(⟨0, .normal, false, [], [], [], []⟩, [7, 8])])])).physRead 0 2 = [7, 8] ∧
    leaves (exec (.scanReadout 8 0) device) (fun t => t.fw.readout == .ones) ∧
    leaves (exec (.scanReadout 8 0) low) (fun t => (match t.fw.readout with | .columns cs => cs.length == 64 | _ => false) && t.fw.scan.length == 1792) ∧
    leaves (exec (.deviceReset [1]) low) (fun t => t.threads == [] && t.fw.frozen && t.fw.boot == 0 && t.fw.phase == 1 &&
      (t.linkAt 0).state == 2 && (t.die 7).pcount == 0 && (t.die 7).mhz == 1000 && !(t.calib 5).v) := by
  decide +kernel

/-- What the monitors read is free: where a die's reading asks for a trip, the trip freezes. -/
theorem witness_ThermalTrip (h : 110 ≤ Config.dieJunction device.fresh 3) :
    leaves (exec (.thermalTrip 3 1) device) (fun t => t.fw.frozen) = true := by
  have : exec (.thermalTrip 3 1) device = .next ({ device with fresh := device.fresh + 1 }.freeze false 1 3) := by
    simp only [exec, execThermalTrip, h, decide_true, Bool.true_or, if_true]; rfl
  rw [this]; decide +kernel

/-- A boot in a phase, with the fuses of an image key of zeros; die 0 names no course to disable. -/
def booting (n : Nat) : State :=
  { device with fw := { device.fw with boot := 0, phase := n, keyHash := sha256 [], image := [] } }
theorem witness_BootPhases :
    let bad := (booting 3).modDie 0 fun d => { d with disabled := 21 }
    ((booting 1).fw.boot = 0 ∧ device.fw.boot ≠ 0 ∧ (booting 1).bootPhase.fw.phase = 2) ∧
    (imageOk (booting 2).fw (booting 2).fw.image = false ∧ (booting 2).bootPhase.fw.boot = 2) ∧
    (¬ (bad.die 0).disabled.toNat ≤ 20 ∧ bad.bootPhase.fw.boot = 3 ∧ bad.bootPhase.links = bad.links) ∧
    ((booting 4).bootPhase.fw.phase = 5 ∧ (booting 4).bootPhase.cores = []) ∧ (booting 5).bootPhase.fw.phase = 6 ∧
    ((booting 6).bootPhase.fw.phase = 7 ∧ ((booting 6).bootPhase.die 3).mhz = 2000) ∧ (booting 7).bootPhase.fw.boot = 1 := by decide +kernel

theorem witness_ResetState : (State.reset.ctx 0).live = false ∧ (State.reset.linkAt 0).state = 1 ∧ (State.reset.die 7).pcount = 28 ∧
    (State.reset.calib 127).v = true := by decide +kernel

theorem witness_MemoryStaysCanonical :
    let s := holds (.stB64 1 2 0 0) (regs [(1, 5), (2, 0x200)])
    Memory.wf s.mem = true ∧ leaves (step s) (fun t => Memory.wf t.mem) := by decide +kernel

end Sys2Proof.Tests
end

