-- ==== Sys2Proof/Tests/WitnessUnits.lean ====
section
/-! SUPPORT. A concrete state and operands that meet the hypotheses of each statement, and, with them, what the
spec says follows there; vector, tile, token, copy, task, channel and vault instructions and their engines. -/

set_option Elab.async false

namespace Sys2Proof.Tests

open Sys2Proof Sys2Proof.Machine

/-! ## Vector instructions -/

theorem witness_VectorResults_three :
    let s := vec 4 [3, 0xFFFF_FFFF] [0xFFFF_FFFE, 5] [7, 0]
    let u := s.vecStart 2
    let three := [dstStrm 2 4 false, srcStrm 0 4, srcStrm 1 4]
    let fs : List Field := [.file 0 2 7, .file 1 0 7, .file 2 1 7]
    let out := fun (a b : Word) => vecEffect three 2 4 1 1 0 { elems := [a, b], result := 0, flags := 0 } u
    VecReady s fs three 1 2 ∧
    (∀ x ∈ [(Instr.vadd 2 0 1 0 3, (1 : Word), (4 : Word)), (.vsub 2 0 1 0 2, 5, 0xFFFF_FFFA), (.vmul 2 0 1 0 2, 0xFFFF_FFFA, 0xFFFF_FFFB),
        (.vmin 2 0 1 2, 0xFFFF_FFFE, 0xFFFF_FFFF), (.vmax 2 0 1 3, 0xFFFF_FFFE, 0xFFFF_FFFF), (.vclt 2 0 1 2, 0, 0xFFFF_FFFF),
        (.vclt 2 0 1 3, 0xFFFF_FFFF, 0), (.vceq 2 0 1 2, 0, 0), (.vcle 2 0 1 2, 0, 0xFFFF_FFFF), (.vand 2 0 1 0, 2, 5), (.vor 2 0 1 1, 0xFFFF_FFFF, 0xFFFF_FFFF),
        (.vxor 2 0 1 0, 0xFFFF_FFFD, 0xFFFF_FFFA)], runs (exec x.1 s) (out x.2.1 x.2.2)) := by decide +kernel

theorem witness_VectorResults_float :
    let s := vec 4 [0x3F80_0000, 0x4000_0000] [0x4000_0000, 0x4000_0000] [0x3F80_0000, 0]
    let u := s.vecStart 2
    let fs : List Field := [.file 0 2 7, .file 1 0 7, .file 2 1 7]
    let out := fun (rdD : Bool) (a b : Word) =>
      vecEffect [dstStrm 2 4 rdD, srcStrm 0 4, srcStrm 1 4] 2 4 1 1 0 { elems := [a, b], result := 0, flags := 0 } u
    VecReady s fs [dstStrm 2 4 true, srcStrm 0 4, srcStrm 1 4] 1 2 ∧
    (∀ x ∈ [(Instr.vadd 2 0 1 4 1, false, (0x4040_0000 : Word), (0x4080_0000 : Word)), (.vmac 2 0 1 1 1, true, 0x4040_0000, 0x4080_0000),
        (.vsel 2 0 1 1, true, 0x3F80_0000, 0x4000_0000), (.vcle 2 0 1 1, false, 0xFFFF_FFFF, 0xFFFF_FFFF)],
      runs (exec x.1 s) (out x.2.1 x.2.2.1 x.2.2.2)) ∧
    runs (exec (.vdiv 2 0 1 0 1) s) (vecEffect [dstStrm 2 4 false, srcStrm 0 4, srcStrm 1 4] 2 4 1 4 0
      { elems := [0x3F00_0000, 0x3F80_0000], result := 0, flags := 0 } u) := by decide +kernel

theorem witness_VectorResults_two :
    let s := vec 4 [0x4080_0000, 0x3F80_0000] [] []
    let u := s.vecStart 2
    let two := [dstStrm 2 4 false, srcStrm 0 4]
    VecReady s [.file 0 2 7, .file 1 0 7] two 1 2 ∧ VecReady s [.file 0 2 7, .file 1 0 7] [dstStrm 2 8 false, srcStrm 0 4] 2 2 ∧
    runs (exec (.vsqrt 2 0 0 1) s) (vecEffect two 2 4 1 4 0 { elems := [0x4000_0000, 0x3F80_0000], result := 0, flags := 0 } u) ∧
    runs (exec (.vcvt 2 0 1 1 2) s) (vecEffect two 2 4 1 1 0 { elems := [4, 1], result := 0, flags := 0 } u) ∧
    runs (exec (.vcvt 2 0 1 0 0) s) (vecEffect [dstStrm 2 8 false, srcStrm 0 4] 2 8 2 1 0
      { elems := [0x4010_0000_0000_0000, 0x3FF0_0000_0000_0000], result := 0, flags := 0 } u) ∧
    (let z := s.modMe fun c => { c with vl := 0 }
     VecReady z [.file 0 2 7, .file 1 0 7] two 1 0 ∧ runs (exec (.vtanh 2 0) z) (finish ((z.issued false).clampVl 0) [] 0 0)) := by
  decide +kernel

theorem witness_VectorResults_packed :
    let s := vec 4 [0x3838_3838, 0x3F80_3F80] [0x3840_3838, 0x3F80_4000] []
    let three := [dstStrm 2 4 false, srcStrm 0 4, srcStrm 1 4]
    VecReady s [.file 0 2 7, .file 1 0 7, .file 2 1 7] three 1 2 ∧ (2 : BitVec 2).toNat < 3 ∧
    leaves (exec (.vpadd 2 0 1 2 0) s) (fun t => t.spadRead 0 0x300 4 == [0x40, 0x40, 0x44, 0x40]) ∧
    leaves (exec (.vpmul 2 0 1 0 2) s) (fun t => t.spadRead 0 0x304 4 == [0x00, 0x40, 0x80, 0x3F]) := by decide +kernel

theorem witness_VectorResults_reductions :
    let s := vec 4 [0x8000_0000, 5] [1, 2] []
    let u := s.vecStart 2
    VecReady s [.dst 0 3, .file 1 0 7] [srcStrm 0 4] 1 2 ∧
    (∀ x ∈ [(Instr.vredsum 3 0 4 2, (0xFFFF_FFFF_8000_0005 : Word)), (.vredsum 3 0 0 3, 0x8000_0005), (.vredmin 3 0 2, 0xFFFF_FFFF_8000_0000),
        (.vredmax 3 0 3, 0x8000_0000)],
      runs (exec x.1 s) (vecEffect [srcStrm 0 4] 2 4 1 0 3 { elems := [], result := x.2, flags := 0 } u)) ∧
    VecReady s [.file 0 2 7, .file 1 0 7, .file 2 1 7] [dstStrm 2 4 false, srcStrm 0 4, srcStrm 1 4] 1 2 ∧
    runs (exec (.vshuf 2 0 1 0) s) (vecEffect [dstStrm 2 4 false, srcStrm 0 4, srcStrm 1 4] 2 4 1 1 0
      { elems := [5, 0], result := 0, flags := 0 } u) ∧
    (let far := [dstStrm 2 4 false, srcStrm 1 4, (⟨0, 4, true, false, some 1⟩ : Strm)]
     VecReady s [.file 0 2 7, .file 1 0 7, .file 2 1 7] far 1 2 ∧
     runs (exec (.vgather 2 0 1 0) s) (vecEffect far 2 4 1 1 0 { elems := [5, 0], result := 0, flags := 0 } u)) ∧
    (let z := s.modMe fun c => { c with vl := 0 }
     VecReady z [.dst 0 3, .file 1 0 7] [srcStrm 0 4] 1 0 ∧
     runs (exec (.vredmax 3 0 2) z) (finish ((z.issued false).clampVl 0) [] 3 0xFFFF_FFFF_8000_0000)) := by decide +kernel

theorem witness_VectorEffect_writes :
    let s := vec 4 [1, 2] [3, 4] []
    let sts := [dstStrm 2 4 false, srcStrm 0 4, srcStrm 1 4]
    (∀ t ∈ slotsOf 0, (match (s.ctx t).wait with | .await _ _ _ _ => false | _ => true : Bool) = true) ∧
    (sts.filter (·.writes)).map (·.ptr) = [(dstStrm 2 4 false).ptr] ∧ 0 < (dstStrm 2 4 false).size ∧ (dstStrm 2 4 false).size ≤ 8 ∧
    s.elemAddr (dstStrm 2 4 false) 0 + 4 ≤ s.elemAddr (dstStrm 2 4 false) 1 ∧
    (vecEffect sts 2 4 1 1 0 ⟨[4, 6], 0, 0⟩ s).spadRead 0 0x300 8 = [4, 0, 0, 0, 6, 0, 0, 0] := by decide +kernel

/-- A reduction writes no memory; a pointer named twice advances once. -/
theorem witness_VectorEffect_pointers :
    let s := vec 4 [1, 2] [3, 4] []
    let r := vecEffect [srcStrm 0 4] 2 4 1 0 3 ⟨[], 7, 0⟩ s
    let t := vecEffect [dstStrm 1 4 false, srcStrm 0 4, srcStrm 1 4] 2 4 1 1 0 ⟨[4, 6], 0, 0⟩ s
    [srcStrm 0 4].filter (·.writes) = [] ∧ r.spadRead 0 0x100 8 = s.spadRead 0 0x100 8 ∧ vget 0 r.me.p 0 = vec.ptr 0x108 ∧
    vget 0 r.me.p 1 = vec.ptr 0x200 ∧ vget true r.me.gFull 3 = false ∧
    vget 0 t.me.p 1 = vec.ptr 0x208 ∧ t.spadRead 0 0x200 8 = [4, 0, 0, 0, 6, 0, 0, 0] := by decide +kernel

theorem witness_VectorEffect_checks :
    let s := vec 4 [1, 2] [3, 4] []
    let odd := s.modMe fun c => { c with p := vset c.p 1 (vec.ptr 0x202) }
    let high := s.modMe fun c => { c with p := vset c.p 2 (vec.ptr 0x5FFFC) }
    let sts := [dstStrm 2 4 false, srcStrm 0 4, srcStrm 1 4]
    MayIssue odd 0 [.file 0 2 7, .file 1 0 7, .file 2 1 7, .vl, .vs] ∧ 2 = min odd.me.vl.toNat (odd.me.grant / (4 / 4)) ∧
    firstOf 2 sts (odd.vecStart 2).badElem = some (.align, 0x10, 0x202) ∧
    firstOf 2 sts (high.vecStart 2).badElem = some (.spad, 0x121, 0x60000) ∧
    runs (exec (.vadd 2 0 1 0 2) odd) (((odd.issued false).clampVl 2).trapAt 0 .align 0x10 0x202) := by decide +kernel

/-- The second element of p1 holds an uncorrectable error. -/
theorem witness_VectorEffect_memoryError :
    let s : State := { vec 4 [1, 2] [3, 4] [] with badSpad := [0x81] }
    let b := s.modMe fun c => { c with p := vset c.p 1 (vec.ptr 0x404) }
    let sts := [dstStrm 2 4 false, srcStrm 0 4, srcStrm 1 4]
    firstOf 2 sts (b.vecStart 2).badElem = none ∧ firstOf 2 sts (b.vecStart 2).badRead = some ((2, 0x408), 0x110, 0x408) ∧
    runs (exec (.vadd 2 0 1 0 2) b) ((((b.issued false).clampVl 2).logError 0 0 2 0x408).trapAt 0 .memerr 0x110 0x408) := by
  decide +kernel

theorem witness_VectorState :
    let s := regs [(2, 300), (3, 33)]
    let d := det s
    let held := d.modCtx 1 fun c => { c with live := true, grant := 240, want := 240 }
    meets s 0 [.dst 0 1, .src 1 2] [(2, 300)] ∧ meets s 0 [.dst 0 1, .vl] [] ∧ meets s 0 [.dst 0 1, .vs] [] ∧ meets s 0 [.file 0 7 7, .src 1 2] [] ∧
    meets s 0 [.dst 0 1, .file 1 7 7] [] ∧ meets held 0 [.dst 0 1, .src 1 3] [(3, 33)] ∧
    leaves (exec (.vlset 1 2) s) (fun t => t.me.vl == 256 && t.me.gpr 1 == 256) ∧ leaves (exec (.vlget 1) s) (fun t => t.me.gpr 1 == 0) ∧
    leaves (exec (.vclaim 1 3) s) (fun t => t.me.grant == 48 && t.me.gpr 1 == 48) ∧
    leaves (exec (.vclaim 1 2) d) (fun t => t.me.grant == 256 && t.me.gpr 1 == 256) ∧
    leaves (exec (.vclaim 1 3) held) (fun t => t.me.wait == .claim 1 3 && t.me.claimParked && t.me.grant == 0) ∧
    leaves (exec (.vgrant 1) s) (fun t => t.me.gpr 1 == 16) ∧ leaves (exec (.vsset 2) s) (fun t => t.me.vs == 300) ∧
    leaves (exec (.pset 7 2) s) (fun t => vget 0 t.me.p 7 == 300) ∧ leaves (exec (.pget 1 7) s) (fun t => t.me.gpr 1 == 0) ∧
    leaves (exec (.vsget 1) s) (fun t => t.me.gpr 1 == 16) ∧
    (let v := s.modMe fun c => { c with wait := .vector 0 3 5 9 }
     v.me.wait = .vector 0 3 5 9 ∧ leaves (exec (.vectorCompletion 0) v) (fun t => t.me.gpr 5 == 9 && t.me.wait == .ready)) := by decide +kernel

/-! ## Tile slots, conversion, matrix products -/

theorem witness_Tiles_slots :
    let s := tiled (ext device 7 (shapeOf 256 64 4 0x90).toNat) (shapeOf 2 2 5 0) []
    let all := device.modCourse 0 fun c => { c with slots := (List.range 128).map fun k => (k, { Slot.zero with bd := true }) }
    let busy := s.modSlot 0 127 fun z => { z with uses := 1 }
    meets s 0 [] [] ∧ meets s 0 [.ext 7 1] [] ∧ meets s 0 [.dst 0 1] [] ∧ vget none s.me.t 3 = some (BitVec.ofNat 7 127) ∧ vget none s.me.t 0 = none ∧
    runs (exec (.tclaim 3) s) (trapped s false .tile 3 0) ∧
    leaves (exec (.tclaim 0) s) (fun t => vget none t.me.t 0 == some 0 && (t.slot 0 0).bd) ∧
    (∀ j < 128, (all.slot 0 j).bd = true ∧ (all.slot 0 j).ow = false) ∧
    leaves (exec (.tclaim 0) all) (fun t => t.me.wait == .cond (.slotsBound 0)) ∧
    (let owed := all.modSlot 0 5 fun z => { z with bd := false, ow := true }
     (owed.slot 0 5).ow = true ∧ (∀ j < 128, (owed.slot 0 j).bd = true ∨ (owed.slot 0 j).ow = true) ∧
     leaves (exec (.tclaim 0) owed) (fun t => vget none t.me.t 0 == some 5)) ∧
    leaves (exec (.trelease 3) s) (fun t => vget none t.me.t 3 == none && !(t.slot 0 127).bd) ∧
    leaves (exec (.trelease 3) busy) (fun t => t.me.wait == .cond (.slotBusy 0 127)) ∧
    runs (exec (.trelease 0) s) (trapped s false .tile 0 0) ∧
    shapeOk (vget 0 s.me.e 7) = true ∧ leaves (exec (.tshape 3 7) s) (fun t => (t.slot 0 127).shape == shapeOf 256 64 4 0x90) ∧
    shapeOk (shapeOf 257 1 7 0).toNat = false ∧
    runs (exec (.tshape 3 7) (ext s 7 (shapeOf 257 1 7 0).toNat)) (trapped (ext s 7 (shapeOf 257 1 7 0).toNat) false .opnd 0x703 0) ∧
    leaves (exec (.tinfo 1 0) s) (fun t => t.me.gpr 1 == 0) ∧
    leaves (exec (.tinfo 1 3) s) (fun t => t.me.gpr 1 == 2 + 2 * 2 ^ 9 + 5 * 2 ^ 18 + 2 ^ 50) := by decide +kernel

/-- A handle that is not bound, a slot without a shape, a slot that an engine uses. -/
theorem witness_Tiles_traps :
    let s := tiled (regs [(1, 0x1000), (2, 0x10)]) 0 []
    let busy := s.modSlot 0 127 fun z => { z with uses := 1 }
    let all := fun (t : BitVec 5) => [Instr.tld t 1 2, .tsave t 1 2, .trowld t 1 7, .trowst t 1 7, .tcolld t 1 7, .tcolst t 1 7]
    (s.slot 0 127).shape.toNat % 2 ^ 9 = 0 ∧ (s.slot 0 127).uses = 0 ∧ (busy.slot 0 127).uses ≠ 0 ∧
    (∀ i ∈ all 3, runs (exec i s) (trapped s false .tile 3 0) = true ∧
      leaves (exec i busy) (fun t => t.me.wait == .cond (.slotBusy 0 127)) = true) ∧
    (∀ i ∈ .tshape 0 7 :: all 0, runs (exec i s) (trapped s false .tile 0 0)) := by decide +kernel

theorem witness_Tiles_memory :
    let s := tiled (withMem (regs [(1, 0x1000), (2, 0x10)]) 0x1000 [1, 2, 3, 4]) (shapeOf 2 2 5 0) [9, 8, 7, 6, 5, 4, 3, 2]
    let z := s.slot 0 127
    let ok := fun (e : Except Stop (List Piece)) => ((match e with | .ok l => l.length == 4 | _ => false) : Bool)
    meets s 0 [.src 1 1, .src 2 2] [(1, 0x1000), (2, 0x10)] ∧ z.uses = 0 ∧ 0 < shRows z.shape ∧
    ok (tilePieces z.shape 3 0x1000 0x10 .load) ∧ ok (tilePieces z.shape 3 0x1000 0x10 .store) ∧
    leaves (exec (.tld 3 1 2) s) (fun t => Mem.read (t.slot 0 127).payload 0 8 == [1, 2, 3, 4, 0, 0, 0, 0] && (t.slot 0 127).dy &&
      t.me.wait == .finish 0) ∧
    leaves (exec (.tsave 3 1 2) s) (fun t => t.physRead 0x1000 4 == [9, 8, 7, 6] && t.physRead 0x1010 4 == [5, 4, 3, 2] &&
      !(t.slot 0 127).dy) := by decide +kernel

/-- An ashlar whose tag is not the slot's. -/
theorem witness_Tiles_badAshlar :
    let s := tiled (regs [(1, 0x1000), (2, 0)]) (shapeOf 1 64 1 0x90) []
    let z := s.slot 0 127
    meets s 0 [.src 1 1, .src 2 2] [(1, 0x1000), (2, 0)] ∧ z.uses = 0 ∧ 0 < shRows z.shape ∧
    (firstBad (ashlarBad .e2m1 z.shape) [(0x1000, List.replicate 48 0)]).isSome = true ∧
    leaves (exec (.tld 3 1 2) (s.modMe fun c => { c with g := vset c.g 1 0x1020 })) (fun t => t.me.pc == 0x4000) := by decide +kernel

theorem witness_Tiles_moves :
    let s := (tiled (withSpad (regs [(1, 1), (2, 2)]) 0x100 [1, 2, 3, 4]) (shapeOf 2 2 5 0) [9, 8, 7, 6, 5, 4, 3, 2]).modMe fun c =>
      { c with p := vset c.p 7 (vec.ptr 0x100) }
    let q := s.modSlot 0 127 fun z => { z with shape := shapeOf 2 64 1 0 }
    meets s 0 [.src 1 1, .file 2 7 7] [(1, 1)] ∧ meets s 0 [.src 1 2, .file 2 7 7] [(2, 2)] ∧
    runs (exec (.trowld 3 2 7) s) (trapped s false .shape 0x203 0) ∧ runs (exec (.tcolst 3 2 7) s) (trapped s false .shape 0x203 0) ∧
    runs (exec (.trowst 3 1 7) q) (trapped q false .fmt 3 0) ∧
    leaves (exec (.trowld 3 1 7) s) (fun t => Mem.read (t.slot 0 127).payload 0 8 == [9, 8, 7, 6, 1, 2, 3, 4]) ∧
    leaves (exec (.tcolld 3 1 7) s) (fun t => Mem.read (t.slot 0 127).payload 0 8 == [9, 8, 1, 2, 5, 4, 3, 4]) ∧
    leaves (exec (.trowst 3 1 7) s) (fun t => t.spadRead 0 0x100 4 == [5, 4, 3, 2]) ∧
    leaves (exec (.tcolst 3 1 7) s) (fun t => t.spadRead 0 0x100 4 == [7, 6, 3, 2] && vget 0 t.me.p 7 == vec.ptr 0x104) := by decide +kernel

/-- 64 ones in the window, to be stored at 0x1020 under exponent register 5. -/
def cv0 : State := ((ext (vec 4 (List.replicate 64 0x3F80_0000) [] []) 5 0x90).modMe fun c => { c with vl := 64 }).modMe
  fun c => c.setG 1 0x1020
theorem witness_Conversions :
    let z := cv0.modMe fun c => { c with vl := 0 }
    meets cv0 0 [.src 0 1, .file 1 0 7, .ext 5 1, .vl, .vs] [(1, 0x1020)] ∧ cvExtOk (vget 0 cv0.me.e 5) = true ∧
    64 % Elem.perAshlar (Elem.ofField 0) = 0 ∧ fullSector 0x1020 = true ∧
    leaves (exec (.cvq 1 0 0 0 5 0 0) z) (fun u => u.me.pc == 0x104 && u.mem == cv0.mem) := by decide +kernel
theorem witness_Conversions_cvq : leaves (exec (.cvq 1 0 0 0 5 0 0) cv0) (fun u =>
    u.me.wait == .finish 0 && vget 0 u.me.p 0 == vec.ptr 0x200) := by decide +kernel

/-- One ashlar of ones at 0x1020, opened into the window at 0x800. -/
def cv1 : State := (withMem cv0 0x1020 ([36, 129, 129, 144, 0, 0, 128, 65, 0, 0, 0, 0, 238, 70, 202, 207] ++
  (List.replicate 4 [6, 0, 0, 0, 0, 0, 0, 0]).flatten)).modMe fun c => { c with p := vset c.p 1 (vec.ptr 0x800) }
set_option maxRecDepth 100000 in
theorem witness_Conversions_cvd : leaves (exec (.cvd 1 1 5 0 0) cv1) (fun u =>
    u.spadRead 0 0x800 8 == [0, 0, 0x80, 0x3F, 0, 0, 0x80, 0x3F]) := by decide +kernel

/-- A 1 × 32 f32 slot of ones in handle 3; the accumulator stands at 0x2000. -/
def mma0 : State := tiled (regs [(1, 0x2000)]) (shapeOf 1 32 6 0) (List.replicate 32 [0, 0, 0x80, 0x3F]).flatten
theorem witness_Matrix_issue :
    let s := mma0
    let twice := ext (ext s 0 (1 + 2 ^ 4 + 2 ^ 32)) 1 (3 + 3 * 32)
    meets s 0 ([] ++ [.src 1 1, .ext 0 1, .token]) [(1, 0x2000)] ∧ meets twice 0 ([.dst 0 9] ++ [.src 1 1, .ext 0 2, .token]) [(1, 0x2000)] ∧
    mmaE0Ok (vget 0 s.me.e 0) = true ∧ mmaE0Ok (vget 0 twice.me.e 0) = true ∧
    (∀ k < 4, mmaPairOk (fun k => vget 0 twice.me.e k) 2 (k + 1) = true) ∧
    ((mmaSlots (s.issued false).me 0 (mmaHandles (fun k => vget 0 s.me.e k) 1 3 3)).toOption.map List.length) = some 1 ∧
    leaves (exec (.mmaF32 0 1 3 3 0) s) (fun t => t.me.wait == .attached 1 [1] && (t.token 1).state == .queued && (t.slot 0 127).uses == 1) ∧
    leaves (exec (.mmaE2m1 9 1 3 3 1) twice) (fun t => t.me.gpr 9 == 1 && t.me.pc == 0x104 && (t.slot 0 127).uses == 1) ∧
    mmaE0Ok 0x100 = false ∧ runs (exec (.mmaI8 0 1 3 3 0) (ext s 0 0x100)) (trapped (ext s 0 0x100) false .opnd 3 0) ∧
    runs (exec (.mmaBf16 0 1 3 4 0) s) (trapped s false .tile 4 0) ∧
    runs (exec (.mmaF64 0 1 3 3 0) (det s)) (trapped (det s) false .order 0 0) := by decide +kernel

/-- A reserved bit of the second pair. -/
theorem witness_Matrix_pairs :
    let s := ext (ext mma0 0 (1 + 2 ^ 4 + 2 ^ 32)) 1 (3 + 3 * 32 + 2 ^ 10)
    mmaE0Ok (vget 0 s.me.e 0) = true ∧ mmaPairOk (fun k => vget 0 s.me.e k) 2 1 = false ∧
    runs (exec (.mmaF32 0 1 3 3 0) s) (trapped s false .opnd 0x103 0) := by decide +kernel

/-- The token runs on the matrix engine. -/
noncomputable def mmaRunning (form : Instr) : State := after (.permitGrant 0) (after (.tokenSelect (.matrix 0)) (after form mma0))
theorem witness_Matrix_events :
    let s := mmaRunning (.mmaF32 0 1 3 3 0)
    let bad := mmaRunning (.mmaBf16 0 1 3 3 0)
    (s.course 0).matrix = some 1 ∧ (s.token 1).state = .running ∧ (s.course 0).refused = none ∧
    leaves (exec (.mmaPartialReady 0) s) (fun t => t.physRead 0x2000 4 == [0, 0, 0, 0x42] && t.me.wait == .ready && t.me.pc == 0x104) ∧
    leaves (exec (.mmaPartialReady 0) bad) (fun t => t.physRead 0x2000 4 == [0, 0, 0, 0] && t.me.pc == 0x4000 && t.me.sv.info != 0) ∧
    (device.course 0).matrix = none ∧ (device.course 0).refused = none ∧ ((device.seqRec 0).waiting.find? fun w => w.1 == 0) = none ∧
    runs (exec (.partialRetry 0) device) device := by decide +kernel

theorem witness_Matrix_chunks :
    let s := after (.permitGrant 0) (after (.tokenSelect (.matrix 0)) (after (.mmaF32 0 1 3 3 0) (ext mma0 0 (16 + 2 ^ 32))))
    let t := after (.mmaPartialReady 0) s
    (s.token 1).state = .running ∧ t.seqs.map (fun r => r.2.waiting.length) = [1] ∧
    ((t.seqs.map fun r => r.1).all fun k => leaves (exec (.mortarMerge k) t) fun u => u.physRead 0x2000 4 == [0, 0, 0, 0x42]) = true := by
  decide +kernel

/-- A slot's word with an uncorrectable error (R355). -/
theorem witness_Tiles_errors :
    let s := (tiled (withSpad (regs [(1, 0), (2, 0)]) 0x100 [1, 2, 3, 4]) (shapeOf 2 2 5 0) [9]).modSlot 0 127 fun z => { z with bad := [0] }
    let m := mma0.modSlot 0 127 fun z => { z with bad := [15] }
    let r := after (.permitGrant 0) (after (.tokenSelect (.matrix 0)) (after (.mmaF32 0 1 3 3 0) m))
    let z := s.slot 0 127
    z.badWord 0 (payloadLen z.shape) (sideLen z.shape) = some 0 ∧ ((List.range 2).findSome? fun j => z.badWord (2 * j) 2 0) = some 0 ∧
    (z.badWord 8 2 0) = none ∧
    leaves (exec (.trowst 3 1 7) (s.modMe fun c => { c with p := vset c.p 7 (vec.ptr 0x100) }))
      (fun t => t.me.pc == 0x4000) ∧
    leaves (exec (.tsave 3 1 2) (s.modMe fun c => c.setG 1 0x1000)) (fun t => t.me.pc == 0x4000 && t.mem == s.mem) ∧
    (r.token 1).state = .running ∧ leaves (exec (.mmaPartialReady 0) r) (fun _ => true) := by
  decide +kernel

/-! ## Tokens -/

theorem witness_TokenLife_issue :
    let op := TokOp.copy ⟨0, 0, 0, layoutOf (List.replicate 64 0), false, none, 0, 0, []⟩
    op.vaultDie = none ∧ device.freeToken (courseOf device.cur) = some 0 ∧ courseOf device.cur < 160 ∧
    ((device.takeToken op 1 false true 5 []).token 1).state = .queued := by decide +kernel

theorem witness_TokenLife_terminal :
    let s := mmaRunning (.mmaF32 0 1 3 3 0)
    (s.token 1).state.live = true ∧ (s.token 1).permit = some 0 ∧ (s.die 0).held ≠ 0 ∧ ((s.dropPermit 1).die 0).held = 0 ∧
    (device.token 1).state.live = false := by decide +kernel

theorem witness_TokenLife_events :
    let s := after (.mmaF32 9 1 3 3 1) mma0
    let p := after (.tokenSelect (.matrix 0)) s
    (s.engineTokens (.matrix 0)).find? (fun t => t.2.state == .queued && s.predecessor t.2 == some false) = none ∧
    s.choice (.matrix 0) = some 1 ∧ (s.token 1).op.needsPermit = true ∧ (p.token 1).state = .permit ∧
    (p.die 0).waiting.filter (p.grantable 0) = [1] ∧ (p.die 0).held < (p.die 0).pcount.toNat ∧
    device.choice (.matrix 0) = none ∧ leaves (exec (.permitGrant 0) p) (fun t => (t.die 0).held == 1 && (t.token 1).state == .running) ∧
    (let a := s.modToken 1 fun t => { t with pred := 5 }
     leaves (exec (.tokenSelect (.matrix 0)) a) fun t => (t.token 1).state == .permit) ∧
    (let failed := (s.modToken 0x10001 fun t => { t with state := .faulted, gen := 1 }).modToken 1 fun t => { t with pred := 0x10001 }
     (failed.engineTokens (.matrix 0)).find? (fun t => t.2.state == .queued && failed.predecessor t.2 == some false) ≠ none ∧
     leaves (exec (.tokenSelect (.matrix 0)) failed) fun t => (t.token 1).state == .cancelled) ∧
    (let pend := device.modToken 1 fun t => { t with state := .done, gen := 1, pend := true }
     (pend.allTokens.find? fun t => t.2.pend && !t.2.away && coreOf t.2.owner.toNat == 0) ≠ none ∧ pend.mailUsed 0 < 32 ∧
     leaves (exec (.pendingCompletionDelivery 0) pend) fun t => (t.core 0).tm.mailbox.length == 1) := by decide +kernel

theorem witness_TokenInstructions_live :
    let s := (mmaRunning (.mmaF32 9 1 3 3 1)).modMe fun c => (c.setG 2 1).setG 3 0x20001
    meets s 0 [.dst 0 4, .src 1 2] [(2, 1)] ∧ ((s.issued false).findToken 0 1).isSome = true ∧ (s.issued false).findToken 0 0x20001 = none ∧
    meets s 0 [.dst 0 4, .src 1 2, .src 2 2] [] ∧
    leaves (exec (.twait 4 2) s) (fun t => t.me.wait == .cond (.tokenLive 1)) ∧ leaves (exec (.ttest 4 2) s) (fun t => t.me.gpr 4 == 3) ∧
    leaves (exec (.twait 4 3) s) (fun t => t.me.gpr 4 == 7) ∧ leaves (exec (.tfault 4 3) s) (fun t => t.me.gpr 4 == -1) ∧
    leaves (exec (.tlist 4 0) s) (fun t => t.me.gpr 4 == 1) ∧ leaves (exec (.tlist 4 2) s) (fun t => t.me.gpr 4 == 0) ∧
    leaves (exec (.tprio 4 2 2) s) (fun t => t.me.gpr 4 == 3) ∧ leaves (exec (.tafter 4 2 2) s) (fun t => t.me.gpr 4 == 1) ∧
    leaves (exec (.tadopt 4 2) s) (fun t => t.me.gpr 4 == 3) ∧ leaves (exec (.tdetach 4 2) s) (fun t => t.me.gpr 4 == 3 && !(t.token 1).det) ∧
    leaves (exec (.tcancel 4 2) s) (fun t => t.me.gpr 4 == 3) ∧
    (let other := s.modToken 1 fun t => { t with own := ⟨0, 1, 0⟩, owner := 16 }
     (match (other.issued false).findToken 0 1 with | some t => !t.ownedBy (other.issued false) | none => false : Bool) = true ∧
     leaves (exec (.tcancel 4 2) other) (fun t => t.me.gpr 4 == 8) ∧ leaves (exec (.tafter 4 2 2) other) (fun t => t.me.gpr 4 == 8)) ∧
    (let d := det s
     stDet d.me.status = true ∧ (∀ i ∈ [Instr.ttest 4 2, .tcancel 4 2, .tlist 4 2, .tafter 4 2 2], runs (exec i d) (trapped d false .order 0 0))) := by
  decide +kernel

theorem witness_TokenInstructions_terminal :
    let s := ((mmaRunning (.mmaF32 9 1 3 3 1)).modToken 1 fun t => { t with state := .done, fin := 2 }).modMe fun c => c.setG 2 1
    let f := s.modToken 1 fun t => { t with state := .faulted, fault := 77 }
    let q := (after (.mmaF32 9 1 3 3 1) mma0).modMe fun c => (c.setG 2 1).setG 3 3
    (s.token 1).state.terminal = true ∧ leaves (exec (.twait 4 2) s) (fun t => t.me.gpr 4 == 0x20004 && (t.token 1).state == .free) ∧
    leaves (exec (.twaitT 4 2) s) (fun t => t.me.gpr 4 == 0x20004) ∧ leaves (exec (.ttest 4 2) s) (fun t => t.me.gpr 4 == 0x20004) ∧
    leaves (exec (.tfault 4 2) f) (fun t => t.me.gpr 4 == 77) ∧
    leaves (exec (.twaitT 4 2) f) (fun t => t.me.pc == 0x4000 && t.me.sv.info == 77 && t.me.sv.addr == 1) ∧
    (q.token 1).state = .queued ∧ leaves (exec (.tprio 4 2 3) q) (fun t => t.me.gpr 4 == 1 && (t.token 1).prio == 3) ∧
    leaves (exec (.tafter 4 2 2) q) (fun t => t.me.gpr 4 == 2) ∧ leaves (exec (.tafter 4 2 0) q) (fun t => t.me.gpr 4 == 0) := by decide +kernel

/-! ## Copies and collectives -/

/-- A layout record: n words of 4 bytes from global memory to the core's scratchpad. -/
def record (n : Nat) (src : Byte) : List Byte :=
  [1, 2, src, 1, 0, 0, 0, 0] ++ toBytes 4 (BitVec.ofNat 64 n) ++ [1, 0, 0, 0, 1, 0, 0, 0, 1, 0, 0, 0] ++
    (if src = 3 then List.replicate 16 0 else [4, 0, 0, 0] ++ List.replicate 12 0) ++ [4, 0, 0, 0] ++ List.replicate 20 0
def copying : State :=
  ext (withSpad (withMem (regs [(1, 0x1000), (2, 0x200)]) 0x1000 [1, 2, 3, 4, 5, 6, 7, 8]) 0x100 (record 2 0)) 4
    (0x100 + 2 ^ 19 + 0x400 * 2 ^ 32)
noncomputable def copyRunning (s : State) : State := after (.tokenSelect (.copy 0)) (after (.copy 7 1 2 4 0 1) s)

theorem witness_Copies_issue :
    let s := copying
    let v := vget 0 s.me.e 4
    let odd := ext s 4 0x101
    meets s 0 ([.dst 0 7] ++ [.src 1 1, .src 2 2, .ext 4 1, .token]) [(1, 0x1000), (2, 0x200)] ∧ meets s 0 ([] ++ [.src 1 1, .src 2 2, .ext 4 1, .token]) [] ∧
    v.extractLsb' 23 9 = 0 ∧ v.extractLsb' 62 2 = 0 ∧ v.toNat % 2 ^ 19 % 64 = 0 ∧ v.getLsbD 19 = true ∧
    recordBad (record 2 0) false = none ∧ (layoutOf (record 2 0)).total = 8 ∧ recordBad (record 2 3) false = some 2 ∧
    leaves (exec (.copy 7 1 2 4 0 1) s) (fun t => t.me.gpr 7 == 1 && (t.token 1).state == .queued) ∧
    leaves (exec (.cset 0 1 2 4 0 0) (withSpad s 0x118 (List.replicate 16 0))) (fun t => t.me.wait == .attached 1 [1, 2]) ∧
    runs (exec (.copy 7 1 2 4 0 1) odd) (trapped odd false .align 0 0x101) ∧
    runs (exec (.copy 7 1 2 4 0 1) (ext s 4 0x60000)) (trapped (ext s 4 0x60000) false .spad 0 0x60000) ∧
    runs (exec (.cset 7 1 2 4 0 1) (ext s 4 (2 ^ 62))) (trapped (ext s 4 (2 ^ 62)) false .opnd 0x403 0) ∧
    runs (exec (.copy 7 1 2 4 0 1) (withSpad s 0x102 [3])) (trapped (withSpad s 0x102 [3]) false .opnd 0x206 0) := by decide +kernel

theorem witness_Copies_traps :
    let s := copying
    let word := fun (w : Word) => ext s 4 (0x100 + 2 ^ 19 + w)
    let bad : State := { s with badSpad := [0x20] }
    let huge := withSpad s 0x100 (record (2 ^ 31) 0)
    let stops := fun (s : State) (cls : TrapClass) (info addr : Word) => runs (exec (.copy 7 1 2 4 0 1) s) (trapped s false cls info addr)
    stops (word (0x401 * 2 ^ 32)) .align 0 0x401 ∧ stops (word (0x60000 * 2 ^ 32)) .spad 0 0x60000 ∧
    bad.badUnit (.spad 0 0x100) 64 = some (2, 0x100) ∧ leaves (exec (.copy 7 1 2 4 0 1) bad) (fun t => t.me.pc == 0x4000) ∧
    recordBad (record (2 ^ 31) 0) false = none ∧ stops huge .opnd 0xFF06 0 ∧
    stops (word (0x400 * 2 ^ 32 + 1280 * 2 ^ 51)) .addr 0 1280 ∧ stops (word (0x400 * 2 ^ 32 + 8 * 2 ^ 51)) .perm 0 8 := by decide +kernel

theorem witness_Copies_engine :
    let s := copyRunning copying
    let t := after (.copyUnit 0) s
    let past := copyRunning (copying.modMe fun c => c.setG 1 0xFFFC)
    (device.course 0).copyEng = none ∧ (s.course 0).copyEng = some 1 ∧ (s.token 1).state = .running ∧ (s.token 1).stop = 0 ∧
    t.spadRead 0 0x200 8 = [1, 2, 3, 4, 5, 6, 7, 8] ∧ t.spadRead 0 0x404 1 = [8] ∧ (t.token 1).state = .running ∧
    leaves (exec (.copyUnit 0) t) (fun u => (u.token 1).state == .done) ∧
    leaves (exec (.copyUnit 0) past) (fun u => (u.token 1).state == .faulted && u.spadRead 0 0x200 4 == [0, 0, 0, 0]) := by decide +kernel

/-- A copy of 4,100 bytes that is to be cancelled, with k words done. -/
noncomputable def stopping (k : Nat) : State :=
  (copyRunning (ext (withSpad (regs [(1, 0x1000), (2, 0x8000)]) 0x100 (record 1025 0)) 4 (0x100 + 2 ^ 19 + 0x400 * 2 ^ 32))).modToken 1
    fun t => { t with stop := 1, op := match t.op with | .copy j => .copy { j with next := k } | o => o }

set_option maxRecDepth 100000 in
/-- It goes on up to a boundary, and stops there, also where no unit follows it. -/
theorem witness_Copies_boundary :
    leaves (exec (.copyUnit 0) (stopping 1008)) (fun t => (t.token 1).state == .cancelled) ∧
    leaves (exec (.copyUnit 0) (stopping 900)) (fun t => (t.token 1).state == .running) := by decide +kernel

/-- Group 0 of the launch has teams 0 to n − 1. -/
def grouped (n : Nat) : State :=
  { (regs [(1, 256), (3, 5)]).setGroup 0 { Group.zero with valid := true, members := List.range n } with
    launches := [(0, { Launch.zero with live := true, n := n, groups := [0] })] }

theorem witness_Collectives_bar :
    let s := grouped 1
    let late := s.setBarrier 9 { gen := 4, arrived := [] }
    let w := late.modMe fun c => { c with wait := .barrier 9 3 1 }
    meets s 0 [.src 1 1] [(1, 256)] ∧ (s.core (coreOf s.cur)).team = some (0, 0) ∧ s.selTeams 0 0 (courseOf 0) 256 = [0] ∧
    leaves (exec (.bar 1) s) (fun t => t.me.pc == 0x104) ∧ runs (exec (.bar 3) s) (trapped s false .group 0 0) ∧
    leaves (exec (.bar 1) ((grouped 2).modCore 1 fun k => { k with team := some (0, 1) })) (fun t => t.me.pc == 0x100) ∧
    w.me.wait = .barrier 9 3 1 ∧ (w.barrier 9).gen ≠ 3 ∧ leaves (exec (.bar 1) w) (fun t => t.me.pc == 0x104 && t.me.wait == .ready) ∧
    (let left := (s.setBarrier 9 { gen := 3, arrived := [0] }).modMe fun c => { c with wait := .barrier 9 3 1 }
     leaves (exec (.bar 1) left) fun t => (t.barrier 9).gen == 4 && t.me.wait == .ready) := by
  decide +kernel

theorem witness_Collectives_issue :
    let s := ext (ext ((grouped 1).modMe fun c => (c.setG 1 0x1000).setG 2 0x2000) 6 (256 + 3 * 512)) 7 2
    meets s 0 ([.dst 0 5] ++ [.src 1 1, .src 2 2, .ext 6 2, .token]) [(1, 0x1000), (2, 0x2000)] ∧ s.myPart.pierLost = false ∧
    (∀ i ∈ [Instr.allred 5 1 2 6 1 1, .red 5 1 2 6 1 1, .bcast 5 1 2 6 1 1, .allgat 5 1 2 6 1 1],
      leaves (exec i s) fun t => t.me.gpr 5 == 1 && (t.token 1).state == .queued) ∧
    runs (exec (.bcast 5 1 2 6 0 1) (ext s 6 (256 + 4096))) (trapped (ext s 6 (256 + 4096)) false .opnd 0x603 0) ∧
    runs (exec (.allred 5 1 2 6 0 1) (ext s 7 0)) (trapped (ext s 7 0) false .opnd 0x703 0) ∧
    runs (exec (.red 5 1 2 6 0 1) (ext s 6 257)) (trapped (ext s 6 257) false .group 0 0) ∧
    (let lost := (ext s 6 (3 * 512)).modPart 0 fun p => { p with pierLost := true, sliceCount := 1 }
     (lost.myPart.pier.extractLsb' 16 8).toNat = 0 ∧ lost.selTeams 0 0 (courseOf 0) 0 = [0] ∧
     runs (exec (.red 5 1 2 6 0 1) lost) (trapped lost false .group 0 0)) := by decide +kernel

theorem witness_Collectives_events :
    let s := ext (ext ((grouped 1).modMe fun c => (c.setG 1 0x1000).setG 2 0x2000) 6 (256 + 3 * 512)) 7 2
    let t := after (.allred 5 1 2 6 0 1) (withMem s 0x1000 [1, 0, 0, 0, 2])
    let r := after (.permitGrant 0) (after (.tokenSelect (.copy 0)) t)
    ((t.token 1).state != .running) = true ∧ runs (exec (.collectiveComplete 1) t) t ∧ (r.token 1).state = .running ∧
    leaves (exec (.collectiveComplete 1) r) (fun u => u.physRead 0x2000 5 == [1, 0, 0, 0, 2] && (u.token 1).state == .done) ∧
    leaves (exec (.pierFailure 0 2) device) (fun u => !(u.part 0).pier.getLsbD 24) ∧ device.colls = [] := by decide +kernel

/-- A collective that failed, and one whose result stands ready. -/
theorem witness_Collectives_results :
    let s := ext (ext ((grouped 1).modMe fun c => (c.setG 1 0x1000).setG 2 0x2000) 6 (256 + 3 * 512)) 7 2
    let r := after (.permitGrant 0) (after (.tokenSelect (.copy 0)) (after (.allred 5 1 2 6 0 1) s))
    let with' := fun (f : Rendezvous → Rendezvous) => { r with colls := r.colls.map f }
    r.runs 1 = true ∧ r.runs 2 = false ∧ r.colls.length = 1 ∧
    leaves (exec (.collectiveComplete 1) (with' fun x => { x with failed := some (3, 5) })) (fun u =>
      (u.token 1).state == .faulted && (u.token 1).fault == 30 + 3 * 256) ∧
    leaves (exec (.collectiveComplete 1) (with' fun x => { x with results := [(0, [], [9, 0, 0, 0])] })) (fun u =>
      (u.token 1).state == .done) := by decide +kernel

/-! ## Threads, fork and join, channels -/

theorem witness_Threads_start :
    let s := regs [(1, 77), (2, 15), (3, 0x8000), (4, 0x8001), (5, 16), (6, 1)]
    let other := s.modMe fun c => { c with status := c.status &&& ~~~(mkStatus false 0 true 0 0 ^^^ mkStatus false 0 false 0 0) }
    let live := s.modCtx 15 fun c => { c with live := true }
    meets s 0 [.gsrc 0 1, .src 1 2, .src 2 3] [(1, 77), (2, 15), (3, 0x8000)] ∧ stCz s.me.status = true ∧ stCz other.me.status = false ∧
    leaves (exec (.start 1 2 3) s) (fun t => (t.ctx 15).live && (t.ctx 15).pc == 0x8000 && (t.ctx 15).gpr 1 == 77 && (t.ctx 15).resumeAt == 24) ∧
    runs (exec (.start 1 2 3) other) (trapped other false .thread 0 0) ∧ runs (exec (.start 1 5 3) s) (trapped s false .thread 0 0) ∧
    runs (exec (.start 1 0 3) s) (trapped s false .thread 0 0) ∧ runs (exec (.start 1 2 4) s) (trapped s false .align 3 0x8001) ∧
    runs (exec (.start 1 2 3) live) (trapped live false .thread 0 0) ∧
    leaves (exec (.reap 1 2) s) (fun t => t.me.gpr 1 == 3) ∧ leaves (exec (.reap 1 2) live) (fun t => t.me.wait == .cond (.contextUsed 15)) ∧
    leaves (exec (.reap 1 2) (s.setEndRec 15 0)) (fun t => t.me.gpr 1 == 0 && (t.core 0).tm.endRec == []) := by decide +kernel

theorem witness_Threads_migrate :
    let s := regs [(1, 7), (2, 8), (3, 1280)]
    meets s 0 [.src 1 1] [(1, 7)] ∧ s.myPart.hasCore 7 = true ∧ s.me.pinned = false ∧ (tiled s 0 []).me.pinned = true ∧
    leaves (exec (.migrate 1) s) (fun t => !(t.ctx 0).live && (t.core 7).arrivals.length == 1) ∧
    runs (exec (.migrate 2) s) (trapped s false .perm 0 8) ∧ runs (exec (.migrate 3) s) (trapped s false .addr 0 1280) ∧
    runs (exec (.migrate 1) (tiled s 0 [])) (trapped (tiled s 0 []) false .migrate 0 0) := by decide +kernel

theorem witness_Threads_agents :
    let s := device
    let fired := device.modTm 0 fun m => { m with wt := [(9, { WtEntry.zero with state := .fired, entry := 0x400, arg := 5 })] }
    let arr := device.modCore 0 fun k => { k with arrivals := [⟨{ Ctx.fetching with pc := 0x500 }, Ctx.blank⟩] }
    let full := { device with threads := (List.range 16).map fun k => (k, thread) }
    (s.part (s.launch 0).part).poolCount = 0 ∧ (s.launch 0).part < 256 ∧ full.freeContext 0 = none ∧ (full.core 0).team ≠ none ∧
    (s.core 0).team = some (0, 0) ∧ (s.core 0).preempting = false ∧ (s.core 0).restoring = false ∧ s.freeContext 0 = some 1 ∧
    (fired.firedEntry 0).isSome = true ∧ leaves (exec (.contextClaim 0) fired) (fun t => (t.ctx 1).pc == 0x400 && (t.ctx 1).gpr 1 == 5) ∧
    s.firedEntry 0 = none ∧ leaves (exec (.contextClaim 0) arr) (fun t => (t.ctx 1).pc == 0x500) ∧
    (s.core 1).team = none ∧ (s.launch 0).det = false ∧
    (let away := device.modCore 1 fun k => { k with arrivals := [⟨{ Ctx.fetching with pc := 0x500 }, Ctx.blank⟩] }
     away.freeContext 1 = some 16 ∧ (away.claimOne 1).isSome = true) ∧
    (let two := (device.modCore 1 fun k => { k with team := some (0, 1) }).modTm 0 fun m =>
       { m with deque := [{ owner := ⟨0, 0, 0⟩, record := 0, child := 0, line := [], place := none, tasid := 0, path := 0, segs := [], stolen := none
                            fencedAt := 0 }] }
     (((two.victims 1 0).findSome? fun k => ((two.core k).tm.deque ++ (two.core k).tm.spilled).getLast?.map fun r => (k, r)).map (·.1)) =
       some 0 ∧ (two.steal 16 0 1).isSome = true) := by decide +kernel

/-- A claim serves as many contexts as there is work for; a core without a team is offered. -/
theorem witness_Threads_claims :
    let entry := fun (pc : BitVec 57) => { WtEntry.zero with state := .fired, entry := pc }
    let fired := device.modTm 0 fun m => { m with wt := [(9, entry 0x400), (11, entry 0x500)] }
    let away := device.modCore 1 fun k => { k with arrivals := [⟨{ Ctx.fetching with pc := 0x500 }, Ctx.blank⟩] }
    leaves (exec (.contextClaim 0) fired) (fun t => (t.ctx 1).pc == 0x400 && (t.ctx 2).pc == 0x500 && !(t.ctx 3).live) ∧
    leaves (exec (.migrationArrival 1) away) (fun t => (t.ctx 16).pc == 0x500 && (t.core 1).arrivals == []) ∧
    leaves (exec (.contextClaim 1) device) (fun t => t.agenda == [.placement 0]) ∧
    (device.core 1).team = none ∧ (device.core 0).team ≠ none ∧ (device.claimOne 0).isNone = true := by decide +kernel

/-- A pool of one segment, free and taken. -/
theorem witness_Threads_pool :
    let pooled := device.modPart 0 fun p => { p with stkpool := 0x0001_0000_0000_0000 }
    let used := pooled.modPart 0 fun p => { p with segments := [0] }
    let starts := fun (s : State) => (s.startThread 1 ⟨0, 0, 1⟩ false 0x400 5 0 2).ctx 1
    (pooled.part 0).poolCount ≠ 0 ∧ (pooled.part 0).freeSegment = some 0 ∧ (used.part 0).freeSegment = none ∧
    (starts pooled).segments = [0] ∧ vget 0 (starts pooled).g 13 = 0x10000 ∧ (starts used).wait = .segment false := by decide +kernel

/-- The 65th record of a deque lies in memory, and comes back. -/
theorem witness_ForkJoin_spill :
    let r := fun (k : Nat) => ({ owner := ⟨0, 0, 0⟩, record := 0, child := 0, line := [BitVec.ofNat 8 k, 7], place := none, tasid := 0
                                 path := 0, segs := [], stolen := none, fencedAt := 0 } : Cont)
    let s := device.modPart 0 fun p => { p with spill := 0x8000 }
    let many := s.setDeque 0 0 ((List.range 65).map r)
    let back := many.setDeque 0 0 ((many.core 0).tm.conts.drop 1)
    ((s.part 0).spillPlaces 0).head? = some 0x8000 ∧ s.spillTaken = [] ∧ (device.part 0).spill = 0 ∧
    (many.core 0).tm.deque.length = 64 ∧ (many.core 0).tm.spilled.map (·.place) = [some 0x8000] ∧
    many.physRead 0x8000 2 = [64, 7] ∧
    (back.core 0).tm.deque.getLast?.map (fun r => (r.line.take 2, r.place)) = some ([64, 7], none) := by decide +kernel

/-- A frame whose join record is at 0x1F40, with the stack at 0x3000. -/
def framed (l : List (Nat × Word)) : State := regs ([(13, 0x2000), (14, 0x3000)] ++ l)
theorem witness_ForkJoin_spawn :
    let s := framed [(2, 0x8000), (3, 55), (4, 0x8001)]
    let full := withMem s 0x1F44 [16]
    (5 : BitVec 5).toNat ≤ 5 ∧ meets s 0 [.src 1 2, .src 2 3, .gsrc 6 13, .gsrc 6 14] [(2, 0x8000), (3, 55)] ∧ (s.me.gpr 13 - 192).toNat % 64 = 0 ∧
    (((s.issued false).performAll 0).getJoin 0x1F40).toOption.isSome = true ∧ stDet s.me.status = false ∧
    leaves (exec (.spawn 5 2 3) s) (fun t => t.me.pc == 0x8000 && t.me.gpr 1 == 55 && t.me.gpr 13 == 0x2FF0 && t.me.gpr 14 == 0x2FF0 &&
      t.me.gpr 15 == 0 && t.physRead 0x1F40 8 == [1, 0, 0, 0, 1, 0, 0, 0] && t.physRead 0x1F50 1 == [5] &&
      t.physRead 0x2FF0 16 == [0x40, 0x1F, 0, 0, 0, 0, 0, 0, 0, 0, 0, 0, 0, 0, 0xDE, 0xC0] && (t.core 0).tm.deque.length == 1) ∧
    runs (exec (.spawn 0 2 3) full) (trapped full false .task 0 0) ∧ runs (exec (.spawn 0 4 3) s) (trapped s false .align 3 0x8001) ∧
    leaves (exec (.spawn 0 2 3) (s.modMe fun c => c.setG 13 0x2001)) (fun t => t.me.pc == 0x4000 && t.me.sv.addr == 0x1F41) ∧
    stDet (det s).me.status = true ∧ runs (exec (.spawn 0 2 3) (det s)) (trapped (det s) false .task 0 0) := by decide +kernel

theorem witness_ForkJoin_detSpawn :
    let g := (det (framed [(2, 0x8000), (3, 55)])).setGroup 0 { Group.zero with valid := true, members := [0] }
    let s := g.modPart 0 fun p => { p with stkpool := 0x0001_0000_0000_0000, sliceCount := 1 }
    stDet s.me.status = true ∧ s.groupZero 0 0 = [0] ∧ (s.part 0).poolCount ≠ 0 ∧
    leaves (exec (.spawn 1 2 3) s) (fun t => (t.teamOf 0 0).queue.length == 1 && (t.part 0).segments == [0] && t.me.pc == 0x104 &&
      t.physRead 0xFFF0 8 == [0x40, 0x1F, 0, 0, 0, 0, 0, 0] && t.physRead 0x1F40 5 == [1, 0, 0, 0, 1]) := by decide +kernel

theorem witness_ForkJoin_sync :
    let s := withMem (framed []) 0x1F44 [2, 0, 0, 0, 0, 0, 0, 0, 0, 0, 0, 0, 1, 1]
    let t := withMem (withMem s 0x1F60 [7]) 0x1F68 [8]
    let bad := withMem t 0x1F50 [6]
    let open' := withMem t 0x1F40 [1]
    meets t 0 [.dst 0 1, .gsrc 6 13] [] ∧ (t.me.gpr 13 - 192 : Word) = 0x1F40 ∧
    (((t.issued false).performAll 0).getJoin 0x1F40).toOption.map (fun x => (x.1.out, x.1.count, x.1.fold)) = some (0, 2, 15) ∧
    leaves (exec (.sync 1) t) (fun u => u.me.gpr 1 == 15 && u.physRead 0x1F44 4 == [0, 0, 0, 0]) ∧
    runs (exec (.sync 1) bad) (trapped bad false .task 0 0) ∧
    leaves (exec (.sync 1) open') (fun u => !(u.ctx 0).live && u.suspended.length == 1 && u.physRead 0x1F48 1 == [1]) := by decide +kernel

theorem witness_ForkJoin_sret :
    let s := framed [(2, 0x8000), (3, 55)]
    let c := (after (.spawn 1 2 3) s).modMe fun k => k.setG 1 99
    let lost := c.modTm 0 fun m => { m with deque := [] }
    let bad := withMem c 0x2FFE [0]
    meets c 0 [.src 1 1, .gsrc 6 13] [(1, 99)] ∧
    leaves (exec (.sret 1) c) (fun u => u.me.pc == 0x104 && u.me.gpr 14 == 0x3000 && u.physRead 0x1F60 1 == [99] && u.physRead 0x1F40 1 == [0]) ∧
    leaves (exec (.sret 1) lost) (fun u => !(u.ctx 0).live && u.physRead 0x1F60 1 == [99]) ∧
    leaves (exec (.sret 1) bad) (fun u => u.me.pc == 0x4000) := by decide +kernel

/-- The last child of a suspended parent resumes it: with the fold in a general register, at its `sync` for another. -/
theorem witness_ForkJoin_resume :
    let record := [1, 0, 0, 0, 2, 0, 0, 0, 0, 0, 0, 0, 0, 0, 0, 0, 1, 1]
    let gone := after (.sync 1) (withMem (withMem (framed []) 0x1F40 record) 0x1F60 [7])
    let child := (withMem gone 0x2FF0 [0x40, 0x1F, 0, 0, 0, 0, 0, 0, 1, 0, 0, 0, 0, 0, 0xDE, 0xC0]).modCtx 0 fun _ =>
      (regs [(13, 0x2FF0), (14, 0x2FF0), (1, 99)]).me
    let port : State := { child with suspended := child.suspended.map fun p => { p with d := 20 } }
    meets child 0 [.src 1 1, .gsrc 6 13] [(1, 99)] ∧ (child.findSuspended child.me 0x1F40).isSome = true ∧
    leaves (exec (.sret 1) child) (fun u => u.me.gpr 1 == 106 && u.me.pc == 0x104 && u.suspended == [] &&
      u.physRead 0x1F40 8 == [0, 0, 0, 0, 0, 0, 0, 0]) ∧
    leaves (exec (.sret 1) port) (fun u => u.me.pc == 0x100 && u.suspended == [] && u.physRead 0x1F44 1 == [2]) := by decide +kernel

theorem witness_ForkJoin_fold :
    ([((1 : Byte), (5 : Word))] : List (Byte × Word)).filter (fun c => c.1 != 0) = [(1, 5)] ∧
    ([((1 : Byte), (5 : Word)), (0, 9), (3, -2)] : List (Byte × Word)).filter (fun c => c.1 != 0) = (1, 5) :: ([] ++ [(3, -2)]) := by
  decide +kernel

theorem witness_ChannelInstructions :
    let s := regs [(1, 3), (2, 15), (3, 4), (4, 16)]
    let lent := s.modMe fun c => { c with lent := true }
    let wr := s.modChan (chanKey ⟨0, 3, 15⟩) fun c => { c with writer := some (2, 2) }
    let inOther := s.modChan 0 fun c => { c with writer := some (2, 2) }
    meets s 0 [.src 1 1, .src 2 2] [(1, 3), (2, 15)] ∧ meets s 0 [.port 1 25] [] ∧ meets s 0 [.dst 0 5, .port 1 24] [] ∧
    (s.launch s.me.ident.launch).n = 4 ∧
    leaves (exec (.chopen 1 2) s) (fun t => t.me.cout == some (3, 15) && (t.chan (chanKey ⟨0, 3, 15⟩)).writer == some (0, 0)) ∧
    leaves (exec (.chaccept 1 2) s) (fun t => t.me.cin == some (3, 15) && (t.chan 0).accepted == some (3, 15)) ∧
    runs (exec (.chopen 3 2) s) (trapped s false .chan 25 0) ∧ runs (exec (.chaccept 1 4) s) (trapped s false .chan 24 0) ∧
    runs (exec (.chopen 1 2) lent) (trapped lent false .chan 25 0) ∧ runs (exec (.chopen 1 2) wr) (trapped wr false .chan 25 0) ∧
    runs (exec (.chaccept 1 2) inOther) (trapped inOther false .chan 24 0) ∧
    runs (exec (.chclose 25) s) (trapped s false .chan 25 0) ∧ runs (exec (.chclose 24) s) (trapped s false .chan 24 0) ∧
    leaves (exec (.chclose 25) piped) (fun t => t.me.cout == none && (t.chan 1).inFlight == [.mark .endMark]) ∧
    leaves (exec (.chclose 24) (withQueue piped [.val 3])) (fun t => t.me.cin == none && (t.chan 0).q == []) ∧
    leaves (exec (.chstat 5 24) (withQueue piped [.val 3, .mark .endMark])) (fun t => t.me.gpr 5 == 1 + 16 + 32 + 2 ^ 24) ∧
    leaves (exec (.chstat 5 25) piped) (fun t => t.me.gpr 5 == 16 + 2 ^ 24) ∧ leaves (exec (.chstat 5 25) s) (fun t => t.me.gpr 5 == 0) ∧
    runs (exec (.chstat 5 24) (det s)) (trapped (det s) false .order 0 0) := by decide +kernel

/-! ## The vault -/

/-- Groups 0 and 1 configured. -/
def configured (s : State) : State :=
  (s.modVGroup 0 fun g => { g with cfg := .configured }).modVGroup 1 fun g => { g with cfg := .configured }

theorem witness_VaultInstructions_adict :
    let s := withMem (regs [(1, 3), (2, 0x1000), (3, 255 + 256), (4, 0x10000), (5, 2), (6, 255 + 512), (7, 4)]) 0x1000 [9]
    meets s 0 [.gsrc 0 1, .src 1 2, .src 2 3] [(1, 3), (2, 0x1000), (3, 0x1FF)] ∧
    leaves (exec (.adict 1 2 3) s) (fun t => (t.vdie 0).reqs.map (fun r => r.ask) == [.dict 3 255 [9]] && t.me.pc == 0x100) ∧
    (s.issued false).acfgPending 3 = false ∧ runs (exec (.adict 4 2 3) s) (trapped s false .opnd 0 0) ∧
    runs (exec (.adict 0 2 3) s) (trapped s false .opnd 0 0) ∧ runs (exec (.adict 7 2 3) s) (trapped s false .perm 0 0) ∧
    runs (exec (.adict 5 2 6) s) (trapped s false .opnd 2 0) ∧
    (let held := s.modToken 1 fun t => { t with state := .queued, gen := 1, op := .acfg 1 0x1000 8 }
     (held.issued false).acfgPending 3 = true ∧ leaves (exec (.adict 1 2 3) held) (fun t => t.me.wait == .dict 3 255 [9] [2, 3])) := by
  decide +kernel

theorem witness_VaultInstructions_adictGoes :
    let s := device.modMe fun c => { c with wait := .dict 3 255 [9] [2, 3] }
    SlotComes s 0 ∧ (s.atSlot 0).me.wait = .dict 3 255 [9] [2, 3] ∧ (s.atSlot 0).runnable (s.atSlot 0).cur = true ∧
    leaves (step s) (fun t => (t.vdie 0).reqs.length == 1) := by decide +kernel

theorem witness_VaultInstructions_acfg :
    let s := ext (ext (regs [(1, 3), (2, 0x101), (3, 4)]) 4 0x1000) 5 (8 + 2 ^ 24)
    meets s 0 ([.dst 0 9] ++ [.src 1 1, .ext 4 2, .token]) [(1, 3)] ∧ meets s 0 ([] ++ [.src 1 1, .ext 4 2, .token]) [] ∧
    leaves (exec (.acfg 9 1 4) s) (fun t => t.me.pc == 0x104 && t.me.gpr 9 != 0) ∧
    leaves (exec (.acfg 0 1 4) s) (fun t => t.me.pc == 0x100) ∧
    runs (exec (.acfg 9 2 4) s) (trapped s false .opnd 1 0) ∧ runs (exec (.acfg 9 3 4) s) (trapped s false .perm 0 0) ∧
    runs (exec (.acfg 9 1 4) (ext s 5 7)) (trapped (ext s 5 7) false .opnd 0x503 0) ∧
    runs (exec (.acfg 9 1 4) (ext s 4 0x1004)) (trapped (ext s 4 0x1004) false .align 0 0x1004) ∧
    runs (exec (.acfg 9 1 4) (ext s 4 (2 ^ 57))) (trapped (ext s 4 (2 ^ 57)) false .addr 0 (2 ^ 57)) := by decide +kernel

theorem witness_VaultInstructions_arun :
    let s := ext (ext (regs [(1, 3), (2, 100), (3, 2 ^ 32), (4, 4)]) 4 (10 * 2 ^ 32)) 5 0
    meets s 0 ([.dst 0 9] ++ [.src 1 1, .src 2 2, .ext 4 2, .token]) [(1, 3), (2, 100)] ∧
    leaves (exec (.arun 9 1 2 4) s) (fun t => t.me.pc == 0x104 && t.me.gpr 9 != 0) ∧
    runs (exec (.arun 9 0 2 4) s) (trapped s false .opnd 1 0) ∧ runs (exec (.arun 9 4 2 4) s) (trapped s false .perm 0 0) ∧
    runs (exec (.arun 9 1 3 4) s) (trapped s false .opnd 2 0) ∧
    runs (exec (.arun 9 1 0 4) s) (trapped s false .opnd 0x403 0) ∧
    runs (exec (.arun 9 1 2 4) (ext s 4 (11 * 2 ^ 32))) (trapped (ext s 4 (11 * 2 ^ 32)) false .opnd 0x403 0) := by decide +kernel

theorem witness_VaultInstructions_aset :
    let put := fun (l : List Word) => (withSpad (configured (regs [(1, 0), (2, 2), (3, 2047), (4, 0), (5, 256), (6, 513)])) 0x300
      (l.flatMap fun x => toBytes 4 x)).modMe fun c => { c with p := vset c.p 7 (BitVec.ofNat 32 (0x300 + 2 ^ 19)) }
    let s := put [0x3F80_0000, 5]
    let sampled := fun (t : State) => (t.vdie 0).reqs.filterMap fun r => match r.ask with
      | .sample i n ls => some (i, n, ls.map Prod.fst)
      | _ => none
    let bad := put [31, 0xFFFF_FFFF, 0x7F80_0000]
    meets s 0 [.file 0 7 7, .src 1 1, .src 2 2] [(1, 0), (2, 2)] ∧ meets s 0 [.src 1 1, .src 2 2, .ext 4 1] [] ∧
    leaves (exec (.aset 7 1 2) s) (fun t => (t.vdie 0).reqs.map (fun r => r.ask) == [.setInit 0 [0x3F80_0000, 5]] &&
      vget 0 t.me.p 7 == BitVec.ofNat 32 (0x308 + 2 ^ 19)) ∧
    leaves (exec (.ascale 7 1 2) bad) (fun t => (t.vdie 0).reqs.map (fun r => r.ask) == [.setScale 0 [31, -1]]) ∧
    runs (exec (.ascale 7 1 2) s) (trapped s false .opnd 0 0) ∧
    runs (exec (.aset 7 1 2) bad) (trapped bad false .vault 0x104 0) ∧
    runs (exec (.aset 7 3 2) s) (trapped s false .opnd 2 0) ∧ runs (exec (.ascale 7 1 4) s) (trapped s false .opnd 2 0) ∧
    runs (exec (.aset 7 6 2) s) (trapped s false .perm 0 0) ∧
    runs (exec (.aset 7 1 2) ((regs [(1, 0), (2, 2)]).modVGroup 0 fun g => { g with cfg := .configuring }))
      (trapped ((regs [(1, 0), (2, 2)]).modVGroup 0 fun g => { g with cfg := .configuring }) false .vault 1 0) ∧
    leaves (exec (.asample 1 2 4) (ext s 4 0x1000)) (fun t =>
      sampled t == [(0, 2, [.phys 0x1000, .phys 0x1008])]) ∧
    leaves (exec (.asample 1 2 4) (ext s 4 (0x5FFF0 + 2 ^ 57))) (fun t =>
      sampled t == [(0, 2, [.spad 0 0x5FFF0, .spad 0 0x5FFF8])]) ∧
    runs (exec (.asample 1 2 4) (ext s 4 (2 ^ 58))) (trapped (ext s 4 (2 ^ 58)) false .opnd 0x403 0) := by decide +kernel

theorem witness_VaultInstructions_masks :
    let s := configured (regs [(1, 0x101), (2, 4), (3, 16), (4, 15), (5, 1)])
    meets s 0 [.dst 0 9, .src 1 1] [(1, 0x101)] ∧ (s.issued false).groupRuns 0x101 = false ∧
    leaves (exec (.astop 9 1) s) (fun t => (t.vdie 0).reqs.length == 1 && (t.vdie 1).reqs.length == 1) ∧
    leaves (exec (.acal 9 1) s) (fun t => (t.vdie 0).reqs.length == 1 && (t.vdie 1).reqs.length == 1) ∧
    leaves (exec (.acal 9 1) (s.modToken 1 fun t => { t with state := .running, gen := 1, op := .arun 0x100 9 0 1 0 7 none })) (fun t => t.me.wait == .cond (.runPending 0x101)) ∧
    (∀ i ∈ [Instr.astop 9 0, .acal 9 0, .astat 9 3], runs (exec i s) (trapped s false .opnd 1 0)) ∧
    (∀ i ∈ [Instr.astop 9 2, .acal 9 2, .astat 9 4], runs (exec i s) (trapped s false .perm 0 0)) ∧
    leaves (exec (.astat 9 5) s) (fun t => t.me.gpr 9 == 2 + 2 ^ 8) := by decide +kernel

theorem witness_VaultEvents_runs :
    let s := device.modToken 1 fun t => { t with state := .running, gen := 1, det := true, op := .acfg 1 0x1000 8 }
    let r := (configured device).modToken 1 fun t => { t with state := .running, gen := 1, det := true, op := .arun 1 9 0 1 0 7 none }
    let ran := r.modVGroup 0 fun g => { g with runTime := 7, run := .running }
    (s.token 1).op = .acfg 1 0x1000 8 ∧ (s.token 1).state = .running ∧ (device.token 1).state ≠ .running ∧
    (let far := device.modToken 1 fun t => { t with state := .running, gen := 1, det := true, op := .acfg 1 0x10000 8 }
     leaves (exec (.acfgComplete 1) far) (fun t => (t.token 1).state == .faulted && (t.token 1).fault.extractLsb' 0 6 == 8)) ∧
    (let on := (configured device).modVGroup 0 fun g => { g with cells := [(0, 1)] }
     (on.vgroup 0).integrators = [0] ∧ on.paths 0 = [] ∧ ((on.nextValues [0] 0).map (·.1)) = [0]) ∧
    leaves (exec (.acfgComplete 1) s) (fun t => (t.token 1).state == .faulted && (t.vgroup 0).cfg == .unconfigured) ∧
    (let good := (withMem device 0x1000 [0xC4]).modToken 1 fun t => { t with state := .running, gen := 1, det := true, op := .acfg 1 0x1000 16 }
     (match expandImage (good.part 0).vaultGroups.contains (fun g => (good.vgroup g).dict) 16 [0] 0 [0xC4, 0] with | .ok _ => true | _ => false : Bool) = true ∧
     leaves (exec (.acfgComplete 1) good) (fun t => (t.token 1).state == .done && (t.vgroup 0).cfg == .configured && (t.vgroup 0).cfgGen == 1)) ∧
    ([0, 1, 8].find? fun g => (r.vgroup g).cfg != .configured) = some 8 ∧ (configured device).paths 0 = [] ∧
    ((configured device).startRun [0, 1] []).toOption.isSome = true ∧
    (ran.token 1).state = .running ∧ leaves (exec (.settleTimeout 1) ran) (fun t => (t.token 1).state == .done && (t.token 1).fin == 2) ∧
    leaves (exec (.runTimeLimit 1) (ran.modVGroup 0 fun g => { g with runTime := 9 })) (fun t => (t.token 1).fin == 3) ∧
    runs (exec (.runTimeLimit 1) ran) ran ∧ device.fw.frozen = false ∧ (device.vdie 0).cals = [] ∧ device.allTokens = [] ∧
    leaves (exec (.vaultTick 0) device) (fun t => (t.vdie 0).ticks == 1) := by decide +kernel

/-- The first groups configured, integrator 0 enabled and fed with 1/2 × 1, its run in token 1. -/
def fed (th hold : BitVec 16) (cap : List (Nat × Word32 × Int)) (f : VGroup → VGroup) : State :=
  ((configured device).modVGroup 0 fun g => f { g with cells := [(0, 1), (32, 0x800 + 1024 * 2 ^ 12 + 2 ^ 34)] }).modToken 1 fun t =>
    { t with state := .running, gen := 1, det := true, op := .arun 1 9 th hold 0 0 (some cap) }

theorem witness_VaultEvents_starts :
    let s := fed 0 0 [] id
    let beyond := fed 0 0 [(0, 0x3F80_0000, -1)] id
    let steep := fed 0 0 [] fun g => { g with scale := [(0, 17)] }
    let fails := fun (s : State) (cap : List (Nat × Word32 × Int)) (f : Word) =>
      ((match s.startRun [0] cap with | .error g => g == f | _ => false) : Bool)
    (s.paths 0).map (fun q => (q.coef, q.g, q.pos)) = [(1024, 0, 0)] ∧ s.runInts [0] = [0] ∧
    fails steep [] (vaultRecord 3 0) ∧ fails beyond [(0, 0x3F80_0000, -1)] (asatRecord 0 0) ∧
    ((match s.startRun [0] [(0, 0x3F80_0000, 1)] with | .ok t => Tbl.get 0 (t.vgroup 0).x 0 == 1 / 2 | _ => false) : Bool) = true ∧
    ((beyond.runToken 1).token 1).state = .faulted ∧ Tbl.get 0 ((beyond.runToken 1).vgroup 0).x 0 = 2 ∧ ((beyond.runToken 1).vgroup 0).last = 4 ∧
    ((steep.runToken 1).vgroup 0).last = 6 ∧ ((s.runToken 1).vgroup 0).run = .running := by decide +kernel

theorem witness_VaultEvents_ticks :
    let on := fun (g : VGroup) => { g with run := .running, token := some 1, runTime := 3, quiet := [(0, 1)] }
    let beyond := fed 0 0 [] fun g => { on g with x := [(0, 3 / 2)] }
    let quiet := fed 0x8000 2 [] on
    let loud := fed 0x7FFF 2 [] on
    let flat := loud.modVGroup 0 fun g => { g with cells := [(0, 1)] }
    beyond.summer 0 0 = 1 / 2 ∧ ((beyond.runTick 1).token 1).state = .faulted ∧
    ((quiet.runTick 1).token 1).state = .done ∧ ((quiet.runTick 1).token 1).fin = 1 ∧
    ((loud.runTick 1).token 1).state = .running ∧ Tbl.get 0 ((loud.countQuiet [0] 0x7FFF).vgroup 0).quiet 0 = 0 ∧
    loud.moving 0 = [0] ∧ (loud.paths 0).map (loud.drift 0) = [0] ∧ 0 < loud.rate 0 ∧ loud.moves 0 ≤ 8 * loud.rate 0 ∧
    flat.summer 0 0 = 0 ∧ flat.moving 0 = [0] ∧ [(1 : BitVec 32)].Nodup := by decide +kernel

theorem witness_VaultEvents_stops :
    let s := fed 0 0 [] id
    let two := device.modMe fun c => { c with wait := .vault (some 5) 2 3 }
    s.runsAt 0 1 = [1] ∧ s.runsAt 1 1 = [] ∧ ((s.applyAsk 0 ⟨0, ⟨0, 0, 0⟩, 0, .stop 1⟩).token 1).state = .cancelled ∧
    ((s.applyAsk 0 ⟨0, ⟨0, 0, 0⟩, 1, .stop 1⟩).token 1).state = .running ∧
    (List.range 16).filter (0x100 : BitVec 16).getLsbD = [8] ∧ (device.calibrateGroup 0 0 true).2 = false ∧
    ((device.calibrateGroup 0 0 true).1.calib 3).v = false ∧
    (two.answer 0 ⟨0, 0, 0⟩ 4).me.wait = .vault (some 5) 1 7 := by decide +kernel

/-- What a column measures is free: where all eight meet the limits, the group takes them. -/
theorem witness_VaultEvents_calibrated (h : ∀ c < 8, withinLimits (measuredBounds (device.fresh + c)) = true) :
    (device.calibrateGroup 0 0 false).2 = true := by
  simp [State.calibrateGroup, List.all_eq_true]; exact h

theorem witness_VaultEvents_answers :
    let asked := (configured (device.modVDie 0 fun v => { v with reqs := [⟨0, ⟨0, 0, 0⟩, 0, .stop 1⟩] })).modMe fun c =>
      { c with wait := .vault (some 5) 1 3 }
    let conv := (device.modVDie 0 fun v => { v with ticks := 32, samples := [⟨0, ⟨0, 0, 0⟩, 0, [(.phys 0x1000, Via.spad 0, 9)]⟩] }).modMe fun c =>
      { c with wait := .vault none 1 0 }
    let old := device.modVDie 0 fun v => { v with ticks := 2 ^ 36 }
    (device.modVDie 0 fun v => { v with cals := [⟨1, ⟨0, 0, 0⟩, 1, false, 0, false⟩] }).askWaits 0 (.sample 0 1 []) = true ∧
    (device.vdie 0).reqs = [] ∧ (asked.vdie 0).reqs.length = 1 ∧ asked.askWaits 0 (.stop 1) = false ∧
    leaves (exec (.vaultRequestArrival 0) asked) (fun t => t.me.gpr 5 == 3 && t.me.pc == 0x104 && (t.vdie 0).reqs == []) ∧
    (asked.ctx 0).ident = ⟨0, 0, 0⟩ ∧ ((conv.vdie 0).samples.find? fun h => h.thr == 0 && h.since + 32 ≤ (conv.vdie 0).ticks).isSome = true ∧
    leaves (exec (.sampleConversionDone 0) conv) (fun t => t.physRead 0x1000 1 == [9] && t.me.pc == 0x104) ∧
    ((device.vdie 0).cals.find? fun c => c.begun && c.thr == 0) = none ∧ runs (exec (.calibrationDone 0) device) device ∧
    (old.calib 63).v = true ∧ (old.calib 63).calTick.toNat + 2 ^ 36 ≤ (old.vdie 0).ticks ∧
    leaves (exec (.calibrationExpiry 63) old) (fun t => !(t.calib 63).v) ∧ runs (exec (.calibrationExpiry 64) old) old ∧
    leaves (exec (.calibrationTemperatureDrift 0 9) device) (fun t => !(t.calib 0).v && (t.calib 64).v) ∧
    leaves (exec (.calibrationTemperatureDrift 0 8) device) (fun t => (t.calib 0).v) := by decide +kernel

end Sys2Proof.Tests
end

