-- ==== Sys2Proof/Tests/WitnessMore.lean ====
section
/-! SUPPORT. Further witnesses: states that meet the hypotheses of single clauses about corrected errors, lanes, messages between
dies, arrivals, rings, links, the host's ports, freezes and the vault's requests. -/

set_option Elab.async false
set_option maxRecDepth 100000

namespace Sys2Proof.Tests

open Sys2Proof Sys2Proof.Machine

/-- A planned flit comes only as the next on its way; a step of a thread that stays parked is over. -/
theorem witness_StepOrder_flits :
    let due := { device with agenda := [.flit (linkId 0) 3] }
    let parked := device.modMe fun c => { c with wait := .cond .mailboxEmpty, dbgStep := true, dbgAsked := true }
    due.agenda.find? (Due.isFlitTo (linkId 0)) = some (.flit (linkId 0) 3) ∧ device.agenda.find? (Due.isFlitTo (linkId 0)) = none ∧
    (farEnd (linkNo (linkId 0))).isSome = true ∧ farEnd (linkNo (linkId 48)) = none ∧ SlotComes parked 0 ∧
    (let c := (parked.atSlot 0).me
     c.live = true ∧ c.dbgStep = true ∧ c.dbgHeld = false ∧ c.wait.boundary = true ∧
       (parked.atSlot 0).awake (parked.slotThread 0) = false) ∧
    leaves (step parked) (fun t => !(t.ctx 0).dbgStep && (t.ctx 0).dbgAsked) := by decide +kernel

theorem witness_ThreadControl_lanes :
    let short := device.modMe fun c => { c with grant := 4 }
    let full := short.setCtx 1 { thread with grant := 4 }
    let rich := device.setCtx 1 { thread with grant := 0 }
    let fired := (((List.range 16).foldl (fun s k => s.setCtx k thread) device).modTm 0 fun m =>
      { m with wt := [(2, { WtEntry.zero with state := .fired, entry := 0x200 })] })
    stDet short.me.status = false ∧ short.me.grant < short.me.want ∧ (full.yieldLanes 0).me.grant = 16 ∧
    rich.me.want ≤ rich.me.grant ∧ (∃ h ∈ rich.laneHolders 0, h.1 < h.2) ∧ (rich.yieldLanes 0).agenda = [.claimGrant 0] ∧
    device.me.want ≤ device.me.grant ∧ (∀ h ∈ device.laneHolders 0, h.2 ≤ h.1) ∧
    fired.firedEntry 0 = some (2, { WtEntry.zero with state := .fired, entry := 0x200 }) ∧ fired.me.lent = false ∧
    fired.freeContext 0 = none ∧ (fired.part 0).poolCount = 0 ∧ (fired.lend 0).me.pc = 0x200 ∧ device.firedEntry 0 = none := by
  decide +kernel

theorem witness_AccessChecks_lost :
    let s := regs [(2, 0x10000)]
    MayIssue s 0 [.dst 0 1, .src 1 2] ∧ (match (s.issued false).access 0 0 0x10000 8 .load anySpace with
      | .error (.lost _ _ _) => true | _ => false : Bool) = true ∧
    leaves (exec (.ldB64 1 2 0 0) s) (fun t => t.me.pc == 0x4000) ∧
    (Tbl.get [] device.caches.l1i 0).length ≤ 512 ∧ Tbl.get [] (device.caches.fetchBlock 0 5).l1i 0 = [5] := by decide +kernel

/-- Requests that leave no die, that go to another, and that go by way of the keystone. -/
theorem witness_Loads_ways :
    let l : Loc := .phys 0x1000
    ((device.callHome false false 0 0 l).agenda = [.reply 0]) ∧ ((device.callHome false true 0 0 l).agenda = [.reply 0]) ∧
    (device.callHome true false 0 200 l).agenda = [.flit (linkId 5) 0] ∧
    (device.callHome false true (16 * 200) 200 l).agenda = [.flit (linkId 0) 0] := by decide +kernel

theorem witness_Stores_held :
    let s := (posting [write0 .loose farVia]).modLink 0 fun y => { y with state := 2 }
    s.linksWait 0 1 (Loc.phys 0x1000).vert = true ∧ device.linksWait 0 1 (Loc.phys 0x1000).vert = false ∧
    leaves (exec (.postedWritePerform 0 0) s) (fun t => t.agenda == [.postedWrite 0] && t.me.posted.length == 1) := by decide +kernel

theorem witness_ArrivalWords_entries :
    let e : WtEntry := { WtEntry.zero with state := .armed, threshold := 1, word := 2 }
    let arrived := withSpad device 36 [1]
    e.state = .armed ∧ (e.threshold ≠ 0 ∧ e.threshold.toNat ≤ ofBytesNat (arrived.spadRead 0 36 4)) ∧
    ((arrived.addEntry 0 3 e).firedEntry 0).isSome = true ∧ ofBytesNat (device.spadRead 0 36 4) < e.threshold.toNat ∧
    (device.addEntry 0 3 e).firedEntry 0 = none := by decide +kernel

/-- A claim of a thread, and one of a swapped-in team at its lowest thread, which a visitor in a lower slot is not. -/
theorem witness_VectorState_claims :
    let one := device.modMe fun c => { c with grant := 0, claimParked := true, wait := .claim 1 2 }
    let visitor : Ctx := { thread with ident := ⟨0, 3, 0⟩, grant := 0, want := 0 }
    let team := (((device.setCtx 0 visitor).setCtx 3 { thread with grant := 0, want := 8, ident := ⟨0, 0, 3⟩ }).modCore 0 fun k =>
      { k with teamClaim := true })
    one.firstClaim 0 = some (0, 16) ∧ 16 ≤ one.freeLanes 0 ∧ (one.serveClaim 0).me.grant = 16 ∧ device.firstClaim 0 = none ∧
    team.firstClaim 0 = some (3, 8) ∧ ((team.serveClaim 0).ctx 3).grant = 8 ∧ ((team.serveClaim 0).ctx 0).grant = 0 := by decide +kernel

theorem witness_Matrix_waits :
    let p : Partial := ⟨0, 0x1000, [], false, [[0]], false⟩
    device.mergeWaits p = false ∧ p.rows[0]? = some [0] := by decide +kernel

theorem witness_Collectives_spans :
    let j : CollJob := ⟨.bcast, 0, 0, 0, 0, 1, 1, 0x1001, 0x2000, 0⟩
    let s := (device.modPart 0 fun p => { p with pier := 0x1000702 }).modLink 32 fun y => { y with state := 2 }
    (s.collTerms 0 [(0, j)]).toOption.map Prod.fst = some [[]] ∧ j.root ≠ 0 ∧ (s.linkAt 32).state = 2 := by decide +kernel

theorem witness_VaultInstructions_upper :
    let s := ext (ext (regs [(1, 1)]) 2 0) 3 (2 ^ 32)
    ((bits (2 ^ 32 : Word) 32 32 : Word32) == 0) = false ∧
    leaves (exec (.arun 4 1 0 2) s) (fun t => t.me.pc == 0x4000 && t.me.sv.info == 0x303) := by decide +kernel

/-- Requests that wait for a calibration of a group of theirs, and those that do not. -/
theorem witness_VaultEvents_waits :
    let c : Calibrating := ⟨0, ⟨0, 0, 0⟩, 2, false, 0, false⟩
    let s := device.modVDie 0 fun v => { v with cals := [c] }
    let now := device.modVGroup 1 fun v => { v with run := .calibrating }
    s.askWaits 0 (.sample 200 100 []) = true ∧ now.askWaits 0 (.sample 200 100 []) = true ∧ now.askWaits 0 (.setInit 200 [0]) = false ∧
    s.askWaits 0 (.setInit 255 [0, 0]) = true ∧ s.askWaits 0 (.setInit 255 [0]) = false ∧ s.askWaits 0 (.setScale 256 [0]) = true ∧
    s.askWaits 0 (.dict 2 0 []) = true ∧ s.askWaits 0 (.dict 1 0 []) = false ∧ s.askWaits 0 (.stop 2) = false := by decide +kernel

/-- An integrator that reads no other depends on itself alone. -/
theorem witness_VaultEvents_coupled :
    let s := configured device
    (∀ j ∈ s.sourcesOf 0, j ∈ s.moving 0 → j = 0) ∧ (∀ j ∈ s.coupled 0, s.summer (j / 256) (j % 256) = 0) := by decide +kernel

theorem witness_RingEvents_deleting :
    let s := (ringed launchPacket).modPart 0 fun p => { p with deleting := some ⟨1, 0⟩ }
    (s.part 0).deleting.isSome = true ∧ s.packetOf 0 0 1 = none ∧ ((ringed launchPacket).packetOf 0 0 1).isSome = true := by decide +kernel

theorem witness_Placement_places :
    let out := device.modTeam 0 1 fun x => { x with state := .out }
    (out.teamOf 0 1).state = .out ∧ (device.teamOf 0 1).state ≠ .out ∧ (.swapIn 5) ∈ (out.placeTeam 0 1 5).agenda ∧
    ((device.placeTeam 0 1 5).ctx 80).live = true ∧ ((device.placeTeam 0 1 5).core 5).restoring = false := by decide +kernel

theorem witness_SwapEvents_wakes :
    let at' := fun (st : TokState) => (device.modToken 0x10001 fun t => { t with state := st, gen := 1 }).modMe fun c =>
      { c with wait := .attached 0x10001 [] }
    ((at' .done).ctx 0).wait = .attached 0x10001 [] ∧ (at' .done).wakeOne 0 ≠ at' .done ∧ (∀ h a, (device.ctx 0).wait ≠ .attached h a) ∧
    device.teamWant 0 ≠ 0 ∧ (device.modMe fun c => { c with want := 0 }).teamWant 0 = 0 := by
  refine ⟨by decide +kernel, by decide +kernel, fun h a => ?_, by decide +kernel, by decide +kernel⟩
  have : (device.ctx 0).wait = .ready := by decide +kernel
  simp [this]

theorem witness_LinkEvents_naks :
    let y : Msg := ⟨.request, 0, ⟨0, 0, 0⟩, [5], [], 2, 0⟩
    let owes := device.modLink 0 fun x => { x with nakAt := some 0 }
    let two := (device.sendOn y).sendOn { y with path := [0] }
    let port : Msg := ⟨.other, 0, ⟨0, 0, 0⟩, [49], [], 2, 48⟩
    let busy := device.sendOn port
    farEnd 0 = some 5 ∧ (device.linkAt 0).nakAt = none ∧ (owes.linkAt 0).nakAt ≠ none ∧ owes.flitDue 0 = false ∧ (owes.linkAt 0).state = 1 ∧
    owes.onTheWay 5 = 0 ∧ (owes.linkAt 5).nakHeld = none ∧ (owes.idleNak 0).agenda = [.nak (linkId 5) 0] ∧
    two.onTheWay 0 = 1 ∧ ((two.linkAt 5).buf.find? fun x => x.seq == 0).isSome = true ∧
    (device.linkAt 49).detour = false ∧ (device.linkAt 49).queue = [] ∧ farEnd 49 = none ∧ (busy.linkAt 49).buf.length = 1 ∧
    busy.agenda = [.flit (linkId 49) 0] ∧
    leaves (exec (.ebnanPortDown 1) busy) (fun t => (t.linkAt 49).replayed == 1 && (t.linkAt 48).buf.length == 1) := by decide +kernel

theorem witness_HostAccesses_flits :
    (device.linkAt 48).state = 1 ∧ device.upPort 48 = 48 ∧ ((device.hostBell 48 (some 0)).linkAt 48).rxflits = 1 ∧
    ((device.hostFlits 48 0xB0 32 true).linkAt 48).rxflits = 2 := by decide +kernel

theorem witness_CommandPages_frozen :
    let s := { device with fw := { device.fw with frozen := true } }.modPart 0 fun p => { p with deleting := some ⟨1, 0⟩ }
    let del := device.modPart 0 fun p => { p with deleting := some ⟨1, 0⟩ }
    s.busy = true ∧ s.fw.frozen = true ∧ leaves (exec (.thaw (page 0)) s) (fun t => !t.fw.frozen) ∧ del.busy = true ∧
    leaves (exec (.thaw (page 0)) del) (fun t => t.fw.waiting == [.thaw (page 0)]) ∧
    runs (exec (.dstep (page 0) 0) ({ device with fw := { device.fw with dbgctl := 1 } }.modMe fun c =>
      { c with wait := .cond .mailboxEmpty, dbgHeld := true, dbgAsked := true })) (device.modMe fun c =>
        { c with dbgStep := true, dbgAsked := true }) := by decide +kernel

theorem witness_FreezeAndReset_thaws :
    let s := { device with fw := { device.fw with frozen := true, pinLow := true } }
    s.fw.frozen = true ∧ s.fw.frozenHard = false ∧ s.fw.pinLow = true ∧ (Readout.remap 0).fits (.remap 5) = true ∧
    (Readout.remap 0).fits .ones = false := by decide +kernel

end Sys2Proof.Tests
end

section
/-! PROOF. Writes to physical memory and to a scratchpad: what reads back, what keeps, and that nobody is woken where nobody
waits (O25). -/

namespace Sys2Proof.Machine

/-! ## Reads of a memory beside what was written -/

/-- A read sees only the bytes of its range. -/
theorem Mem.read_congr {m m' : Tbl Byte} {a n : Nat} (h : ∀ i, i < n → Tbl.get 0 m (a + i) = Tbl.get 0 m' (a + i)) :
    Mem.read m a n = Mem.read m' a n := by
  refine List.ext_getElem (by simp [Mem.length_read]) fun i h1 h2 => ?_
  rw [Mem.getElem_read, Mem.getElem_read, h i (by simpa [Mem.length_read] using h1)]

/-- A range apart from the bytes written reads as before. -/
theorem Mem.read_write_apart (m : Tbl Byte) (a : Nat) (bs : List Byte) {b n : Nat} (h : b + n ≤ a ∨ a + bs.length ≤ b) :
    Mem.read (Mem.write m a bs) b n = Mem.read m b n :=
  Mem.read_congr fun i hi => Mem.get_write_out bs m a (b + i) (by omega)

/-! ## Physical memory -/

theorem State.physRead_physWrite_apart (s : State) (pa : Nat) (bs : List Byte) {a n : Nat} (h : a + n ≤ pa ∨ pa + bs.length ≤ a) :
    (s.physWrite pa bs).physRead a n = s.physRead a n :=
  Mem.read_congr fun i hi => s.physWrite_out pa (a + i) bs (by omega)

@[simp] theorem State.physWrite_threads (s : State) (pa : Nat) (bs : List Byte) : (s.physWrite pa bs).threads = s.threads := by
  unfold State.physWrite; split <;> rfl

@[simp] theorem State.physWrite_cores (s : State) (pa : Nat) (bs : List Byte) : (s.physWrite pa bs).cores = s.cores := by
  unfold State.physWrite; split <;> rfl

/-! ## Scratchpads -/

theorem State.spadRead_spadPut_self (s : State) (core a : Nat) (bs : List Byte) (b n : Nat) :
    (s.spadPut core a bs).spadRead core b n = Mem.read (Mem.write (s.core core).tm.spad a bs) b n :=
  congrArg (fun c : Core => Mem.read c.tm.spad b n) (s.core_modTm_self core fun m => { m with spad := Mem.write m.spad a bs })

theorem State.spadRead_spadPut_ne (s : State) {core k : Nat} (a : Nat) (bs : List Byte) (b n : Nat) (h : k ≠ core) :
    (s.spadPut core a bs).spadRead k b n = s.spadRead k b n :=
  congrArg (fun c : Core => Mem.read c.tm.spad b n) (s.core_modTm_ne core (fun m => { m with spad := Mem.write m.spad a bs }) h)

/-- No thread of a core waits in `await`. -/
def State.noAwait (s : State) (core : Nat) : Prop :=
  ∀ t ∈ slotsOf core, ∀ w g d srcs, (s.ctx t).wait ≠ .await w g d srcs

theorem State.awaitWake_idle {s : State} {k : Nat} (h : ∀ w g d srcs, (s.ctx k).wait ≠ .await w g d srcs) : s.awaitWake k = s := by
  unfold State.awaitWake; split
  · next a g d srcs hw => exact absurd hw (h a g d srcs)
  · rfl

theorem State.foldl_awaitWake_idle {s : State} :
    (ks : List Nat) → (∀ k ∈ ks, ∀ w g d srcs, (s.ctx k).wait ≠ .await w g d srcs) → ks.foldl State.awaitWake s = s
  | [], _ => rfl
  | k :: ks, h => by
    rw [List.foldl_cons, State.awaitWake_idle (h k (by simp))]
    exact State.foldl_awaitWake_idle ks fun j hj => h j (by simp [hj])

/-- Where no thread waits for an arrival word, a write to a scratchpad wakes nobody: it writes its bytes. -/
theorem State.spadWrite_noAwait {s : State} {core : Nat} (h : s.noAwait core) (a : Nat) (bs : List Byte) :
    s.spadWrite core a bs = if bs = [] then s else s.spadPut core a bs := by
  unfold State.spadWrite
  simp only [List.isEmpty_iff]
  split
  · rfl
  · exact State.foldl_awaitWake_idle _ h

/-- Settles O25: physical memory by the laws of `Mem.write`, a scratchpad likewise once no thread is woken. -/
theorem memoryWrites : Obligations.MemoryWrites := by
  unfold Obligations.MemoryWrites
  refine ⟨fun s pa bs => ⟨s.physRead_physWrite pa bs, fun a n h => s.physRead_physWrite_apart pa bs h,
    fun a h => s.physWrite_out pa a bs h, s.physWrite_memOk pa bs, fun core a k n => ⟨?_, ?_⟩⟩, fun s core a bs h => ?_⟩
  · simp only [State.spadRead, State.core, State.physWrite_cores]
  · simp only [State.ctx, State.physWrite_threads]
  · rw [State.spadWrite_noAwait h]
    split
    · next he => subst he; exact ⟨rfl, fun _ _ _ => rfl, fun _ _ _ _ => rfl, rfl, rfl⟩
    · exact ⟨(s.spadRead_spadPut_self core a bs a _).trans (Mem.read_write _ a bs),
        fun b n hb => (s.spadRead_spadPut_self core a bs b n).trans (Mem.read_write_apart _ a bs hb),
        fun k b n hk => s.spadRead_spadPut_ne a bs b n hk, rfl, rfl⟩

end Sys2Proof.Machine
end

section
/-! PROOF. What the step-7 checks answer, and fields of a word: the small facts that the proofs of the instructions share. -/

namespace Sys2Proof.Machine

/-! ## Step 7 as a sequence of checks -/

@[simp] theorem Stop.ok_bind {α β : Type} (x : α) (f : α → Except Stop β) : (Except.ok x >>= f) = f x := rfl
@[simp] theorem Stop.error_bind {α β : Type} (e : Stop) (f : α → Except Stop β) : (Except.error e >>= f) = .error e := rfl

theorem need_pass {ok : Bool} (h : ok = true) (cls : TrapClass) (info addr : Word) : need ok cls info addr = .ok () := if_pos h
theorem need_fail {ok : Bool} (h : ok = false) (cls : TrapClass) (info addr : Word) :
    need ok cls info addr = .error (.trap cls info addr) := by simp [need, h]
theorem hold_pass {ok : Bool} (h : ok = true) (c : ParkCond) : hold ok c = .ok () := if_pos h
theorem hold_fail {ok : Bool} (h : ok = false) (c : ParkCond) : hold ok c = .error (.park c) := by simp [hold, h]

@[simp] theorem State.status_issued (s : State) (half : Bool) : (s.issued half).me.status = s.me.status := by rw [State.me_issued]

/-- In a free launch the check of R14 passes. -/
theorem needFree_free {s : State} (half : Bool) (h : stDet s.me.status = false) : needFree (s.issued half) = .ok () :=
  need_pass (by rw [State.status_issued, h]; rfl) _ _ _

/-- In a deterministic launch it traps ORDER. -/
theorem needFree_det {s : State} (half : Bool) (h : stDet s.me.status = true) :
    needFree (s.issued half) = .error (.trap .order 0 0) :=
  need_fail (by rw [State.status_issued, h]; rfl) _ _ _

/-- An instruction whose step 7 parks waits for what it parks on. -/
theorem issue_park {half : Bool} {level : Nat} {fs : List Field} {body : State → Except Stop State} {s : State} {c : ParkCond}
    (h : MayIssue s level fs) (hb : body (s.issued half) = .error (.park c)) :
    issue half true level fs body s = .next ((s.issued half).modMe fun x => { x with wait := .cond c }) := by
  rw [issue_mayIssue h, hb]; rfl

/-- An instruction that begins with the check of R14 traps ORDER in a deterministic launch. -/
theorem issue_order {half : Bool} {level : Nat} {fs : List Field} {body : State → Except Stop State} {s : State}
    (h : MayIssue s level fs) (hdet : stDet s.me.status = true) :
    issue half true level fs (fun u => do needFree u; body u) s = .next ((s.issued half).trapAt s.cur .order 0 0) :=
  issue_trap h (by simp only [needFree_det half hdet, Stop.error_bind])

/-! ## Fields of a word -/

/-- The field at bit 0 is the word cut to its width. -/
theorem bits_zero {n : Nat} (x : BitVec n) (w : Nat) : bits x 0 w = x.setWidth w := by
  ext i hi; simp [bits]

end Sys2Proof.Machine
end

section
/-! PROOF. The mailbox instructions (O29). -/

namespace Sys2Proof.Machine

theorem exec_msend (tag a b : BitVec 5) (s : State) : exec (.msend tag a b) s = execMsend tag a b s := rfl
theorem exec_mwait (d : BitVec 5) (s : State) : exec (.mwait d) s = execMwait d s := rfl
theorem exec_mget (d h : BitVec 5) (s : State) : exec (.mget d h) s = execMget d h s := rfl

@[simp] theorem State.flights_issued (s : State) (half : Bool) : (s.issued half).flights = s.flights := rfl

/-! ## `msend` -/

section
variable {s : State} {tag a b : BitVec 5} {t x y : Word} (hm : MayIssue s 0 [.gsrc 0 tag, .src 1 a, .src 2 b])
  (hfree : stDet s.me.status = false) (ht : rd s tag = .ok t) (hx : rd s a = .ok x) (hy : rd s b = .ok y)
include hm hfree ht hx hy

theorem msend_noCore (hn : 1280 ≤ x.toNat) : execMsend tag a b s = .next ((s.issued false).trapAt s.cur .addr 0 x) :=
  issue_trap hm (by
    simp only [needFree_free false hfree, rd_issued, ht, hx, hy, Stop.ok_bind, Stop.error_bind,
      need_fail (decide_eq_false (Nat.not_lt.2 hn))])

theorem msend_foreign (hn : x.toNat < 1280) (hc : (s.issued false).myPart.hasCore x.toNat = false) :
    execMsend tag a b s = .next ((s.issued false).trapAt s.cur .perm 0 x) :=
  issue_trap hm (by
    simp only [needFree_free false hfree, rd_issued, ht, hx, hy, Stop.ok_bind, Stop.error_bind,
      need_pass (decide_eq_true hn), need_fail hc])

theorem msend_full (hn : x.toNat < 1280) (hc : (s.issued false).myPart.hasCore x.toNat = true) (hu : 32 ≤ s.mailUsed x.toNat) :
    execMsend tag a b s = .next ((s.issued false).modMe fun c => { c with wait := .cond (.mailboxFull x.toNat) }) :=
  issue_park hm (by
    have hu' : ¬ (s.issued false).mailUsed x.toNat < 32 := Nat.not_lt.2 hu
    simp only [needFree_free false hfree, rd_issued, ht, hx, hy, Stop.ok_bind, Stop.error_bind, need_pass (decide_eq_true hn),
      need_pass hc, hold_fail (decide_eq_false hu')])

/-- A message of kind 1 is on its way, with its tag, its sender and its payload (R36, R160). -/
theorem msend_sends (hn : x.toNat < 1280) (hc : (s.issued false).myPart.hasCore x.toNat = true) (hu : s.mailUsed x.toNat < 32) :
    execMsend tag a b s = .next (finishNo (({ (s.issued false).cargo (dieOfCore (coreOf s.cur)) (dieOfCore x.toNat) 2 0 with
      flights := s.flights ++ [(⟨x.toNat, 1#8 ++ 0#8 ++ t.setWidth 16 ++ BitVec.ofNat 32 s.cur ++ y⟩ : Flight)] }).post
        (.mailDelivery x.toNat)) [tag, a, b]) :=
  issue_next hm (by
    have hu' : (s.issued false).mailUsed x.toNat < 32 := hu
    simp only [needFree_free false hfree, rd_issued, ht, hx, hy, Stop.ok_bind, need_pass (decide_eq_true hn), need_pass hc,
      hold_pass (decide_eq_true hu'), State.cargo_flights, State.flights_issued, State.issued_cur, mkMessage, bits_zero]
    rfl)

end

/-! ## `mwait` and `mget` -/

section
variable {s : State} {d h : BitVec 5} (hfree : stDet s.me.status = false)
include hfree

theorem mwait_empty (hm : MayIssue s 0 [.dst 0 d]) (hb : (s.core (coreOf s.cur)).tm.mailbox = []) :
    execMwait d s = .next ((s.issued false).modMe fun c => { c with wait := .cond .mailboxEmpty }) :=
  issue_park hm (by
    simp only [needFree_free false hfree, Stop.ok_bind, State.issued_cur, State.core_issued, hb, List.isEmpty_nil, Bool.not_true,
      hold_fail, Stop.error_bind])

theorem mwait_counts (hm : MayIssue s 0 [.dst 0 d]) (hb : (s.core (coreOf s.cur)).tm.mailbox ≠ []) :
    execMwait d s = .next (finish (s.issued false) [] d (BitVec.ofNat 64 (s.core (coreOf s.cur)).tm.mailbox.length)) :=
  issue_next hm (by
    have hne : (!(s.core (coreOf s.cur)).tm.mailbox.isEmpty) = true := by simpa using hb
    simp only [needFree_free false hfree, Stop.ok_bind, State.issued_cur, State.core_issued, hold_pass hne]
    rfl)

theorem mget_empty (hm : MayIssue s 0 [.dst 0 d, .dst 1 h, .differ 1 d h]) (hb : (s.core (coreOf s.cur)).tm.mailbox = []) :
    execMget d h s = .next ((s.issued false).modMe fun c => { c with wait := .cond .mailboxEmpty }) :=
  issue_park hm (by simp only [needFree_free false hfree, Stop.ok_bind, State.issued_cur, State.core_issued, hb])

/-- The oldest message leaves the mailbox: payload to d, header to h (R162). -/
theorem mget_takes (hm : MayIssue s 0 [.dst 0 d, .dst 1 h, .differ 1 d h]) {m : Message} {rest : List Message}
    (hb : (s.core (coreOf s.cur)).tm.mailbox = m :: rest) :
    let u := (((s.issued false).modTm (coreOf s.cur) fun k => { k with mailbox := rest }).post (.mailDelivery (coreOf s.cur))).post
      (.pendingDelivery (coreOf s.cur))
    execMget d h s = .next (((u.dest s.cur d (m.setWidth 64)).dest s.cur h (m.extractLsb' 64 64)).advance s.cur) :=
  issue_next hm (by
    simp only [needFree_free false hfree, Stop.ok_bind, State.issued_cur, State.core_issued, hb, bits_zero]
    rfl)

end

/-- Settles O29: each answer of the mailbox instructions by its own lemma, the ORDER traps by the check of R14 that comes first. -/
theorem mailbox : Obligations.Mailbox := by
  unfold Obligations.Mailbox
  refine ⟨fun s tag a b d h t x y hfree => ⟨fun hm ht hx hy => ?_, fun hm => ?_, fun hm => ?_⟩, fun s tag a b d h hdet => ?_⟩
  · rw [exec_msend]
    exact ⟨msend_noCore hm hfree ht hx hy, msend_foreign hm hfree ht hx hy, msend_full hm hfree ht hx hy,
      msend_sends hm hfree ht hx hy⟩
  · exact ⟨mwait_empty hfree hm, mwait_counts hfree hm⟩
  · exact ⟨mget_empty hfree hm, fun m rest hb => mget_takes hfree hm hb⟩
  · rw [exec_msend, exec_mwait, exec_mget]
    exact ⟨fun hm => issue_order hm hdet, fun hm => issue_order hm hdet, fun hm => issue_order hm hdet⟩

end Sys2Proof.Machine
end

section
/-! PROOF. The token instructions (O38). `tokenOp` and `ownerOp` carry the checks that they share (a stale handle, ownership);
each instruction is then what its body answers. -/

namespace Sys2Proof.Machine

/-! ## The result word (R228) and ownership -/

theorem Token.result_eq (t : Token) : t.result = BitVec.ofNat 64 (match t.state with
    | .free => 7
    | .queued => 1
    | .permit => 2
    | .running => 3
    | .done => 4 + t.fin.toNat * 65536
    | .faulted => 5
    | .cancelled => 6) := by
  unfold Token.result
  cases t.state <;> rfl

theorem Token.allows_issued (t : Token) (s : State) (half : Bool) :
    t.allows (s.issued half) = true ↔ t.ownedBy (s.issued half) = true ∨ stPl s.me.status ≠ 0 := by
  simp [Token.allows]

/-! ## The checks that the instructions share -/

/-- What a token instruction with x in its handle's register answers past the check of R14. -/
def tokenAnswer (stale : Word) (d a : BitVec 5) (body : State → BitVec 32 → Token → Except Stop State) (x : Word) (s : State) :
    Except Stop State :=
  match s.findToken s.cur (x.setWidth 32) with
  | none => .ok (finish s [a] d stale)
  | some t => body s (x.setWidth 32) t

section
variable {s : State} {d a : BitVec 5} {x : Word} {free : Bool} {stale : Word} {more : List Field}
  {body : State → BitVec 32 → Token → Except Stop State}

/-- In a deterministic launch those of R14 trap ORDER. -/
theorem tokenOp_order (hm : MayIssue s 0 ([.dst 0 d, .src 1 a] ++ more)) (hdet : stDet s.me.status = true) :
    tokenOp true stale d a more body s = .next ((s.issued false).trapAt s.cur .order 0 0) :=
  issue_order hm hdet

theorem ownerOp_order (hm : MayIssue s 0 ([.dst 0 d, .src 1 a] ++ more)) (hdet : stDet s.me.status = true) :
    ownerOp true d a more body s = .next ((s.issued false).trapAt s.cur .order 0 0) :=
  tokenOp_order hm hdet

variable (hx : rd s a = .ok x) (hm : MayIssue s 0 ([.dst 0 d, .src 1 a] ++ more)) (hfree : free = true → stDet s.me.status = false)
include hx hm hfree

theorem tokenOp_mayIssue : tokenOp free stale d a more body s = match tokenAnswer stale d a body x (s.issued false) with
    | .ok t => .next t
    | .error e => .next ((s.issued false).stopped e) := by
  rw [tokenOp, issue_mayIssue hm]
  cases free
  · simp only [Bool.false_eq_true, if_false, rd_issued, hx, bits_zero]
    rfl
  · simp only [if_true, needFree_free false (hfree rfl), rd_issued, hx, bits_zero]
    rfl

theorem tokenOp_stale (hf : (s.issued false).findToken s.cur (x.setWidth 32) = none) :
    tokenOp free stale d a more body s = .next (finish (s.issued false) [a] d stale) := by
  rw [tokenOp_mayIssue hx hm hfree, tokenAnswer, State.issued_cur, hf]

variable {t : Token} (hf : (s.issued false).findToken s.cur (x.setWidth 32) = some t)
include hf

theorem tokenOp_next {u : State} (hb : body (s.issued false) (x.setWidth 32) t = .ok u) :
    tokenOp free stale d a more body s = .next u := by
  rw [tokenOp_mayIssue hx hm hfree, tokenAnswer, State.issued_cur, hf]; dsimp only; rw [hb]

theorem tokenOp_park {c : ParkCond} (hb : body (s.issued false) (x.setWidth 32) t = .error (.park c)) :
    tokenOp free stale d a more body s = .next ((s.issued false).modMe fun k => { k with wait := .cond c }) := by
  rw [tokenOp_mayIssue hx hm hfree, tokenAnswer, State.issued_cur, hf]; dsimp only; rw [hb]; rfl

omit hf in
theorem ownerOp_stale (hf : (s.issued false).findToken s.cur (x.setWidth 32) = none) :
    ownerOp free d a more body s = .next (finish (s.issued false) [a] d 7) :=
  tokenOp_stale hx hm hfree hf

/-- Another user thread reads 8 (R228), and none of its other sources. -/
theorem ownerOp_stranger (hown : ¬ t.allows (s.issued false) = true) :
    ownerOp free d a more body s = .next (finish (s.issued false) [a] d 8) :=
  tokenOp_next hx hm hfree hf (if_neg hown)

theorem ownerOp_next {u : State} (hown : t.allows (s.issued false) = true)
    (hb : body (s.issued false) (x.setWidth 32) t = .ok u) : ownerOp free d a more body s = .next u :=
  tokenOp_next hx hm hfree hf ((if_pos hown).trans hb)

end

/-! ## Each instruction -/

theorem exec_twait (d a : BitVec 5) (s : State) : exec (.twait d a) s = execTwait d a s := rfl
theorem exec_twaitT (d a : BitVec 5) (s : State) : exec (.twaitT d a) s = execTwaitT d a s := rfl
theorem exec_ttest (d a : BitVec 5) (s : State) : exec (.ttest d a) s = execTtest d a s := rfl
theorem exec_tcancel (d a : BitVec 5) (s : State) : exec (.tcancel d a) s = execTcancel d a s := rfl
theorem exec_tdetach (d a : BitVec 5) (s : State) : exec (.tdetach d a) s = execTdetach d a s := rfl
theorem exec_tadopt (d a : BitVec 5) (s : State) : exec (.tadopt d a) s = execTadopt d a s := rfl
theorem exec_tfault (d a : BitVec 5) (s : State) : exec (.tfault d a) s = execTfault d a s := rfl
theorem exec_tlist (d a : BitVec 5) (s : State) : exec (.tlist d a) s = execTlist d a s := rfl
theorem exec_tprio (d a b : BitVec 5) (s : State) : exec (.tprio d a b) s = execTprio d a b s := rfl
theorem exec_tafter (d a b : BitVec 5) (s : State) : exec (.tafter d a b) s = execTafter d a b s := rfl

section
variable {s : State} {d a b : BitVec 5} {x : Word} (hx : rd s a = .ok x) (hm : MayIssue s 0 [.dst 0 d, .src 1 a])
include hx hm

/-- The handles of the running thread's own tokens, by index in its course's table (R231). -/
theorem tlist_reads (hfree : stDet s.me.status = false) :
    execTlist d a s = .next (finish (s.issued false) [a] d
      (let mine := (((s.issued false).course (courseOf s.cur)).tokens.filter fun t =>
          t.2.state != .free && t.2.ownedBy (s.issued false)).map fun t => handleOf (courseOf s.cur) t.1 t.2.gen
       if x.toNat < mine.length then (mine.getD x.toNat 0).setWidth 64 else 0)) :=
  issue_next hm (by
    simp only [needFree_free false hfree, rd_issued, hx, Stop.ok_bind]
    rfl)

theorem waiting_stale (trap : Bool) (hf : (s.issued false).findToken s.cur (x.setWidth 32) = none) :
    waiting trap d a s = .next (finish (s.issued false) [a] d 7) :=
  tokenOp_stale hx hm (by nofun) hf

variable {t : Token} (hf : (s.issued false).findToken s.cur (x.setWidth 32) = some t)
include hf

/-- `twait` parks until the token is terminal (R229). -/
theorem waiting_parks (trap : Bool) (ht : t.state.terminal = false) :
    waiting trap d a s = .next ((s.issued false).modMe fun c => { c with wait := .cond (.tokenLive (x.setWidth 32)) }) :=
  tokenOp_park hx hm (by nofun) hf (by simp only [ht, Bool.not_false, if_true])

/-- Then it collects the token, but for `twait.t` of a faulted one (R229). -/
theorem waiting_collects {trap : Bool} (ht : t.state.terminal = true) (hok : trap = true → t.state ≠ .faulted) :
    waiting trap d a s = .next (finish ((s.issued false).collect (x.setWidth 32)) [a] d t.result) :=
  tokenOp_next hx hm (by nofun) hf (by
    have hno : (trap && t.state == .faulted) = false := by
      cases trap
      · rfl
      · simpa using hok rfl
    simp only [ht, Bool.not_true, Bool.false_eq_true, if_false, hno])

/-- The trap leaves the token uncollected (R229). -/
theorem waiting_traps (ht : t.state = .faulted) :
    waiting true d a s = .next (((s.issued false).modToken (x.setWidth 32) fun k =>
      { k with owed := k.owed.erase s.me.ident }.settle).trapAt s.cur .token t.fault ((x.setWidth 32 : BitVec 32).setWidth 64)) :=
  tokenOp_next hx hm (by nofun) hf (by
    simp only [ht, TokState.terminal, Bool.not_true, Bool.false_eq_true, if_false, BEq.rfl, Bool.and_true, if_true, State.me_issued]
    rfl)

/-- `ttest` collects a terminal token for its owner alone (R230). -/
theorem ttest_reads (hfree : stDet s.me.status = false) :
    execTtest d a s = .next (finish (if t.state.terminal = true ∧ t.ownedBy (s.issued false) = true then
      (s.issued false).collect (x.setWidth 32) else s.issued false) [a] d t.result) :=
  tokenOp_next hx hm (fun _ => hfree) hf (by simp only [Bool.and_eq_true])

theorem tadopt_takes : execTadopt d a s = .next (finish (postAll ((t.op.engines (hCourse (x.setWidth 32))).map .tokenSelect)
    ((s.issued false).modToken (x.setWidth 32) fun k =>
      { k with owner := BitVec.ofNat 15 s.cur, own := s.me.ident, ownLent := s.me.lent, away := false }) |>.post
        (.pendingDelivery (coreOf s.cur))) [a] d t.result) :=
  tokenOp_next hx hm (by nofun) hf (by simp only [State.me_issued, State.issued_cur])

theorem tfault_reads : execTfault d a s =
    .next (finish (s.issued false) [a] d (if t.state = .faulted ∨ t.state = .cancelled then t.fault else 0)) :=
  tokenOp_next hx hm (by nofun) hf (by cases t.state <;> rfl)

theorem tdetach_clears (hown : t.allows (s.issued false) = true) :
    execTdetach d a s = .next (finish ((s.issued false).modToken (x.setWidth 32) fun k => { k with det := false }.settle) [a] d
      t.result) :=
  ownerOp_next hx hm (by nofun) hf hown rfl

/-- The result of `tcancel` is that of the token as cancelling leaves it; an entry that frees at once was cancelled (R226). -/
theorem tcancel_cancels (hown : t.allows (s.issued false) = true) (hfree : stDet s.me.status = false) :
    let h : BitVec 32 := x.setWidth 32
    let u := (s.issued false).cancelToken h
    ∃ v, execTcancel d a s = .next (finish u [a] d v) ∧ (∀ t', u.tokenAt h = some t' → v = t'.result) ∧
      (u.tokenAt h = none → v = 6) :=
  ⟨_, ownerOp_next hx hm (fun _ => hfree) hf hown rfl, fun t' ht' => by rw [ht'], fun ht' => by rw [ht']⟩

end

section
variable {s : State} {d a b : BitVec 5} {x y : Word} (hx : rd s a = .ok x) (hm : MayIssue s 0 [.dst 0 d, .src 1 a, .src 2 b])
  (hy : rd s b = .ok y) {t : Token} (hf : (s.issued false).findToken s.cur (x.setWidth 32) = some t)
  (hown : t.allows (s.issued false) = true)
include hx hm hy hf hown

/-- A token that waits takes the priority, with the earlier ones of its issuer on its engine where it rises (R230). -/
theorem tprio_sets (hw : t.state = .queued ∨ t.state = .permit) :
    let h : BitVec 32 := x.setWidth 32
    let p : BitVec 2 := y.setWidth 2
    execTprio d a b s = .next (finish (postAll ((t.op.engines (hCourse h)).map .tokenSelect)
      ((if t.prio.toNat < p.toNat then (s.issued false).raiseEarlier t p (hCourse h) else s.issued false).modToken h fun k =>
        { k with prio := p })) [a, b] d t.result) :=
  ownerOp_next hx hm (by nofun) hf hown (by
    have hwaits : (t.state == .queued || t.state == .permit) = true := by simpa using hw
    simp only [rd_issued, hy, Stop.ok_bind, bits_zero, hwaits, if_true]
    rfl)

theorem tprio_late (hw : t.state ≠ .queued ∧ t.state ≠ .permit) :
    execTprio d a b s = .next (finish (postAll ((t.op.engines (hCourse (x.setWidth 32))).map .tokenSelect) (s.issued false)) [a, b] d
      t.result) :=
  ownerOp_next hx hm (by nofun) hf hown (by
    have hwaits : (t.state == .queued || t.state == .permit) = false := by simpa using hw
    simp only [rd_issued, hy, Stop.ok_bind, hwaits, Bool.false_eq_true, if_false]
    rfl)

variable (hfree : stDet s.me.status = false)
include hfree

theorem tafter_late (hq : t.state ≠ .queued) : execTafter d a b s = .next (finish (s.issued false) [a, b] d 1) :=
  ownerOp_next hx hm (fun _ => hfree) hf hown (by
    simp only [rd_issued, hy, Stop.ok_bind, if_pos hq]
    rfl)

/-- A chain that would come back to the token is refused (R230). -/
theorem tafter_cycle (hq : t.state = .queued)
    (hc : (s.issued false).chainReaches t.part (x.setWidth 32) ((s.issued false).allTokens.length + 1) (y.setWidth 32) = true) :
    execTafter d a b s = .next (finish (s.issued false) [a, b] d 2) :=
  ownerOp_next hx hm (fun _ => hfree) hf hown (by
    simp only [rd_issued, hy, Stop.ok_bind, bits_zero, if_neg (Classical.not_not.2 hq), hc, if_true]
    rfl)

theorem tafter_sets (hq : t.state = .queued)
    (hc : (s.issued false).chainReaches t.part (x.setWidth 32) ((s.issued false).allTokens.length + 1) (y.setWidth 32) = false) :
    execTafter d a b s = .next (finish (postAll ((t.op.engines (hCourse (x.setWidth 32))).map .tokenSelect)
      ((s.issued false).modToken (x.setWidth 32) fun k => { k with pred := y.setWidth 32, predFailed := false })) [a, b] d 0) :=
  ownerOp_next hx hm (fun _ => hfree) hf hown (by
    simp only [rd_issued, hy, Stop.ok_bind, bits_zero, if_neg (Classical.not_not.2 hq), hc, Bool.false_eq_true, if_false]
    rfl)

end

/-- Settles O38: the shared checks by the lemmas of `tokenOp` and `ownerOp`, each instruction by its own. -/
theorem tokenInstructions : Obligations.TokenInstructions := by
  unfold Obligations.TokenInstructions
  intro s d a b x hx i h found code free retry may
  have hcode : ∀ t : Token, code t = t.result := fun t => t.result_eq.symm
  have hmay : ∀ t : Token, may t ↔ t.allows i = true := fun t => (t.allows_issued s false).symm
  have hdet : ¬ free → stDet s.me.status = true := Bool.not_eq_false _ |>.mp
  simp only [hcode, hmay, List.forall_mem_cons, List.not_mem_nil, false_implies, implies_true, and_true, exec_twait, exec_twaitT,
    exec_ttest, exec_tcancel, exec_tdetach, exec_tadopt, exec_tfault, exec_tlist, exec_tprio, exec_tafter]
  refine ⟨fun hm => ⟨?_, fun hf => ?_, fun t hf => ?_, tlist_reads hx hm⟩,
    fun y hm hy => ⟨fun hd => ownerOp_order hm (hdet hd), fun hf => ?_,
      fun t hf => ⟨fun hown => ?_, fun hown => ⟨⟨?_, ?_⟩, fun hfree => ?_⟩⟩⟩⟩
  · exact ⟨fun hd => tokenOp_order hm (hdet hd), fun hd => ownerOp_order hm (hdet hd), fun hd => issue_order hm (hdet hd)⟩
  · exact ⟨⟨waiting_stale hx hm false hf, waiting_stale hx hm true hf, ownerOp_stale hx hm (by nofun) hf,
        tokenOp_stale hx hm (by nofun) hf⟩,
      fun hfree => ⟨tokenOp_stale hx hm (fun _ => hfree) hf, ownerOp_stale hx hm (fun _ => hfree) hf⟩,
      tokenOp_stale hx hm (by nofun) hf⟩
  · refine ⟨fun ht => ⟨waiting_parks hx hm hf false ht, waiting_parks hx hm hf true ht⟩, fun ht =>
        ⟨?_, fun hok => ?_, fun hft => ?_⟩,
      ttest_reads hx hm hf, tdetach_clears hx hm hf, fun hown => ⟨?_, fun hfree => ?_⟩, tcancel_cancels hx hm hf,
      tadopt_takes hx hm hf, tfault_reads hx hm hf⟩
    · exact waiting_collects hx hm hf ht (by nofun)
    · exact waiting_collects hx hm hf ht fun _ => hok
    · exact waiting_traps hx hm hf hft
    · exact ownerOp_stranger hx hm (by nofun) hf hown
    · exact ownerOp_stranger hx hm (fun _ => hfree) hf hown
  · exact ⟨ownerOp_stale hx hm (by nofun) hf, fun hfree => ownerOp_stale hx hm (fun _ => hfree) hf⟩
  · exact ⟨ownerOp_stranger hx hm (by nofun) hf hown, fun hfree => ownerOp_stranger hx hm (fun _ => hfree) hf hown⟩
  · exact tprio_sets hx hm hy hf hown
  · exact tprio_late hx hm hy hf hown
  · exact ⟨tafter_late hx hm hy hf hown hfree, tafter_cycle hx hm hy hf hown hfree, tafter_sets hx hm hy hf hown hfree⟩

end Sys2Proof.Machine
end

section
/-! PROOF. Loads (O23): what a load leaves when it issues, by the one body that every form has, and what its reply does. -/

namespace Sys2Proof.Machine

/-! ## Issue (R142, R147, R149) -/

/-- offset9 × access size as one signed product. -/
theorem offset_eq (off : BitVec 9) (n : Nat) : offset off n = BitVec.ofInt 64 (off.toInt * n) := by
  rw [BitVec.ofInt_mul, BitVec.ofInt_natCast]
  rfl

/-- An sc load, or one that acquires in a scope beyond the thread, acts as an acquire fence (R146). -/
theorem Order.acquires_scoped (o : Order) (b : Bool) :
    (o.acquires && (o == .sc || b)) = (o == .sc || ((o == .acquire || o == .acqRel) && b)) := by
  cases o <;> cases b <;> rfl

theorem State.ticket_eq (s : State) (o : Order) : s.ticket (o == .sc) = if o = .sc then some (s.keystone + 1) else none := by
  simp [State.ticket]

/-- The state that a load leaves when its access has passed: the next keystone number taken by an sc load, the destination empty,
the thread waiting, the request on its way. -/
def State.loadIssued (s : State) (half : Bool) (k : LdKind) (d base : BitVec 5) (q : BitVec 2) (ea : Word) (a : Access) : State :=
  let i := s.issued half
  let o := i.qOrd q
  let far := i.loadFar s.cur a.loc a.via (o == .sc)
  let w : Wait := .load a.loc a.via ea k d (i.wasFull s.cur d) (o != .loose)
    (o == .sc || ((o == .acquire || o == .acqRel) && i.qScp q != .thread)) far (if o = .sc then some (s.keystone + 1) else none) [base]
  (((a.st.keystoneIf (o == .sc)).emptyDest s.cur d).modMe fun c => { c with wait := w }).callHome far (o == .sc) s.cur a.via.home a.loc

theorem load_mayIssue {half : Bool} {k : LdKind} {d base : BitVec 5} {q : BitVec 2} {off x : Word} {s : State} {a : Access}
    (hm : MayIssue s 0 [.dst 0 d, .src 1 base]) (hx : rd s base = .ok x)
    (ha : (s.issued half).access s.cur q (x + off) k.size .load anySpace = .ok a) :
    load half k d base q off s = .next (s.loadIssued half k d base q (x + off) a) :=
  issue_next hm (by
    simp only [rd_issued, hx, Stop.ok_bind, State.issued_cur, ha, Order.acquires_scoped, State.ticket_eq]
    rfl)

/-- A form of a load, with its kind, whether it is 16 bits long, its qualifier and its address, is the one body `load`: the
address is the base's value and what the form adds to it. -/
def FormOfLoad (s : State) (d base : BitVec 5) (x : Word) (f : Instr × LdKind × Bool × BitVec 2 × Word) : Prop :=
  ∃ y, f.2.2.2.2 = x + y ∧ exec f.1 s = load f.2.2.1 f.2.1 d base f.2.2.2.1 y s

theorem FormOfLoad.long {s : State} {d base : BitVec 5} {x : Word} {i : Instr} {k : LdKind} {q : BitVec 2} {off : BitVec 9}
    (n : Nat) (h : exec i s = load false k d base q (offset off n) s) :
    FormOfLoad s d base x (i, k, false, q, x + BitVec.ofInt 64 (off.toInt * n)) :=
  ⟨offset off n, by rw [offset_eq], h⟩

theorem FormOfLoad.short {s : State} {d base : BitVec 5} {x : Word} {i : Instr} {k : LdKind}
    (h : exec i s = load true k d base 0 0 s) : FormOfLoad s d base x (i, k, true, 0, x) :=
  ⟨0, (BitVec.add_zero x).symm, h⟩

theorem FormOfLoad.issue {s : State} {d base : BitVec 5} {x : Word} {f : Instr × LdKind × Bool × BitVec 2 × Word} {a : Access}
    (hf : FormOfLoad s d base x f) (hm : MayIssue s 0 [.dst 0 d, .src 1 base]) (hx : rd s base = .ok x)
    (ha : (s.issued f.2.2.1).access s.cur f.2.2.2.1 f.2.2.2.2 f.2.1.size .load anySpace = .ok a) :
    exec f.1 s = .next (s.loadIssued f.2.2.1 f.2.1 d base f.2.2.2.1 f.2.2.2.2 a) := by
  obtain ⟨y, hea, hexec⟩ := hf
  rw [hea] at ha ⊢
  rw [hexec]
  exact load_mayIssue hm hx ha

/-! ## The reply -/

theorem exec_replyWriteback (thr : Nat) (s : State) : exec (.replyWriteback thr) s = execReplyWriteback thr s := rfl

theorem State.callHome_home {s : State} {far sc : Bool} {thr home : Nat} {l : Loc}
    (h : (if sc then keystonePath thr home l else if far then requestPath thr home l else []) = []) :
    s.callHome far sc thr home l = s.post (.reply thr) := if_pos h

theorem State.callHome_sends {s : State} {far sc : Bool} {thr home : Nat} {l : Loc} {path : List Nat}
    (hp : (if sc then keystonePath thr home l else if far then requestPath thr home l else []) = path) (h : path ≠ []) :
    s.callHome far sc thr home l = s.sendOn ⟨if path = requestPath thr home l then .request else .ordered, thr, (s.ctx thr).ident,
      path, backPath (requestPath thr home l), l.vert, 0⟩ := by
  subst hp; exact if_neg h

/-- A load's answer: MEMERR, or the value, with which its instruction completes (R143, R149). -/
theorem State.takeAnswer_load (s : State) (thr : Nat) (a : Answer) (ea : Word) (d : BitVec 5) (was : Bool) (srcs : List (BitVec 5))
    (h : a.code = 0) : s.takeAnswer thr a ea d was srcs = match a.bad with
      | some e => s.memErr thr e d was 0 ea
      | none => ((s.consumeLate thr srcs).reply thr d a.old).resume thr := by
  unfold State.takeAnswer
  rw [h]
  cases a.bad <;> rfl

/-! ## A load under its thread's own posted writes (R149, R304) -/

theorem State.forwards_clear {s : State} {thr : Nat} {l : Loc} {n : Nat} (h : ∀ p ∈ (s.ctx thr).posted, p.meets l n = false) :
    s.forwards thr l n = true := by
  have hnone : ((s.ctx thr).posted.reverse.find? fun p => p.meets l n) = none := by simpa using h
  rw [State.forwards, hnone]

/-- The last posted write that touches the load's words decides: it gives them all, and its arrival touches none. -/
theorem State.forwards_last {s : State} {thr : Nat} {l : Loc} {n : Nat} {ps qs : List Posted} {p : Posted}
    (hps : (s.ctx thr).posted = ps ++ p :: qs) (hp : p.meets l n = true) (hq : ∀ q ∈ qs, q.meets l n = false) :
    s.forwards thr l n = true ↔ p.covers l n = true ∧
      ∀ w m, p.arrival = some (w, m) → ∀ x ∈ wordsOf w 16, x ∉ wordsOf l n := by
  have hlast : ((s.ctx thr).posted.reverse.find? fun p => p.meets l n) = some p := by
    have hnone : (qs.reverse.find? fun p => p.meets l n) = none := by simpa using hq
    simp [hps, List.find?_append, hnone, hp]
  rw [State.forwards, hlast]
  simp only [Bool.and_eq_true]
  refine and_congr_right fun _ => ?_
  cases p.arrival with
  | none => simp
  | some wm => obtain ⟨w, m⟩ := wm; simp

theorem Posted.readBy_iff (p : Posted) (l : Loc) (n : Nat) (strong acq : Bool) :
    ((p.readBy l n strong acq).joined = true ↔ p.joined = true ∨ (strong = true ∧ p.meets l n = true)) ∧
    ((p.readBy l n strong acq).led = true ↔ p.led = true ∨ p.meets l n = true ∨ (strong = true ∧ p.strong = true)) ∧
    ((p.readBy l n strong acq).kept = true ↔ p.kept = true ∨ (acq = true ∧ (p.meets l n = true ∨ p.strong = true))) := by
  simp [Posted.readBy, or_assoc]

/-- A load that may not answer yet, its number not next or a posted write of its thread in the way, comes again. -/
theorem exec_load_waits {s : State} {thr : Nat} {l : Loc} {via : Via} {ea : Word} {k : LdKind} {d : BitVec 5}
    {was strong acq far : Bool} {sc : Option (BitVec 64)} {srcs : List (BitVec 5)}
    (hw : (s.ctx thr).wait = .load l via ea k d was strong acq far sc srcs)
    (h : ¬ (sc.all s.inSequence = true ∧ (sc = none → s.forwards thr l k.size = true))) :
    exec (.replyWriteback thr) s = .next (s.post (.reply thr)) := by
  rw [exec_replyWriteback, execReplyWriteback, hw]
  cases sc with
  | none => simp_all [Wait.number]
  | some n => simp_all [Wait.number]

/-- A load that may answer replies. -/
theorem exec_load_comes {s : State} {thr : Nat} {l : Loc} {via : Via} {ea : Word} {k : LdKind} {d : BitVec 5}
    {was strong acq far : Bool} {sc : Option (BitVec 64)} {srcs : List (BitVec 5)}
    (hw : (s.ctx thr).wait = .load l via ea k d was strong acq far sc srcs)
    (h : sc.all s.inSequence = true ∧ (sc = none → s.forwards thr l k.size = true)) :
    exec (.replyWriteback thr) s = .next (s.loadReply thr l via ea k d was strong acq far sc.isSome srcs) := by
  rw [exec_replyWriteback, execReplyWriteback, hw]
  cases sc with
  | none => simp_all [Wait.number]
  | some n => simp_all [Wait.number]

theorem exec_answered_replyWriteback {s : State} {thr : Nat} {a : Answer} {ea : Word} {d : BitVec 5} {was : Bool}
    {srcs : List (BitVec 5)} (hw : (s.ctx thr).wait = .answered a ea d was srcs) :
    exec (.replyWriteback thr) s = .next (s.takeAnswer thr a ea d was srcs) := by
  rw [exec_replyWriteback, execReplyWriteback, hw]
  rfl

theorem State.loadAt_bad {s : State} {thr : Nat} {l : Loc} {via : Via} {k : LdKind} {strong acq sc : Bool} {e : Nat × Nat}
    (h : (if sc then s.performAll thr else s).badUnit l k.size = some e) :
    s.loadAt thr l via k strong acq sc = (⟨0, some e, 0, 0⟩, if sc then s.performAll thr else s) := by
  simp only [State.loadAt, h]

theorem State.loadAt_good {s : State} {thr : Nat} {l : Loc} {via : Via} {k : LdKind} {strong acq sc : Bool} {u c : State}
    (hu : (if sc then s.performAll thr else s) = u) (h : u.badUnit l k.size = none)
    (hc : u.cacheLoad (u.ctx thr).part via l k.size = c) :
    s.loadAt thr l via k strong acq sc =
      (⟨0, none, k.extend (c.readOwn thr l k.size), 0⟩, c.joinOwn thr l k.size strong acq) := by
  subst hu hc
  simp only [State.loadAt, h]

/-- An answer without a failing code is sent back as one data line, or taken. -/
theorem State.answerFrom_load {s : State} {far : Bool} {thr home : Nat} {l : Loc} {a : Answer} {ea : Word} {d : BitVec 5}
    {was : Bool} {srcs : List (BitVec 5)} (h : a.code = 0) : s.answerFrom far thr home l a ea d was srcs =
      if far then (s.modCtx thr fun c => { c with wait := .answered a ea d was srcs }).callBack thr home l 192
      else match a.bad with
        | some e => s.memErr thr e d was 0 ea
        | none => ((s.consumeLate thr srcs).reply thr d a.old).resume thr := by
  rw [State.answerFrom, h, s.takeAnswer_load thr a ea d was srcs h]
  rfl

/-- Settles O23: every form is the one body `load`, whose outcome `load_mayIssue` states; the reply is split by whether it may
come, and then by whether the bytes can be read. -/
theorem loads : Obligations.Loads := by
  unfold Obligations.Loads
  refine ⟨⟨?_, fun u far sc thr home l => ⟨State.callHome_home, State.callHome_sends rfl⟩⟩, ?_⟩
  · intro s d base q off imm x hm hx at' forms f hf a ha
    have hforms : ∀ f ∈ forms, FormOfLoad s d base x f := by
      refine List.forall_mem_append.2 ⟨?_, ?_⟩
      · simp only [List.forall_mem_cons]
        exact ⟨.long 1 rfl, .long 1 rfl, .long 2 rfl, .long 2 rfl, .long 4 rfl, .long 4 rfl, .long 8 rfl, .long 2 rfl,
          .long 2 rfl, .long 4 rfl, .long 8 rfl, .short rfl, .short rfl, .short rfl, List.forall_mem_nil _⟩
      · split
        · next hsp =>
          subst hsp
          exact List.forall_mem_singleton.2 ⟨_, rfl, rfl⟩
        · exact List.forall_mem_nil _
    exact (hforms f hf).issue hm hx ha
  · intro s thr l via ea k d was strong acq far sc srcs gets n
    have hn : n = k.size := by cases k <;> rfl
    clear_value n
    subst hn
    refine ⟨?_, ?_, ?_, ?_, fun p => p.readBy_iff l k.size strong acq⟩
    · intro a hw hcode
      exact (exec_answered_replyWriteback hw).trans (congrArg _ (State.takeAnswer_load s thr a ea d was srcs hcode))
    · intro hw answers u comes
      refine ⟨?_, ?_, ?_⟩
      · exact exec_load_waits hw
      · intro hcomes e he
        refine (exec_load_comes hw hcomes).trans ?_
        rw [State.loadReply, State.loadAt_bad he]
        exact congrArg _ (State.answerFrom_load rfl)
      · intro hcomes hgood c raw v
        have hv : k.extend (c.readOwn thr l k.size) = v := by cases k <;> rfl
        refine (exec_load_comes hw hcomes).trans ?_
        rw [State.loadReply, State.loadAt_good rfl hgood rfl, hv]
        exact congrArg _ (State.answerFrom_load rfl)
    · exact State.forwards_clear
    · intro ps p qs hps hp hq
      exact State.forwards_last hps hp hq
end Sys2Proof.Machine
end

section
/-! PROOF. The command page (O57), refuted: the cells that a group keeps when the group it reads is passed on. -/

namespace Sys2Proof.Machine

/-- An analog configuration of vault 0 that waits for its engine: of group 0 alone, whose position and type R371 gives. -/
def queuedCfg : Token := { Token.zero with state := .queued, op := .acfg 1 0 0 }

/-- One that runs: of groups 0 and 1. -/
def runningCfg : Token := { Token.zero with state := .running, op := .acfg 3 0 0 }

/-- Group 1 of vault 0 is configured, and one of its cells reads an integrator of group 0. The token table of course 0 lists
index 0 twice: the entry found, which says what an unlisted token says, hides one that runs. -/
def hiddenRun : State :=
  { State.reset with
    courses := [(0, { Course.zero with tokens := [(1, queuedCfg), (0, Token.zero), (0, runningCfg)] })]
    vgroups := [(1, { VGroup.zero with cfg := .configured, cells := [(32, 1 <<< 34)] })] }

/-- No token that `hiddenRun` can name configures a group: the running one is hidden. -/
theorem hiddenRun_token (h : BitVec 32) : hiddenRun.token h = Token.zero ∨ hiddenRun.token h = queuedCfg := by
  unfold State.token State.course hiddenRun
  simp only [Tbl.get]
  split
  · simp only [Tbl.get]
    split
    · exact .inr rfl
    · split
      · exact .inl rfl
      · exact .inl rfl
  · exact .inl rfl

/-- So the last clause's condition on the running configurations holds of group 1. -/
theorem hiddenRun_names_no_run (h : BitVec 32) (mask : BitVec 16) (a : BitVec 57) (b : Nat) (hop : (hiddenRun.token h).op = .acfg mask a b)
    (hrun : (hiddenRun.token h).state = .running) : mask.getLsbD 1 = false := by
  rcases hiddenRun_token h with ht | ht
  · rw [ht] at hop; cases hop
  · rw [ht] at hrun; cases hrun

theorem hiddenRun_uses : (hiddenRun.vgroup 1).cfg = .configured ∧ hiddenRun.usesGroup 1 0 = true := by decide +kernel

/-- Passing group 0 on refuses the queued configuration, which rewrites the table without its empty entry; the running one, now
found, is refused too and leaves group 1 without cells. -/
theorem hiddenRun_reassign_cells : ((hiddenRun.reassign 0).vgroup 1).cells = [] := by decide +kernel

theorem hiddenRun_cutFrom_cells : ((hiddenRun.vgroup 1).cutFrom 1 0).cells ≠ [] := by decide +kernel

/-- Refutes O57: its last clause speaks of every state, also of one whose token table is not canonical, and allows a group's
cells to be lost only to a running configuration that a handle reads. In `hiddenRun` no handle reads one, yet passing group 0 on
reveals one, and group 1 loses its cells. -/
theorem not_commandPages : ¬ Obligations.CommandPages := by
  unfold Obligations.CommandPages
  intro h
  obtain ⟨-, -, -, -, -, -, -, -, -, hpassed⟩ := h hiddenRun ⟨0, 0⟩ (by decide)
  obtain ⟨-, husers⟩ := hpassed 0
  obtain ⟨-, hcells, -⟩ := husers 1 (by decide) (by decide) hiddenRun_uses.1 hiddenRun_uses.2
  have hkept := hcells hiddenRun_names_no_run
  rw [hiddenRun_reassign_cells] at hkept
  exact hiddenRun_cutFrom_cells hkept.symm

end Sys2Proof.Machine
end

section
/-! PROOF. Choices of the scheduler (O52): the first of a queue, the nearest free core, the team that gives way. Each is a fold that
keeps the better of two, and so finds an element whose key, a pair, is least. -/

namespace Sys2Proof.Machine

/-- The order of keys: by the first component, then by the second. -/
def keyBefore (p q : Int × Int) : Prop := p.1 < q.1 ∨ (p.1 = q.1 ∧ p.2 < q.2)

theorem keyBefore_asymm {p q : Int × Int} (h : keyBefore p q) : ¬ keyBefore q p := by
  unfold keyBefore at *; omega

/-- What is not before q, itself not before r, is not before r. -/
theorem not_keyBefore_trans {p q r : Int × Int} (h : ¬ keyBefore p q) (k : ¬ keyBefore q r) : ¬ keyBefore p r := by
  unfold keyBefore at *; omega

/-- A fold that keeps the better of two finds an element with the least key. -/
theorem foldl_better_least {α : Type} (key : α → Int × Int) (better : α → α → Bool)
    (h : ∀ a b, better b a = true ↔ keyBefore (key b) (key a)) : (ks : List α) → (k : α) →
      let m := ks.foldl (fun a b => if better b a then b else a) k
      m ∈ k :: ks ∧ ∀ x ∈ k :: ks, ¬ keyBefore (key x) (key m)
  | [], k => by simp [keyBefore]
  | j :: ks, k => by
    dsimp only [List.foldl_cons]
    by_cases hjk : better j k = true
    · obtain ⟨hmem, hleast⟩ := foldl_better_least key better h ks j
      rw [if_pos hjk]
      refine ⟨List.mem_cons_of_mem _ hmem, List.forall_mem_cons.2 ⟨?_, hleast⟩⟩
      exact not_keyBefore_trans (keyBefore_asymm ((h k j).1 hjk)) (hleast j List.mem_cons_self)
    · obtain ⟨hmem, hleast⟩ := foldl_better_least key better h ks k
      rw [if_neg hjk]
      obtain ⟨hk, hks⟩ := List.forall_mem_cons.1 hleast
      refine ⟨?_, List.forall_mem_cons.2 ⟨hk, List.forall_mem_cons.2 ⟨not_keyBefore_trans (mt (h k j).2 hjk) hk, hks⟩⟩⟩
      exact (List.mem_cons.1 hmem).elim (fun e => List.mem_cons.2 (.inl e)) fun hm => List.mem_cons_of_mem _ (List.mem_cons_of_mem _ hm)

/-! ## The queue (R363) -/

/-- The place of a waiting team: a higher priority first, then the earlier order number. -/
def Waiting.key (w : Waiting) : Int × Int := (-w.prio, w.order)

theorem Waiting.keyBefore_iff (a b : Waiting) :
    keyBefore a.key b.key ↔ b.prio < a.prio ∨ (b.prio = a.prio ∧ a.order < b.order) := by
  simp only [Waiting.key, keyBefore]; omega

theorem Waiting.before_iff (a b : Waiting) : a.before b = true ↔ keyBefore a.key b.key := by
  simp only [Waiting.before, Waiting.keyBefore_iff, Bool.or_eq_true, Bool.and_eq_true, decide_eq_true_eq, beq_iff_eq,
    eq_comm (a := a.prio)]

/-- No team of the queue comes before its first. -/
theorem firstWaiting_least {ws : List Waiting} {w : Waiting} (h : firstWaiting ws = some w) :
    ∀ x ∈ ws, ¬ (w.prio < x.prio ∨ (w.prio = x.prio ∧ x.order < w.order)) := by
  cases ws with
  | nil => cases h
  | cons k ks =>
    obtain rfl := Option.some.inj h
    intro x hx
    rw [← Waiting.keyBefore_iff]
    exact (foldl_better_least Waiting.key Waiting.before (fun a b => b.before_iff a) ks k).2 x hx

/-! ## The nearest free core (R363) -/

/-- The cores of a partition stand in ascending order. -/
theorem Part.cores_ascending (p : Part) : p.cores.Pairwise (· < ·) := by
  unfold Part.cores
  rw [List.pairwise_flatMap]
  refine ⟨fun k _ => ?_, (List.pairwise_lt_range.filter _).imp fun {a b} hab x hx y hy => ?_⟩
  · exact List.pairwise_map.2 (List.pairwise_lt_range.imp fun h => by omega)
  · simp only [List.mem_map, List.mem_range] at hx hy
    omega

/-- The nearer of two cores by their distances, or the lower where these agree. -/
def nearer (far : Nat → Nat) (b a : Nat) : Bool := far b < far a || (far b == far a && b < a)

theorem nearer_iff (far : Nat → Nat) (a b : Nat) : nearer far b a = true ↔ keyBefore (far b, b) (far a, a) := by
  simp only [nearer, keyBefore, Bool.or_eq_true, Bool.and_eq_true, decide_eq_true_eq, beq_iff_eq]; omega

/-- In an ascending list the distance alone decides: no later core is lower. -/
theorem foldl_nearer (far : Nat → Nat) : (ks : List Nat) → (k : Nat) → (k :: ks).Pairwise (· < ·) →
    ks.foldl (fun a b => if far b < far a then b else a) k = ks.foldl (fun a b => if nearer far b a then b else a) k
  | [], _, _ => rfl
  | j :: ks, k, hasc => by
    obtain ⟨hk, hjks⟩ := List.pairwise_cons.1 hasc
    obtain ⟨hkj, hkks⟩ := List.forall_mem_cons.1 hk
    have hnearer : nearer far j k = decide (far j < far k) := by simp [nearer, Nat.not_lt.2 (Nat.le_of_lt hkj)]
    simp only [List.foldl_cons, hnearer, decide_eq_true_eq]
    split
    · exact foldl_nearer far ks j hjks
    · exact foldl_nearer far ks k (List.pairwise_cons.2 ⟨hkks, (List.pairwise_cons.1 hjks).2⟩)

/-- The core chosen is free and of the partition, and of those it is the nearest, the lowest of the nearest. -/
theorem State.pickCore_nearest {s : State} {part die k : Nat} (h : s.pickCore part die = some k) :
    k ∈ (s.part part).cores ∧ s.coreFree k = true ∧ ∀ j ∈ (s.part part).cores, s.coreFree j = true →
      hops die (dieOfCore k) < hops die (dieOfCore j) ∨ (hops die (dieOfCore k) = hops die (dieOfCore j) ∧ k ≤ j) := by
  have hasc : ((s.part part).cores.filter s.coreFree).Pairwise (· < ·) := (s.part part).cores_ascending.filter _
  unfold State.pickCore at h
  split at h
  · cases h
  · next c cs hfree =>
    rw [hfree] at hasc
    rw [foldl_nearer (fun c => hops die (dieOfCore c)) cs c hasc] at h
    obtain ⟨hmem, hleast⟩ := foldl_better_least _ _ (nearer_iff fun c => hops die (dieOfCore c)) cs c
    obtain rfl := Option.some.inj h
    rw [← hfree] at hmem hleast
    obtain ⟨hcore, hcoreFree⟩ := List.mem_filter.1 hmem
    refine ⟨hcore, hcoreFree, fun j hj hjFree => ?_⟩
    have hj := hleast j (List.mem_filter.2 ⟨hj, hjFree⟩)
    simp only [keyBefore] at hj
    omega

/-! ## Displacement (R364, R371) -/

/-- The cores of a partition that hold teams, each with the priority of its team's launch. -/
def State.holders (s : State) (part : Nat) : List (Nat × Nat) :=
  (s.part part).cores.filterMap fun k => (s.core k).team.map fun t => (k, (s.launch t.1).prio.toNat)

/-- The waiting teams for which no core is being given up yet. -/
def State.unserved (s : State) (part : Nat) (ws : List Waiting) : List Waiting :=
  (orderWaiting ws).drop ((s.holders part).filter fun x => (s.core x.1).preempting).length

/-- The teams that can give way to one of a priority: of a lower one, and not under pre-emption. -/
def State.yielding (s : State) (part prio : Nat) : List (Nat × Nat) :=
  (s.holders part).filter fun x => !(s.core x.1).preempting && x.2 < prio

theorem State.mem_yielding {s : State} {part prio : Nat} {x : Nat × Nat} :
    x ∈ s.yielding part prio ↔ x ∈ s.holders part ∧ (s.core x.1).preempting = false ∧ x.2 < prio := by
  simp [State.yielding]

/-- What gives way first: the lowest priority, of these the highest core. -/
def yieldKey (x : Nat × Nat) : Int × Int := (x.2, -x.1)

/-- The comparison of `State.displaceFor`. -/
def yieldsBefore (b a : Nat × Nat) : Bool := b.2 < a.2 || (b.2 == a.2 && a.1 < b.1)

theorem yieldsBefore_iff (a b : Nat × Nat) : yieldsBefore b a = true ↔ keyBefore (yieldKey b) (yieldKey a) := by
  simp only [yieldsBefore, yieldKey, keyBefore, Bool.or_eq_true, Bool.and_eq_true, decide_eq_true_eq, beq_iff_eq]; omega

theorem not_keyBefore_yieldKey {a b : Nat × Nat} (h : ¬ keyBefore (yieldKey b) (yieldKey a)) :
    a.2 < b.2 ∨ (a.2 = b.2 ∧ b.1 ≤ a.1) := by
  simp only [yieldKey, keyBefore] at h; omega

/-- Displacement in terms of the unserved teams and those that can give way. -/
theorem State.displaceFor_eq (s : State) (part : Nat) (ws : List Waiting) :
    s.displaceFor part ws = match s.unserved part ws with
      | [] => s
      | w :: _ => match s.yielding part w.prio with
        | [] => s
        | k :: ks => (s.preemptCore (ks.foldl (fun a b => if yieldsBefore b a then b else a) k).1).post (.placement part) := rfl

theorem State.displaceFor_served {s : State} {part : Nat} {ws : List Waiting} (h : s.unserved part ws = []) :
    s.displaceFor part ws = s := by
  rw [State.displaceFor_eq, h]

theorem State.displaceFor_none_yields {s : State} {part : Nat} {ws rest : List Waiting} {w : Waiting}
    (hw : s.unserved part ws = w :: rest) (h : s.yielding part w.prio = []) : s.displaceFor part ws = s := by
  simp only [State.displaceFor_eq, hw, h]

theorem State.displaceFor_yields {s : State} {part : Nat} {ws rest : List Waiting} {w : Waiting}
    (hw : s.unserved part ws = w :: rest) (h : s.yielding part w.prio ≠ []) :
    ∃ k ∈ s.yielding part w.prio, (∀ x ∈ s.yielding part w.prio, k.2 < x.2 ∨ (k.2 = x.2 ∧ x.1 ≤ k.1)) ∧
      s.displaceFor part ws = (s.preemptCore k.1).post (.placement part) := by
  obtain ⟨k, ks, hks⟩ := List.exists_cons_of_ne_nil h
  obtain ⟨hmem, hleast⟩ := foldl_better_least yieldKey yieldsBefore yieldsBefore_iff ks k
  rw [hks]
  exact ⟨_, hmem, fun x hx => not_keyBefore_yieldKey (hleast x hx), by simp only [State.displaceFor_eq, hw, hks]⟩

/-! ## Placement and the quantum as events -/

theorem exec_teamPlacement_none {s : State} {part : Nat} (h : s.waitingTeams part = []) : exec (.teamPlacement part) s = .next s := by
  show execTeamPlacement part s = _
  simp only [execTeamPlacement, h, firstWaiting]

theorem exec_teamPlacement_placed {s : State} {part k : Nat} {w : Waiting} (hw : firstWaiting (s.waitingTeams part) = some w)
    (hk : s.pickCore part (s.launch w.launch).die = some k) :
    exec (.teamPlacement part) s = .next ((s.placeTeam w.launch w.team k).post (.placement part)) := by
  show execTeamPlacement part s = _
  simp only [execTeamPlacement, hw, hk]

theorem exec_teamPlacement_full {s : State} {part : Nat} {w : Waiting} (hw : firstWaiting (s.waitingTeams part) = some w)
    (hk : s.pickCore part (s.launch w.launch).die = none) :
    exec (.teamPlacement part) s = .next (s.displaceFor part (s.waitingTeams part)) := by
  show execTeamPlacement part s = _
  simp only [execTeamPlacement, hw, hk]

/-- A team waits to which one of launch l gives its core at the end of its quantum: of the same priority, or of a higher one and not
served by a core that is being given up already. -/
def State.mustYield (s : State) (l : Nat) : Bool :=
  let ws := orderWaiting (s.waitingTeams (s.launch l).part)
  let going := ((s.part (s.launch l).part).cores.filter fun k => (s.core k).preempting).length
  (ws.any fun w => w.prio == (s.launch l).prio.toNat) || (ws.drop going).any fun w => (s.launch l).prio.toNat < w.prio

theorem State.mustYield_iff (s : State) (l : Nat) : s.mustYield l = true ↔
    (∃ w ∈ orderWaiting (s.waitingTeams (s.launch l).part), w.prio = (s.launch l).prio.toNat) ∨
    ∃ w ∈ (orderWaiting (s.waitingTeams (s.launch l).part)).drop
      ((s.part (s.launch l).part).cores.filter fun k => (s.core k).preempting).length, (s.launch l).prio.toNat < w.prio := by
  simp [State.mustYield]

section
variable {s : State} {core l t : Nat} (hteam : (s.core core).team = some (l, t))
include hteam

/-- The quantum is not over yet. -/
theorem exec_quantumExpiry_early (h : (s.core core).quantum < (s.part (s.launch l).part).quantum) :
    exec (.quantumExpiry core) s = .next s := by
  show execQuantumExpiry core s = _
  simp only [execQuantumExpiry, hteam, h, if_true]

/-- The quantum is over: whether the team gives way turns on the priorities of those that wait. -/
theorem exec_quantumExpiry_over (h : (s.part (s.launch l).part).quantum ≤ (s.core core).quantum) :
    exec (.quantumExpiry core) s = if s.mustYield l then .next (s.preemptCore core)
      else .next (s.modCore core fun k => { k with quantum := 0 }) := by
  show execQuantumExpiry core s = _
  simp only [execQuantumExpiry, hteam, Nat.not_lt.2 h, if_false]
  rfl

theorem exec_quantumExpiry_preempts (h : (s.part (s.launch l).part).quantum ≤ (s.core core).quantum) (hyield : s.mustYield l = true) :
    exec (.quantumExpiry core) s = .next (s.preemptCore core) := by
  rw [exec_quantumExpiry_over hteam h, if_pos hyield]

theorem exec_quantumExpiry_restarts (h : (s.part (s.launch l).part).quantum ≤ (s.core core).quantum) (hstay : s.mustYield l ≠ true) :
    exec (.quantumExpiry core) s = .next (s.modCore core fun k => { k with quantum := 0 }) := by
  rw [exec_quantumExpiry_over hteam h, if_neg hstay]

end

end Sys2Proof.Machine
end

section
/-! PROOF. What a placement and the end of a launch leave alone (O52): records of faults, walks of the sill, segments of a stack, the
cores that a launch gives back. -/

namespace Sys2Proof.Machine

/-! ## Folds -/

/-- A fold of steps that leave a part of the state alone leaves it alone. -/
theorem foldl_unchanged {α β γ : Type} (part : β → γ) (f : β → α → β) (h : ∀ s x, part (f s x) = part s) (l : List α) (s : β) :
    part (l.foldl f s) = part s :=
  foldl_keeps (fun t => part t = part s) f (fun t x ht => (h t x).trans ht) l s rfl

/-- What one step of a fold brings about, and every step keeps, holds in the end. -/
theorem foldl_reaches {α β : Type} (P : β → Prop) (f : β → α → β) (keeps : ∀ s x, P s → P (f s x)) {x : α} (hx : ∀ s, P (f s x)) :
    (l : List α) → (s : β) → x ∈ l → P (l.foldl f s)
  | y :: l, s, hmem => by
    rcases List.mem_cons.1 hmem with rfl | hmem
    · exact foldl_keeps P f keeps l _ (hx s)
    · exact foldl_reaches P f keeps hx l _ hmem

/-- A table's entry that is not the default is listed. -/
theorem Tbl.mem_of_get_ne {α : Type} {d : α} {k : Nat} : {t : Tbl α} → Tbl.get d t k ≠ d → (k, Tbl.get d t k) ∈ t
  | [], h => absurd rfl h
  | (j, x) :: t, h => by
    unfold Tbl.get at h ⊢
    split
    · next hj => simp [hj]
    · next hj =>
      rw [if_neg hj] at h
      exact List.mem_cons_of_mem _ (Tbl.mem_of_get_ne h)

/-! ## The sill and the host's queues -/

@[simp] theorem State.hostTouch_threads (s : State) (pa n : Nat) : (s.hostTouch pa n).threads = s.threads := by
  rw [s.hostTouch_linksOnly pa n]

@[simp] theorem State.hostTouch_launches (s : State) (pa n : Nat) : (s.hostTouch pa n).launches = s.launches := by
  rw [s.hostTouch_linksOnly pa n]

@[simp] theorem State.physWrite_launches (s : State) (pa : Nat) (bs : List Byte) : (s.physWrite pa bs).launches = s.launches := by
  unfold State.physWrite; split <;> rfl

theorem State.queueRecord_threads (s : State) (cb : Nat) (mk : Word32 → List Byte) : (s.queueRecord cb mk).threads = s.threads := by
  dsimp only [State.queueRecord]; repeat' split
  all_goals simp only [State.physWrite_threads, State.hostTouch_threads]

theorem State.queueRecord_launches (s : State) (cb : Nat) (mk : Word32 → List Byte) : (s.queueRecord cb mk).launches = s.launches := by
  dsimp only [State.queueRecord]; repeat' split
  all_goals simp only [State.physWrite_launches, State.hostTouch_launches]

@[simp] theorem State.faultReport_threads (s : State) (part kind what : Nat) (who : Word32) (x : Word) (tag : Word32) :
    (s.faultReport part kind what who x tag).threads = s.threads := s.queueRecord_threads _ _

@[simp] theorem State.faultReport_launches (s : State) (part kind what : Nat) (who : Word32) (x : Word) (tag : Word32) :
    (s.faultReport part kind what who x tag).launches = s.launches := s.queueRecord_launches _ _

@[simp] theorem State.correct_threads (s : State) (part : Nat) (l : Loc) (n : Nat) : (s.correct part l n).threads = s.threads := by
  cases l <;> dsimp only [State.correct] <;> split <;> rfl

@[simp] theorem State.correct_launches (s : State) (part : Nat) (l : Loc) (n : Nat) : (s.correct part l n).launches = s.launches := by
  cases l <;> dsimp only [State.correct] <;> split <;> rfl

@[simp] theorem State.sillWalked_mem (s : State) (part : Nat) (asid : BitVec 12) (va : Nat) : (s.sillWalked part asid va).mem = s.mem :=
  foldl_mem _ (fun s _ => s.correct_mem ..) _ s

@[simp] theorem State.sillWalked_threads (s : State) (part : Nat) (asid : BitVec 12) (va : Nat) :
    (s.sillWalked part asid va).threads = s.threads :=
  foldl_unchanged State.threads _ (fun s _ => s.correct_threads ..) _ s

@[simp] theorem State.sillWalked_launches (s : State) (part : Nat) (asid : BitVec 12) (va : Nat) :
    (s.sillWalked part asid va).launches = s.launches :=
  foldl_unchanged State.launches _ (fun s _ => s.correct_launches ..) _ s

/-! ## The end record (R362) -/

/-- The sill has read the page tables for an end record, where its address is canonical. -/
def State.endWalked (s : State) (x : Launch) : State :=
  if canonical x.endrec then s.sillWalked x.part x.asid (x.endrec.toNat % 2 ^ 57) else s

theorem State.endWalked_keeps (s : State) (x : Launch) :
    (s.endWalked x).mem = s.mem ∧ (s.endWalked x).threads = s.threads ∧ (s.endWalked x).launches = s.launches := by
  unfold State.endWalked; split
  · exact ⟨s.sillWalked_mem .., s.sillWalked_threads .., s.sillWalked_launches ..⟩
  · exact ⟨rfl, rfl, rfl⟩

theorem endrec_offset (x : Launch) : (bits x.endrec 0 57 : BitVec 57).toNat = x.endrec.toNat % 2 ^ 57 := by
  rw [bits_zero, BitVec.toNat_setWidth]

theorem State.writeEnd_none (s : State) {x : Launch} (h : x.endrec = 0) : s.writeEnd x = s := if_pos h

section
variable {s : State} {x : Launch} (h : x.endrec ≠ 0)
include h

/-- Its address translates: the record is stored there. -/
theorem State.writeEnd_stored {pa : Nat} (hpa : (s.endWalked x).sillAddr x.part x.asid.toNat x.endrec .store = some pa) :
    s.writeEnd x = ((s.endWalked x).hostTouch pa 16).physWrite pa x.endRecord := by
  unfold State.endWalked at hpa ⊢
  simp only [State.writeEnd, if_neg h, endrec_offset, hpa]

/-- It does not: the partition's host queue takes a record of that. -/
theorem State.writeEnd_lost (hpa : (s.endWalked x).sillAddr x.part x.asid.toNat x.endrec .store = none) :
    s.writeEnd x = (s.endWalked x).faultReport x.part 3 0 0 x.endrec x.tag := by
  unfold State.endWalked at hpa ⊢
  simp only [State.writeEnd, if_neg h, endrec_offset, hpa]

end

theorem State.writeEnd_keeps (s : State) (x : Launch) : (s.writeEnd x).threads = s.threads ∧ (s.writeEnd x).launches = s.launches := by
  obtain ⟨-, hthreads, hlaunches⟩ := s.endWalked_keeps x
  by_cases h : x.endrec = 0
  · rw [s.writeEnd_none h]; exact ⟨rfl, rfl⟩
  · cases hpa : (s.endWalked x).sillAddr x.part x.asid.toNat x.endrec .store with
    | some pa => rw [State.writeEnd_stored h hpa]; simp [hthreads, hlaunches]
    | none => rw [State.writeEnd_lost h hpa]; simp [hthreads, hlaunches]

/-! ## A partition that goes (R417) -/

@[simp] theorem State.zeroSpad_threads (s : State) (core : Nat) : (s.zeroSpad core).threads = s.threads := rfl
@[simp] theorem State.zeroSpad_launches (s : State) (core : Nat) : (s.zeroSpad core).launches = s.launches := rfl

@[simp] theorem State.zeroCourse_threads (s : State) (course : Nat) : (s.zeroCourse course).threads = s.threads :=
  foldl_unchanged State.threads _ State.zeroSpad_threads _ _

@[simp] theorem State.zeroCourse_launches (s : State) (course : Nat) : (s.zeroCourse course).launches = s.launches :=
  foldl_unchanged State.launches _ State.zeroSpad_launches _ _

theorem State.finishDelete_threads (s : State) (part : Nat) : (s.finishDelete part).threads = s.threads := by
  dsimp only [State.finishDelete]; repeat' split
  · rfl
  · rfl
  · exact foldl_unchanged State.threads _ State.zeroCourse_threads _ s

theorem State.finishDelete_launches (s : State) (part : Nat) : (s.finishDelete part).launches = s.launches := by
  dsimp only [State.finishDelete]; repeat' split
  · rfl
  · rfl
  · exact foldl_unchanged State.launches _ State.zeroCourse_launches _ s

@[simp] theorem postAll_threads (ds : List Due) (s : State) : (postAll ds s).threads = s.threads :=
  foldl_unchanged State.threads _ State.post_threads ds s

@[simp] theorem postAll_launches (ds : List Due) (s : State) : (postAll ds s).launches = s.launches :=
  foldl_unchanged State.launches _ State.post_launches ds s

/-! ## The cores that a launch gives back (R362) -/

/-- A core without its team. -/
def Core.released (c : Core) : Core :=
  { c with team := none, preempting := false, restoring := false, teamClaim := false
           tm := { c.tm with wt := [], deque := [], spilled := [] } }

theorem State.releaseCores_eq (s : State) (l : Nat) :
    s.releaseCores l = (s.launchCores l).foldl (fun s k => s.modCore k Core.released) s := rfl

/-- Giving cores back changes the cores and nothing else. -/
theorem State.releaseCores_coresOnly (s : State) (l : Nat) : ∃ cs, s.releaseCores l = { s with cores := cs } :=
  foldl_keeps (fun t => ∃ cs, t = { s with cores := cs }) _ (fun _ _ ⟨_, ht⟩ => ⟨_, by rw [ht]; rfl⟩) _ s ⟨_, rfl⟩

/-- A core that holds a team of a launch is one of the launch's. -/
theorem State.mem_launchCores {s : State} {l t k : Nat} (h : (s.core k).team = some (l, t)) : k ∈ s.launchCores l := by
  have hlisted : (k, s.core k) ∈ s.cores := Tbl.mem_of_get_ne fun hzero => by
    rw [State.core, hzero] at h; cases h
  exact List.mem_map.2 ⟨_, List.mem_filter.2 ⟨hlisted, by simp [h]⟩, rfl⟩

/-- Once its cores are given back, no core holds a team of the launch. -/
theorem State.releaseCores_team (s : State) (l k t : Nat) : ((s.releaseCores l).core k).team ≠ some (l, t) := by
  rw [State.releaseCores_eq]
  have keeps (u : State) (j : Nat) (hu : (u.core k).team ≠ some (l, t)) : ((u.modCore j Core.released).core k).team ≠ some (l, t) := by
    by_cases hj : k = j
    · subst hj; simp [Core.released]
    · rwa [State.core_modCore_ne _ _ _ hj]
  by_cases hheld : (s.core k).team = some (l, t)
  · exact foldl_reaches (fun u : State => (u.core k).team ≠ some (l, t)) _ keeps (fun u => by simp [Core.released]) _ s
      (State.mem_launchCores hheld)
  · exact foldl_keeps (fun u : State => (u.core k).team ≠ some (l, t)) _ keeps _ s hheld

/-! ## Stack segments (R241) -/

@[simp] theorem State.giveSegment_cores (s : State) (k : Nat) : (s.giveSegment k).cores = s.cores := by
  dsimp only [State.giveSegment]; repeat' split
  all_goals rfl

@[simp] theorem State.giveSegment_teams (s : State) (k : Nat) : (s.giveSegment k).teams = s.teams := by
  dsimp only [State.giveSegment]; repeat' split
  all_goals rfl

section
variable (s : State) (thr : Nat) (id : Ident) (lent : Bool) (entry : BitVec 57) (arg : Word) (asid : BitVec 12) (delay : Nat)

@[simp] theorem State.startThread_mem : (s.startThread thr id lent entry arg asid delay).mem = s.mem := State.giveSegment_mem _ thr
@[simp] theorem State.startThread_cores : (s.startThread thr id lent entry arg asid delay).cores = s.cores :=
  State.giveSegment_cores _ thr
@[simp] theorem State.startThread_teams : (s.startThread thr id lent entry arg asid delay).teams = s.teams :=
  State.giveSegment_teams _ thr

end

end Sys2Proof.Machine
end

section
/-! PROOF. Placement, quanta and the end of a launch (O52), from the choices of the scheduler and the frames above. -/

namespace Sys2Proof.Machine

/-! ## A placed team (R69, R295) -/

/-- The team holds its core, and what brings it there crosses the links; nothing of it has started or is restored yet. -/
def State.seated (s : State) (l t core : Nat) : State :=
  ((s.modTeam l t fun x => { x with state := .resident core, placedOnce := true }).modCore core fun k =>
    { k with
      team := some (l, t), quantum := 0, preempting := false, restoring := (s.teamOf l t).state == .out, teamClaim := false
      tm := if (s.teamOf l t).state == .out then k.tm else { TeamMem.zero with spad := k.tm.spad, win := k.tm.win } }).cargo
    (s.launch l).die (dieOfCore core) 2 (if (s.teamOf l t).state == .out then 192 else 0)

/-- A team that was out is restored. -/
theorem State.placeTeam_out {s : State} {l t : Nat} (core : Nat) (h : (s.teamOf l t).state = .out) :
    s.placeTeam l t core = ((s.seated l t core).post (.swapIn core)).post (.contextClaim core) := by
  have hout : ((s.teamOf l t).state == .out) = true := beq_iff_eq.2 h
  simp only [State.placeTeam, State.seated, hout, if_true]

/-- Another starts at its launch's entry with its argument. -/
theorem State.placeTeam_new {s : State} {l t : Nat} (core : Nat) (h : (s.teamOf l t).state ≠ .out) :
    s.placeTeam l t core = (((s.seated l t core).noteHome l t core).startThread (16 * core) ⟨l, t, 0⟩ false (s.launch l).entry
      (s.teamOf l t).arg (s.launch l).asid 2).post (.contextClaim core) := by
  have hout : ((s.teamOf l t).state == .out) = false := beq_eq_false_iff_ne.2 h
  simp only [State.placeTeam, State.seated, hout, Bool.false_eq_true, if_false]

section
variable (s : State) (l t core : Nat)

@[simp] theorem State.seated_mem : (s.seated l t core).mem = s.mem := State.cargo_mem ..
@[simp] theorem State.seated_threads : (s.seated l t core).threads = s.threads := State.cargo_threads ..
@[simp] theorem State.noteHome_mem : (s.noteHome l t core).mem = s.mem := rfl
@[simp] theorem State.noteHome_threads : (s.noteHome l t core).threads = s.threads := rfl
@[simp] theorem State.noteHome_cores : (s.noteHome l t core).cores = s.cores := rfl
@[simp] theorem State.noteHome_teams : (s.noteHome l t core).teams = s.teams := rfl

theorem State.teamOf_seated : (s.seated l t core).teamOf l t =
    { s.teamOf l t with state := .resident core, placedOnce := true } := by
  simp only [State.teamOf, State.seated, State.cargo_teams, State.modCore_teams, State.modTeam, Tbl.get_set_self]

theorem State.core_seated : (s.seated l t core).core core = { s.core core with
    team := some (l, t), quantum := 0, preempting := false, restoring := (s.teamOf l t).state == .out, teamClaim := false
    tm := if (s.teamOf l t).state == .out then (s.core core).tm
      else { TeamMem.zero with spad := (s.core core).tm.spad, win := (s.core core).tm.win } } := by
  simp only [State.core, State.seated, State.cargo_cores]
  exact State.core_modCore_self ..

/-- What starts or is restored changes neither memory nor cores nor teams further. -/
theorem State.placeTeam_seated : (s.placeTeam l t core).mem = s.mem ∧ (s.placeTeam l t core).cores = (s.seated l t core).cores ∧
    (s.placeTeam l t core).teams = (s.seated l t core).teams := by
  by_cases h : (s.teamOf l t).state = .out
  · rw [State.placeTeam_out core h]; simp
  · rw [State.placeTeam_new core h]; simp

theorem State.teamOf_placeTeam : (s.placeTeam l t core).teamOf l t = (s.seated l t core).teamOf l t :=
  congrArg (Tbl.get Team.zero · (teamKey l t)) (s.placeTeam_seated l t core).2.2

theorem State.core_placeTeam : (s.placeTeam l t core).core core = (s.seated l t core).core core :=
  congrArg (Tbl.get Core.zero · core) (s.placeTeam_seated l t core).2.1

theorem State.contextClaim_mem_placeTeam : .contextClaim core ∈ (s.placeTeam l t core).agenda := by
  by_cases h : (s.teamOf l t).state = .out
  · rw [State.placeTeam_out core h]; simp
  · rw [State.placeTeam_new core h]; simp

end

/-! ## The end of a launch (R362) -/

/-- Nothing of a team is left. -/
theorem State.teamOver_iff (s : State) (l k : Nat) : s.teamOver l k = true ↔ ((s.teamOf l k).state ≠ .killed →
    (s.teamOf l k).state ≠ .waiting ∧ (s.teamOf l k).ctxs = [] ∧ (s.teamOf l k).queue = [] ∧ (s.teamOf l k).image.conts = [] ∧
    (∀ e ∈ (s.teamOf l k).image.wt, e.2.state ≠ .fired) ∧
    ∀ c, (s.teamOf l k).state = .resident c → (s.core c).tm.conts = [] ∧ ∀ e ∈ (s.core c).tm.wt, e.2.state ≠ .fired) := by
  cases hstate : (s.teamOf l k).state <;> simp [State.teamOver, State.firedEntry, hstate, and_assoc]

/-- Nothing of a launch is left. -/
theorem State.launchOver_iff (s : State) (l : Nat) : s.launchOver l = true ↔ (s.launch l).live = true ∧
    (∀ x ∈ s.threads, x.2.live = true → x.2.ident.launch ≠ l) ∧ (∀ k ∈ s.cores, ∀ a ∈ k.2.arrivals, a.ctx.ident.launch ≠ l) ∧
    (∀ p ∈ s.suspended, p.ident.launch ≠ l) ∧ (∀ x ∈ s.allTokens, x.2.ident.launch = l → x.2.state.live = false) ∧
    ∀ k, k < (s.launch l).n → s.teamOver l k = true := by
  simp only [State.launchOver, Bool.and_eq_true, Bool.not_eq_true', List.any_eq_false, List.all_eq_true, List.mem_range,
    List.any_eq_true, beq_iff_eq, and_assoc, not_exists, not_and, Bool.not_eq_true, ne_eq]
  rw [and_comm (b := ∀ x ∈ s.allTokens, _)]

/-- Every team of a launch has ended. -/
def State.endTeams (s : State) (l n : Nat) : State :=
  (List.range n).foldl (fun s k => s.modTeam l k fun t =>
    { Team.zero with state := if t.state = .killed then .killed else .ended }) s

theorem State.endTeams_teamsOnly (s : State) (l n : Nat) : ∃ ts, s.endTeams l n = { s with teams := ts } :=
  foldl_keeps (fun t => ∃ ts, t = { s with teams := ts }) _ (fun _ _ ⟨_, ht⟩ => ⟨_, by rw [ht]; rfl⟩) _ s ⟨_, rfl⟩

/-- The launch holds nothing any more; its end record is still to be written. -/
def State.closeLaunch (s : State) (l : Nat) : State :=
  (((((s.releaseCores l).clearLaunch l).mapTokens fun t => t.leave l).endTeams l (s.launch l).n).modLaunch l fun y =>
    { y with live := false })

theorem exec_launchEnd_early {s : State} {l : Nat} (h : s.launchOver l = false) : exec (.launchEnd l) s = .next s := by
  show execLaunchEnd l s = _
  simp [execLaunchEnd, h]

theorem exec_launchEnd_over {s : State} {l : Nat} (h : s.launchOver l = true) :
    exec (.launchEnd l) s = .next (((postAll ((List.range 8).map (.packet (s.launch l).part))
      ((s.closeLaunch l).writeEnd (s.launch l))).post (.placement (s.launch l).part)).finishDelete (s.launch l).part) := by
  show execLaunchEnd l s = _
  simp only [execLaunchEnd, h, Bool.not_true, Bool.false_eq_true, if_false]
  rfl

/-- What a closed launch leaves, and what it leaves alone. -/
theorem State.closeLaunch_spec (s : State) (l : Nat) :
    ((s.closeLaunch l).launch l).live = false ∧ (s.closeLaunch l).mem = s.mem ∧ (s.closeLaunch l).threads = s.threads ∧
    (∀ g ∈ (s.closeLaunch l).groups, ¬ (g.2.part = (s.launch l).part ∧ g.2.launch = l)) ∧
    (∀ r ∈ (s.closeLaunch l).colls, r.launch ≠ l) ∧ (∀ k t, ((s.closeLaunch l).core k).team ≠ some (l, t)) := by
  have hteam := s.releaseCores_team l
  obtain ⟨cs, hcores⟩ := s.releaseCores_coresOnly l
  obtain ⟨ts, hteams⟩ := (((s.releaseCores l).clearLaunch l).mapTokens fun t => t.leave l).endTeams_teamsOnly l (s.launch l).n
  have hlive : ((s.closeLaunch l).launch l).live = false := by rw [State.closeLaunch, State.launch_modLaunch_self]
  rw [hcores] at hteam
  refine ⟨hlive, ?_⟩
  rw [State.closeLaunch, hteams, hcores]
  refine ⟨rfl, rfl, ?_, ?_, hteam⟩
  · rintro g hg ⟨hpart, hlaunch⟩
    have hkept : (!(g.2.part == (s.launch l).part && g.2.launch == l)) = true := (List.mem_filter.1 hg).2
    simp [hpart, hlaunch] at hkept
  · intro r hr
    simpa using (List.mem_filter.1 hr).2

theorem exec_launchEnd_ends {s : State} {l : Nat} (h : s.launchOver l = true) :
    ∃ t : State, exec (.launchEnd l) s = .next t ∧ (t.launch l).live = false ∧ t.threads = s.threads := by
  obtain ⟨hlive, -, hthreads, -⟩ := s.closeLaunch_spec l
  obtain ⟨hendThreads, hendLaunches⟩ := (s.closeLaunch l).writeEnd_keeps (s.launch l)
  refine ⟨_, exec_launchEnd_over h, ?_, ?_⟩
  · rwa [State.launch, State.finishDelete_launches, State.post_launches, postAll_launches, hendLaunches]
  · rw [State.finishDelete_threads, State.post_threads, postAll_threads, hendThreads, hthreads]

/-! ## The statement -/

/-- Settles O52: the choices by their least keys (`foldl_better_least`), the end of a launch by `State.closeLaunch_spec`, a placed team by
`State.seated`. -/
theorem placement : Obligations.Placement := by
  unfold Obligations.Placement
  intro s part core l
  refine ⟨exec_teamPlacement_none, ?placed, ⟨State.displaceFor_served, ?displaced⟩, ?quantum, exec_launchEnd_early, exec_launchEnd_ends,
    fun hover => ⟨s.closeLaunch l, exec_launchEnd_over hover, s.closeLaunch_spec l⟩, ?endRecord, ?nothingLeft, ?seated⟩
  case placed =>
    exact fun w hw => ⟨firstWaiting_least hw, fun k hk => ⟨exec_teamPlacement_placed hw hk, State.pickCore_nearest hk⟩,
      exec_teamPlacement_full hw⟩
  case displaced =>
    intro w rest hqueue
    refine ⟨fun hnone => ?_, fun ⟨x, hx⟩ => ?_⟩
    · exact State.displaceFor_none_yields hqueue (List.eq_nil_iff_forall_not_mem.2 fun x hx => hnone x (State.mem_yielding.1 hx))
    · obtain ⟨k, hk, hfirst, heq⟩ := State.displaceFor_yields hqueue (List.ne_nil_of_mem (State.mem_yielding.2 hx))
      exact ⟨k, State.mem_yielding.1 hk, fun y hy => hfirst y (State.mem_yielding.2 hy), heq⟩
  case quantum =>
    intro t hteam
    refine ⟨exec_quantumExpiry_early hteam, fun hover => ⟨fun hgives => ?_, fun hsame hhigher => ?_⟩⟩
    · exact exec_quantumExpiry_preempts hteam hover ((s.mustYield_iff l).2 hgives)
    · refine exec_quantumExpiry_restarts hteam hover fun hyield => ?_
      rcases (s.mustYield_iff l).1 hyield with ⟨w, hw, hprio⟩ | ⟨w, hw, hprio⟩
      · exact hsame w hw hprio
      · exact Nat.not_lt.2 (hhigher w hw) hprio
  case endRecord =>
    intro x
    obtain ⟨hmem, hthreads, -⟩ := s.endWalked_keeps x
    exact ⟨⟨hmem, hthreads⟩, s.writeEnd_none, fun h pa hpa => State.writeEnd_stored h hpa, fun h hpa => State.writeEnd_lost h hpa⟩
  case nothingLeft => simp only [State.launchOver_iff, State.teamOver_iff]
  case seated =>
    intro t
    dsimp only
    rw [State.teamOf_placeTeam, State.core_placeTeam, State.teamOf_seated, State.core_seated]
    refine ⟨(s.placeTeam_seated l t core).1, rfl, rfl, rfl, rfl, rfl, beq_iff_eq, s.contextClaim_mem_placeTeam l t core,
      fun hout => ?_, fun hnew => ?_⟩
    · rw [State.placeTeam_out core hout]
      simp
    · exact ⟨(s.seated l t core).noteHome l t core, State.placeTeam_new core hnew, s.seated_threads l t core, s.seated_mem l t core⟩

end Sys2Proof.Machine
end

section
/-! PROOF. The special values of the floating-point operations, and that a number of a format rounds to itself (O18). -/

namespace Sys2Proof.Machine

/-! ## The formats of R88 -/

/-- What R93 gives a binary format with infinities and NaNs: its largest finite magnitude lies just below them. -/
structure Fmt.Binary (F : Fmt) : Prop where
  ieee : F.ieee = true
  frac : 1 < F.p
  exp : F.p < F.width
  top : F.maxMag + 1 = (2 ^ (F.width - F.p) - 1) * 2 ^ (F.p - 1)

theorem fmtOf_cases (ty : BitVec 2) : fmtOf ty = .f64 ∨ fmtOf ty = .f32 ∨ fmtOf ty = .f16 ∨ fmtOf ty = .bf16 := by
  revert ty; decide

theorem fmtOf_binary (ty : BitVec 2) : (fmtOf ty).Binary := by
  rcases fmtOf_cases ty with h | h | h | h <;> rw [h] <;> exact ⟨rfl, by decide, by decide, by decide⟩

theorem fmtOf_wide (ty : BitVec 2) : 8 < (fmtOf ty).width := by revert ty; decide

/-! ## NaN operands (R94) -/

theorem FVal.snan_of_not_nan {a : FVal} (h : a.isNan = false) : a.snan = false := by
  cases a with
  | nan => cases h
  | inf => rfl
  | fin => rfl

theorem firstNan_none (F : Fmt) {a b : FVal} (ha : a.isNan = false) (hb : b.isNan = false) : firstNan F [a, b] = none := by
  cases a with
  | nan => cases ha
  | inf | fin =>
    cases b with
    | nan => cases hb
    | inf | fin => rfl

section
variable (F : Fmt) (n q : Bool) (fr fb : Nat) {b : FVal} (hb : b.isNan = false)
include hb

theorem firstNan_left : firstNan F [.nan n q fr fb, b] = some (nanTo F n fr fb, if q then 0 else fNV) := by
  cases b with
  | nan => cases hb
  | inf | fin => cases q <;> rfl

theorem firstNan_right : firstNan F [b, .nan n q fr fb] = some (nanTo F n fr fb, if q then 0 else fNV) := by
  cases b with
  | nan => cases hb
  | inf | fin => cases q <;> rfl

end

section
variable {F : Fmt} {a b : FVal} {r : Nat × BitVec 4} (h : firstNan F [a, b] = some r) (m : Mode) (sat : Bool)
include h

theorem addV_nan : addV F m sat a b = r := by simp only [addV, h]
theorem mulV_nan : mulV F m sat a b = r := by simp only [mulV, h]
theorem divV_nan : divV F m a b = r := by simp only [divV, h]

end

/-- In a format wider than 8 bits a NaN of its own keeps sign and fraction and turns quiet. -/
theorem nanTo_own {F : Fmt} (h : 8 < F.width) (n : Bool) (fr : Nat) : nanTo F n fr (F.p - 1) =
    (if n then F.signBit else 0) + ((2 ^ (F.width - F.p) - 1) * 2 ^ (F.p - 1) + (fr ||| 2 ^ (F.p - 1 - 1))) := by
  simp [nanTo, Nat.not_le.2 h]

/-! ## Infinities and zeros (R94, R131) -/

section
variable (F : Fmt) (m : Mode) (sat n1 n2 : Bool) (mm : Nat) (e e1 e2 : Int)

theorem divV_by_zero (h : mm ≠ 0) : divV F m (.fin n1 mm e1) (.fin n2 0 e2) = infOf F (n1 != n2) := if_neg h
theorem divV_zero_zero : divV F m (.fin n1 0 e1) (.fin n2 0 e2) = (F.nanMag, fNV) := rfl
theorem divV_inf_inf : divV F m (.inf n1) (.inf n2) = (F.nanMag, fNV) := rfl
theorem addV_inf_opposite : addV F m sat (.inf n1) (.inf !n1) = (F.nanMag, fNV) := if_neg (by cases n1 <;> decide)
theorem mulV_zero_inf : mulV F m sat (.fin n1 0 e1) (.inf n2) = (F.nanMag, fNV) := rfl
theorem sqrtV_negZero : sqrtV F m (.fin true 0 e) = (F.signBit, 0) := rfl
theorem sqrtV_negative (h : mm ≠ 0) : sqrtV F m (.fin true mm e) = (F.nanMag, fNV) := if_neg h
theorem sqrtV_negInf : sqrtV F m (.inf true) = (F.nanMag, fNV) := rfl

end

/-! ## A sum in either order -/

theorem Dy.add_comm (a b : Dy) : a.add b = b.add a := by
  unfold Dy.add
  rcases Int.lt_trichotomy a.e b.e with h | h | h
  · rw [if_pos (Int.le_of_lt h), if_neg (Int.not_le.2 h), Int.add_comm]
  · simp [h, Int.add_comm]
  · rw [if_neg (Int.not_le.2 h), if_pos (Int.le_of_lt h), Int.add_comm]

theorem addV_fin (F : Fmt) (m : Mode) (sat na nb : Bool) (ma mb : Nat) (ea eb : Int) :
    addV F m sat (.fin na ma ea) (.fin nb mb eb) =
      roundDy F m sat (zeroSumNeg m (FVal.negZero (.fin na ma ea) && FVal.negZero (.fin nb mb eb)))
        ((Dy.of na ma ea).add (Dy.of nb mb eb)) := rfl

theorem addV_comm_of_not_nan (F : Fmt) (m : Mode) (sat : Bool) {a b : FVal} (ha : a.isNan = false) (hb : b.isNan = false) :
    addV F m sat a b = addV F m sat b a := by
  cases a with
  | nan => cases ha
  | inf na =>
    cases b with
    | nan => cases hb
    | inf nb => cases na <;> cases nb <;> rfl
    | fin => rfl
  | fin na ma ea =>
    cases b with
    | nan => cases hb
    | inf => rfl
    | fin nb mb eb => rw [addV_fin, addV_fin, Dy.add_comm, Bool.and_comm]

/-- Only where both operands are NaNs does the first one decide (R94). -/
theorem addV_comm (F : Fmt) (m : Mode) (sat : Bool) {a b : FVal} (h : (a.isNan && b.isNan) = false) :
    addV F m sat a b = addV F m sat b a := by
  cases ha : a.isNan
  · cases hb : b.isNan
    · exact addV_comm_of_not_nan F m sat ha hb
    · cases b with
      | nan n q fr fb => rw [addV_nan (firstNan_right F n q fr fb ha), addV_nan (firstNan_left F n q fr fb ha)]
      | inf | fin => cases hb
  · have hb : b.isNan = false := by simpa [ha] using h
    cases a with
    | nan n q fr fb => rw [addV_nan (firstNan_left F n q fr fb hb), addV_nan (firstNan_right F n q fr fb hb)]
    | inf | fin => cases ha

/-! ## A number of the format rounds to itself (R95, R97) -/

theorem roundShift_exact (mode : Mode) (neg : Bool) (m : Nat) : roundShift mode neg m 0 false = (m, false) := by
  cases mode <;> simp [roundShift, Nat.mod_one]

/-- A significand whose last place is the last place of the format stays. -/
theorem roundSig_exact {p : Nat} {lo e : Int} {m : Nat} (mode : Mode) (neg : Bool)
    (h : max ((Nat.log2 m : Int) + e) lo - p + 1 = e) : roundSig p (some lo) mode neg m e false = (m, e, false) := by
  simp only [roundSig, h, Int.le_refl, if_true, Int.sub_self, Int.toNat_zero, Nat.pow_zero, Nat.mul_one, roundShift_exact]

theorem encodeMag_subnormal {F : Fmt} {n : Nat} (h : n < 2 ^ (F.p - 1)) (qe : Int) : encodeMag F n qe = n := if_pos h

theorem encodeMag_normal {F : Fmt} {n : Nat} (hlo : 2 ^ (F.p - 1) ≤ n) (hhi : n < 2 ^ F.p) (qe : Int) :
    encodeMag F n qe = (qe - (F.emin - F.p + 1)).toNat * 2 ^ (F.p - 1) + n :=
  (if_neg (Nat.not_lt.2 hlo)).trans (if_neg (Nat.ne_of_lt hhi))

theorem roundFmt_zero (F : Fmt) (mode : Mode) (sat neg : Bool) (e : Int) :
    roundFmt F mode sat neg 0 e false = (if neg then F.signBit else 0, 0) := rfl

theorem roundFmt_exact {F : Fmt} {m mag : Nat} {e : Int} (mode : Mode) (sat neg : Bool) (hm : m ≠ 0)
    (hlast : max ((Nat.log2 m : Int) + e) F.emin - F.p + 1 = e) (hmag : encodeMag F m e = mag) (hmax : mag ≤ F.maxMag) :
    roundFmt F mode sat neg m e false = ((if neg then F.signBit else 0) + mag, 0) := by
  simp [roundFmt, hm, roundSig_exact mode neg hlast, hmag, Nat.not_lt.2 hmax]

/-- A pattern of the format is its sign and its magnitude. -/
theorem Fmt.pattern_split {F : Fmt} {x : Nat} (hw : 0 < F.width) (hx : x < 2 ^ F.width) :
    x = (if x / F.signBit % 2 == 1 then F.signBit else 0) + x % F.signBit := by
  have hdiv : x / F.signBit < 2 := Nat.div_lt_of_lt_mul (by
    rwa [Fmt.signBit, Nat.two_pow_pred_mul_two hw])
  have hsplit := Nat.div_add_mod x F.signBit
  rcases Nat.le_one_iff_eq_zero_or_eq_one.1 (Nat.le_of_lt_succ hdiv) with h | h
  · rw [h] at hsplit ⊢; simpa using hsplit.symm
  · rw [h] at hsplit ⊢; simpa using hsplit.symm

/-- What a finite pattern is (R93): subnormal, its magnitude the significand, or normal, with a leading one above its fraction; its
exponent field is not all ones. -/
theorem decodeF_fin {F : Fmt} (hF : F.Binary) {x m : Nat} {neg : Bool} {e : Int} (h : decodeF F x = .fin neg m e) :
    let mb := F.p - 1
    let mag := x % F.signBit
    neg = (x / F.signBit % 2 == 1) ∧ mag / 2 ^ mb ≠ 2 ^ (F.width - F.p) - 1 ∧
    ((mag = m ∧ m < 2 ^ mb ∧ e = F.emin - mb) ∨
     (0 < mag / 2 ^ mb ∧ m = 2 ^ mb + mag % 2 ^ mb ∧ e = F.emin - mb + (mag / 2 ^ mb - 1 : Nat))) := by
  intro mb mag
  simp only [decodeF, hF.ieee, true_and] at h
  split at h
  · split at h <;> cases h
  next hex =>
  simp only [Bool.true_eq_false, false_and, if_false] at h
  split at h
  next h0 =>
    obtain ⟨rfl, rfl, rfl⟩ := FVal.fin.inj h
    have hlt : mag < 2 ^ mb := (Nat.div_eq_zero_iff.1 h0).resolve_left (Nat.ne_of_gt (Nat.two_pow_pos _))
    exact ⟨rfl, hex, .inl ⟨(Nat.mod_eq_of_lt hlt).symm, Nat.mod_lt _ (Nat.two_pow_pos _), rfl⟩⟩
  next h0 =>
    obtain ⟨rfl, rfl, rfl⟩ := FVal.fin.inj h
    exact ⟨rfl, hex, .inr ⟨Nat.pos_of_ne_zero h0, rfl, rfl⟩⟩

/-- A magnitude whose exponent field is not all ones is finite. -/
theorem Fmt.Binary.mag_le_max {F : Fmt} (hF : F.Binary) {mag : Nat} (hmag : mag < F.signBit)
    (hex : mag / 2 ^ (F.p - 1) ≠ 2 ^ (F.width - F.p) - 1) : mag ≤ F.maxMag := by
  have hbits : F.signBit = 2 ^ (F.p - 1) * 2 ^ (F.width - F.p) := by
    have := hF.frac; have := hF.exp
    rw [Fmt.signBit, ← Nat.pow_add]; congr 1; omega
  have hfield : mag / 2 ^ (F.p - 1) < 2 ^ (F.width - F.p) := Nat.div_lt_of_lt_mul (hbits ▸ hmag)
  have hlt : mag < (2 ^ (F.width - F.p) - 1) * 2 ^ (F.p - 1) := (Nat.div_lt_iff_lt_mul (Nat.two_pow_pos _)).1 (by omega)
  have := hF.top
  omega

/-- The significand of a normal number has its leading one at the top. -/
theorem log2_leading_one {k f : Nat} (h : f < 2 ^ k) : Nat.log2 (2 ^ k + f) = k := by
  have hpos := Nat.two_pow_pos k
  rw [Nat.log2_eq_iff (by omega), Nat.pow_succ]
  omega

theorem roundFmt_decodeF {F : Fmt} (hF : F.Binary) {x m : Nat} {neg : Bool} {e : Int} (mode : Mode) (sat : Bool)
    (hx : x < 2 ^ F.width) (h : decodeF F x = .fin neg m e) : roundFmt F mode sat neg m e false = (x, 0) := by
  obtain ⟨hneg, hex, hcase⟩ := decodeF_fin hF h
  have hp := hF.frac
  have hsplit := Fmt.pattern_split (Nat.zero_lt_of_lt hF.exp) hx
  rw [← hneg] at hsplit
  have hmax := hF.mag_le_max (Nat.mod_lt x (Nat.two_pow_pos _)) hex
  rw [show (x, (0 : BitVec 4)) = ((if neg then F.signBit else 0) + x % F.signBit, 0) by rw [← hsplit]]
  rcases hcase with ⟨hmag, hm, rfl⟩ | ⟨hpos, rfl, rfl⟩
  · rw [hmag] at hmax ⊢
    by_cases h0 : m = 0
    · subst h0; rfl
    · have hlog : Nat.log2 m < F.p - 1 := (Nat.log2_lt h0).2 hm
      exact roundFmt_exact mode sat neg h0 (by omega) (encodeMag_subnormal hm _) hmax
  · have hf : x % F.signBit % 2 ^ (F.p - 1) < 2 ^ (F.p - 1) := Nat.mod_lt _ (Nat.two_pow_pos _)
    have htop : 2 ^ F.p = 2 * 2 ^ (F.p - 1) := by rw [← Nat.pow_succ']; congr 1; omega
    have hone := Nat.two_pow_pos (F.p - 1)
    refine roundFmt_exact mode sat neg (by omega) ?_ ((encodeMag_normal (Nat.le_add_right ..) (by omega) _).trans ?_) hmax
    · rw [log2_leading_one hf]; omega
    · rw [show (F.emin - (F.p - 1 : Nat) + (x % F.signBit / 2 ^ (F.p - 1) - 1 : Nat) - (F.emin - F.p + 1) : Int).toNat =
          x % F.signBit / 2 ^ (F.p - 1) - 1 by omega, ← Nat.add_assoc, ← Nat.succ_mul, Nat.succ_eq_add_one, Nat.sub_add_cancel hpos]
      exact Nat.div_add_mod' ..

/-- Settles O18: NaNs by what `firstNan` answers, each special value by the branch that gives it, exactness by
`roundFmt_decodeF`. -/
theorem floatSpecials : Obligations.FloatSpecials := by
  unfold Obligations.FloatSpecials
  refine ⟨fun ty m sat n1 n2 q fr mm e1 e2 b => ⟨fun _ _ hb => ?_, divV_by_zero _ m n1 n2 mm e1 e2, divV_zero_zero _ m n1 n2 e1 e2,
      divV_inf_inf _ m n1 n2, addV_inf_opposite _ m sat n1, mulV_zero_inf _ m sat n1 n2 e1, sqrtV_negZero _ m e1,
      sqrtV_negative _ m mm e1, sqrtV_negInf _ m⟩,
    fun F m sat a b => addV_comm F m sat, fun ty m sat neg x mm e => roundFmt_decodeF (fmtOf_binary ty) m sat⟩
  have hnan := firstNan_left (fmtOf ty) n1 q fr ((fmtOf ty).p - 1) hb
  have hnan' := firstNan_right (fmtOf ty) n1 q fr ((fmtOf ty).p - 1) hb
  rw [addV_nan hnan, addV_nan hnan', mulV_nan hnan, divV_nan hnan, nanTo_own (fmtOf_wide ty)]
  exact ⟨rfl, rfl, rfl, rfl, rfl, rfl, rfl⟩

end Sys2Proof.Machine
end

section
/-! PROOF. Branches, jumps, calls, `nop`, `brk`, `halt` and `yield` (O19), with what a yield does to lanes and to the context. -/

namespace Sys2Proof.Machine

/-! ## Reading sources leaves the contexts alone -/

@[simp] theorem State.consume1_threads (s : State) (k : Nat) (c : BitVec 5) : (s.consume1 k c).threads = s.threads := by
  unfold State.consume1 State.consumeAt; repeat' split
  all_goals rfl

@[simp] theorem State.consume1_cur (s : State) (k : Nat) (c : BitVec 5) : (s.consume1 k c).cur = s.cur := by
  unfold State.consume1 State.consumeAt; repeat' split
  all_goals rfl

@[simp] theorem State.consume_threads (s : State) (k : Nat) (cs : List (BitVec 5)) : (s.consume k cs).threads = s.threads :=
  foldl_unchanged State.threads _ (fun s c => s.consume1_threads k c) _ s

@[simp] theorem State.consume_cur (s : State) (k : Nat) (cs : List (BitVec 5)) : (s.consume k cs).cur = s.cur :=
  foldl_unchanged State.cur _ (fun s c => s.consume1_cur k c) _ s

@[simp] theorem State.consume_me (s : State) (k : Nat) (cs : List (BitVec 5)) : (s.consume k cs).me = s.me := by
  simp only [State.me, State.ctx, State.consume_threads, State.consume_cur]

@[simp] theorem State.pc_issued (s : State) (half : Bool) : (s.issued half).me.pc = s.me.pc := by rw [State.me_issued]

/-! ## Branches (R87, R132) -/

theorem not_slt_eq_decide (x y : Word) : (!x.slt y) = decide (y.toInt ≤ x.toInt) := by
  simp [BitVec.slt, ← decide_not]

theorem not_ult_eq_decide (x y : Word) : (!x.ult y) = decide (y.toNat ≤ x.toNat) := by
  simp [BitVec.ult, ← decide_not]

section
variable {s : State} {a b : BitVec 5} {disp : BitVec 11} {x y : Word} (hm : MayIssue s 0 [.src 1 a, .src 2 b])
  (hx : rd s a = .ok x) (hy : rd s b = .ok y)
include hm hx hy

theorem branch_mayIssue (cond : Word → Word → Bool) {taken : Bool} (ht : cond x y = taken) :
    branch cond a b disp s = .next (if taken
      then ((s.issued false).consume s.cur [a, b]).modCtx s.cur fun c => { c with pc := s.me.pc + 2 * disp.signExtend 57 }
      else finishNo (s.issued false) [a, b]) :=
  issue_next hm (by
    simp only [rd_issued, hx, hy, Stop.ok_bind, ht, State.issued_cur, State.goto, dispTarget, State.pc_issued]
    rfl)

end

/-! ## Jumps and calls (R133, R134) -/

/-- The link of an issued instruction is the canonical form of the address after it (log entry 8). -/
theorem Ctx.link_issued (s : State) (half : Bool) :
    (s.issued half).me.link = ((s.me.pc + (if half then 2 else 4) : BitVec 57).signExtend 64) := by
  rw [State.me_issued]; rfl

/-- The running thread's g15 takes the address after an instruction of the given length. -/
def State.linked (u s : State) (half : Bool) : State :=
  u.modMe fun c => c.setG 15 ((s.me.pc + (if half then 2 else 4) : BitVec 57).signExtend 64)

theorem State.modMe_link {u s : State} {half : Bool} (h : u.me = (s.issued half).me) :
    u.modMe (fun c => c.setG 15 c.link) = u.linked s half := by
  have hlink : u.me.link = _ := (congrArg Ctx.link h).trans (Ctx.link_issued s half)
  exact congrArg (fun v => u.setCtx u.cur (u.me.setG 15 v)) hlink

theorem jump_mayIssue {n : Nat} {s : State} (half link : Bool) (disp : BitVec n) (hm : MayIssue s 0 []) :
    jump half link disp s = .next ((if link then (s.issued half).linked s half else s.issued half).modCtx s.cur
      fun c => { c with pc := s.me.pc + 2 * disp.signExtend 57 }) :=
  issue_next hm (by
    simp only [State.modMe_link rfl, State.issued_cur, State.goto, dispTarget, State.pc_issued])

section
variable {s : State} {a : BitVec 5} {t : Word} (half link : Bool) (hm : MayIssue s 0 [.src 1 a]) (ht : rd s a = .ok t)
include hm ht

theorem jumpReg_lands (heven : t.getLsbD 0 = false) (hcanon : canonical t = true) :
    jumpReg half link a s = .next ((if link then ((s.issued half).consume s.cur [a]).linked s half
      else (s.issued half).consume s.cur [a]).modCtx s.cur fun c => { c with pc := t.extractLsb' 0 57 }) :=
  issue_next hm (by
    have hok : checkTarget t = .ok () := by simp only [checkTarget, heven, hcanon, Bool.not_false, need_pass, Stop.ok_bind]
    simp only [rd_issued, ht, Stop.ok_bind, hok, State.issued_cur, State.modMe_link (State.consume_me ..), State.goto]
    rfl)

theorem jumpReg_odd (hodd : t.getLsbD 0 = true) :
    jumpReg half link a s = .next ((s.issued half).trapAt s.cur .align 3 t) :=
  issue_trap hm (by
    simp only [rd_issued, ht, Stop.ok_bind, checkTarget, hodd, Bool.not_true, need_fail, Stop.error_bind])

theorem jumpReg_noncanonical (heven : t.getLsbD 0 = false) (hcanon : canonical t = false) :
    jumpReg half link a s = .next ((s.issued half).trapAt s.cur .addr 3 t) :=
  issue_trap hm (by
    simp only [rd_issued, ht, Stop.ok_bind, checkTarget, heven, hcanon, Bool.not_false, need_pass, need_fail, Stop.error_bind])

end

/-- A form of a transfer through register a, with whether it is 16 bits long and whether it links, is the one body `jumpReg`. -/
theorem jumpReg_forms (a : BitVec 5) (s : State) :
    ∀ i ∈ ([(.jr a, false, false), (.callr a, false, true)] ++
        (if a = 15 then [(.ret, false, false), (.ret_16, true, false)] else []) : List (Instr × Bool × Bool)),
      exec i.1 s = jumpReg i.2.1 i.2.2 a s := by
  refine List.forall_mem_append.2 ⟨?_, ?_⟩
  · simp only [List.forall_mem_cons]
    exact ⟨rfl, rfl, List.forall_mem_nil _⟩
  · split
    · next h =>
      subst h
      simp only [List.forall_mem_cons]
      exact ⟨rfl, rfl, List.forall_mem_nil _⟩
    · exact List.forall_mem_nil _

/-! ## What a yield does to its thread's lanes (R171) -/

section
variable {u : State} {thr : Nat}

theorem State.yieldLanes_det (h : stDet (u.ctx thr).status = true) : u.yieldLanes thr = u := if_pos h

variable (hfree : stDet (u.ctx thr).status = false)
include hfree

theorem State.yieldLanes_short (h : (u.ctx thr).grant < (u.ctx thr).want) :
    u.yieldLanes thr = u.setCtx thr { u.ctx thr with
      grant := min (u.ctx thr).want ((u.ctx thr).grant + u.openLanes (courseOf thr)) } := by
  simp only [State.yieldLanes, hfree, Bool.false_eq_true, if_false, if_pos h]

variable (hfull : (u.ctx thr).want ≤ (u.ctx thr).grant)
include hfull

theorem State.yieldLanes_gives (h : ∃ x ∈ u.laneHolders (courseOf thr), x.1 < x.2) :
    u.yieldLanes thr = (u.setCtx thr { u.ctx thr with
      grant := min (u.ctx thr).grant (16 * (16 / ((u.laneHolders (courseOf thr)).filter fun x => 0 < x.2).length)) }).post
        (.claimGrant (courseOf thr)) := by
  have hany : (u.laneHolders (courseOf thr)).any (fun x => x.1 < x.2) = true := by simpa using h
  simp only [State.yieldLanes, hfree, Bool.false_eq_true, if_false, if_neg (Nat.not_lt.2 hfull), hany, if_true]

theorem State.yieldLanes_keeps (h : ∀ x ∈ u.laneHolders (courseOf thr), x.2 ≤ x.1) : u.yieldLanes thr = u := by
  have hany : (u.laneHolders (courseOf thr)).any (fun x => x.1 < x.2) = false := by simpa using h
  simp only [State.yieldLanes, hfree, Bool.false_eq_true, if_false, if_neg (Nat.not_lt.2 hfull), hany]

end

/-! ## Two writes to one entry of a table -/

theorem Tbl.erase_erase {α : Type} (t : Tbl α) (k : Nat) : Tbl.erase (Tbl.erase t k) k = Tbl.erase t k := by
  induction t with
  | nil => rfl
  | cons p t ih =>
    obtain ⟨j, x⟩ := p
    by_cases h : j = k <;> simp [Tbl.erase, h, ih]

theorem Tbl.erase_put {α : Type} (t : Tbl α) (k : Nat) (v : α) : Tbl.erase (Tbl.put t k v) k = Tbl.erase t k := by
  induction t with
  | nil => simp [Tbl.put, Tbl.erase]
  | cons p t ih =>
    obtain ⟨j, x⟩ := p
    by_cases hj : j = k
    · simp [Tbl.put, Tbl.erase, hj]
    · by_cases hk : k < j <;> simp [Tbl.put, Tbl.erase, hj, hk, ih]

theorem Tbl.put_put {α : Type} (t : Tbl α) (k : Nat) (v w : α) : Tbl.put (Tbl.put t k v) k w = Tbl.put t k w := by
  induction t with
  | nil => simp [Tbl.put]
  | cons p t ih =>
    obtain ⟨j, x⟩ := p
    by_cases hj : j = k
    · simp [Tbl.put, hj]
    · by_cases hk : k < j <;> simp [Tbl.put, hj, hk, ih]

/-- The second write to an entry decides, in any table; only where the first one removed the entry must the second do so too, for in
a table that is not canonical an entry may stand elsewhere than a write would put it. -/
theorem Tbl.set_set {α : Type} [DecidableEq α] {d v w : α} (t : Tbl α) (k : Nat) (h : v = d → w = d) :
    Tbl.set d (Tbl.set d t k v) k w = Tbl.set d t k w := by
  by_cases hv : v = d
  · simp [Tbl.set, hv, h hv, Tbl.erase_erase]
  · by_cases hw : w = d <;> simp [Tbl.set, hv, hw, Tbl.erase_put, Tbl.put_put]

/-- Two updates of a core are one, if the second leaves the core of reset alone. -/
theorem State.modTm_modTm (s : State) (k : Nat) {f g : TeamMem → TeamMem} (h : g Core.zero.tm = Core.zero.tm) :
    (s.modTm k f).modTm k g = s.modTm k fun m => g (f m) := by
  have hcore : (s.modTm k f).core k = { s.core k with tm := f (s.core k).tm } := s.core_modTm_self k f
  have hset : Tbl.set Core.zero (Tbl.set Core.zero s.cores k { s.core k with tm := f (s.core k).tm }) k
      { s.core k with tm := g (f (s.core k).tm) } = Tbl.set Core.zero s.cores k { s.core k with tm := g (f (s.core k).tm) } :=
    Tbl.set_set s.cores k fun hzero => by
      have htm : f (s.core k).tm = Core.zero.tm := congrArg Core.tm hzero
      rw [htm, h, ← htm, hzero]
  show State.setCore _ k { (s.modTm k f).core k with tm := g ((s.modTm k f).core k).tm } = _
  rw [hcore]
  exact congrArg (fun cs => { s with cores := cs }) hset

/-! ## Lending the context (R136) -/

/-- The context of thr may be lent to a fired entry: it runs no lent task, no context is free, and a segment is to be had. -/
def State.lends (u : State) (thr : Nat) : Prop :=
  (u.ctx thr).lent = false ∧ u.freeContext (coreOf thr) = none ∧
    ((u.part (u.ctx thr).part).poolCount = 0 ∨ (u.part (u.ctx thr).part).freeSegment ≠ none)

theorem State.lends_iff (u : State) (thr : Nat) : u.lends thr ↔ ((u.ctx thr).lent || (u.freeContext (coreOf thr)).isSome ||
    ((u.part (u.ctx thr).part).poolCount ≠ 0 && (u.part (u.ctx thr).part).freeSegment.isNone)) = false := by
  cases hseg : (u.part (u.ctx thr).part).freeSegment <;> simp [State.lends, hseg, and_assoc]

section
variable {u : State} {thr : Nat}

theorem State.lend_keeps (h : u.firedEntry (coreOf thr) = none ∨ ¬ u.lends thr) : u.lend thr = u := by
  unfold State.lend
  split
  next k e hfired =>
    have hno : ¬ u.lends thr := h.resolve_left (by simp [hfired])
    rw [State.lends_iff, Bool.not_eq_false] at hno
    exact if_pos hno
  next => rfl

/-- The yielder is saved whole in its slot's loan, the entry frees, and its task starts with the yielder's identity. -/
theorem State.lend_starts {i : Nat} {e : WtEntry} (hfired : u.firedEntry (coreOf thr) = some (i, e)) (h : u.lends thr) :
    u.lend thr = ((((u.performAll thr).modTm (coreOf thr) fun m => { m with
        loans := Tbl.set Ctx.blank m.loans (slotOf thr) { (u.performAll thr).ctx thr with dbgStep := false }
        wt := Tbl.set WtEntry.zero m.wt i WtEntry.zero }).startThread thr (u.ctx thr).ident true e.entry e.arg e.tasid 2).giveUp
          (coreOf thr)) := by
  unfold State.lend
  simp only [hfired, (State.lends_iff u thr).1 h, Bool.false_eq_true, if_false, State.startFired, State.freeEntry]
  rw [State.modTm_modTm _ _ rfl]

end

/-! ## `nop`, `brk`, `halt` and `yield` -/

section
variable {s : State} (hm : MayIssue s 0 [])
include hm

theorem breaking_traps (half : Bool) : breaking half s = .next ((s.issued half).trapAt s.cur .brk 0 0) := issue_trap hm rfl

theorem halting_waits (half : Bool) : halting half s =
    .next (((s.issued half).modMe fun c => { c with wait := .halting }).post (.threadEnd s.cur)) := issue_next hm rfl

theorem yielding_yields (half : Bool) : yielding half s =
    .next ((finishNo (((s.issued half).modMe fun c => { c with wd := 0 }).yieldLanes s.cur) []).lend s.cur) := issue_next hm rfl

theorem nop_advances (half : Bool) :
    issue half true 0 [] (fun u => .ok (finishNo u [])) s = .next (finishNo (s.issued half) []) := issue_next hm rfl

end

/-- Settles O19: each form by the body that it shares with the others (`branch`, `jump`, `jumpReg`, `breaking`, `halting`,
`yielding`), a yield's lanes and loan by their own lemmas. -/
theorem transfers : Obligations.Transfers := by
  unfold Obligations.Transfers
  refine ⟨fun s a b disp x y hm hx hy => ?branches, fun s => ⟨fun hm => ?jumps, fun a t hm ht => ?registers⟩,
    fun u thr => ⟨State.yieldLanes_det, fun hfree => ?lanes, State.lend_keeps, fun _ _ => State.lend_starts⟩, fun s hm half => ?control⟩
  case branches =>
    have hbranch (cond : Word → Word → Bool) {taken : Bool} := branch_mayIssue hm hx hy (disp := disp) cond (taken := taken)
    exact ⟨hbranch _ rfl, hbranch _ rfl, hbranch _ rfl, hbranch _ (not_slt_eq_decide x y), hbranch _ rfl,
      hbranch _ (not_ult_eq_decide x y), hbranch _ rfl, hbranch _ rfl⟩
  case jumps =>
    exact ⟨fun disp => jump_mayIssue false false disp hm, fun disp => jump_mayIssue false true disp hm,
      fun disp => jump_mayIssue true false disp hm, fun disp => jump_mayIssue true true disp hm⟩
  case registers =>
    intro jr
    have hforms := jumpReg_forms a s
    exact ⟨fun heven hcanon i hi => (hforms i hi).trans (jumpReg_lands i.2.1 i.2.2 hm ht heven hcanon),
      fun hodd i hi => (hforms i hi).trans (jumpReg_odd i.2.1 i.2.2 hm ht hodd),
      fun heven hcanon i hi => (hforms i hi).trans (jumpReg_noncanonical i.2.1 i.2.2 hm ht heven hcanon)⟩
  case lanes => exact ⟨State.yieldLanes_short hfree, State.yieldLanes_gives hfree, State.yieldLanes_keeps hfree⟩
  case control =>
    intro pick u
    cases half
    · exact ⟨nop_advances hm false, breaking_traps hm false, halting_waits hm false, yielding_yields hm false⟩
    · exact ⟨nop_advances hm true, breaking_traps hm true, halting_waits hm true, yielding_yields hm true⟩

end Sys2Proof.Machine
end

section
/-! PROOF. Scalar floating point (O16): the bodies that the forms share, from which each form's result is read off. -/

namespace Sys2Proof.Machine

@[simp] theorem State.vs_issued (s : State) (half : Bool) : (s.issued half).me.vs = s.me.vs := by rw [State.me_issued]

/-! ## Instructions with limits of step 3 on their fields (R80) -/

section
variable {half ok : Bool} {level : Nat} {fs : List Field} {body : State → Except Stop State} {s : State} (hok : ok = true)
  (hm : MayIssue s level fs)
include hok hm

theorem issue_next_of_ok {t : State} (hb : body (s.issued half) = .ok t) : issue half ok level fs body s = .next t := by
  subst hok; exact issue_next hm hb

theorem issue_trap_of_ok {cls : TrapClass} {info addr : Word} (hb : body (s.issued half) = .error (.trap cls info addr)) :
    issue half ok level fs body s = .next ((s.issued half).trapAt s.cur cls info addr) := by
  subst hok; exact issue_trap hm hb

end

/-! ## The shared bodies -/

section
variable {s : State} {d a b : BitVec 5} {x v : Word} {fl : BitVec 4} (hx : rd s a = .ok x)
include hx

/-- An operation on one source that raises no flags. -/
theorem unary_completes (hm : MayIssue s 0 [.dst 0 d, .src 1 a]) {f : Word → Word} (hv : f x = v) :
    unary false f d a s = .next (finish (s.issued false) [a] d v) :=
  issue_next hm (by simp only [rd_issued, hx, Stop.ok_bind, hv]; rfl)

/-- An operation on one source. -/
theorem fp1_completes {ok : Bool} (hok : ok = true) (hm : MayIssue s 0 [.dst 0 d, .src 1 a, .vs])
    {f : Word32 → Word → Word × BitVec 4} (hv : f s.me.vs x = (v, fl)) :
    fp1 ok f d a s = .next (finishFp (s.issued false) [a] d v fl) :=
  issue_next_of_ok hok hm (by simp only [rd_issued, hx, Stop.ok_bind, State.vs_issued, hv]; rfl)

/-- A 16-bit form: d comes first. -/
theorem fpAccum_completes {z : Word} (hm : MayIssue s 0 [.both 0 d, .src 1 a, .vs]) (hz : rd s d = .ok z)
    {f : Word32 → Word → Word → Word × BitVec 4} (hv : f s.me.vs z x = (v, fl)) :
    fpAccum f d a s = .next (finishFp (s.issued true) [a] d v fl) :=
  issue_next hm (by simp only [rd_issued, hx, hz, Stop.ok_bind, State.vs_issued, hv]; rfl)

variable {y : Word} (hy : rd s b = .ok y)
include hy

/-- An operation on two sources that raises no flags. -/
theorem binary_completes (hm : MayIssue s 0 [.dst 0 d, .src 1 a, .src 2 b]) {f : Word → Word → Word} (hv : f x y = v) :
    binary false f d a b s = .next (finish (s.issued false) [a, b] d v) :=
  issue_next hm (by simp only [rd_issued, hx, hy, Stop.ok_bind, hv]; rfl)

/-- An operation on two sources. -/
theorem fp2_completes {ok : Bool} (hok : ok = true) (hm : MayIssue s 0 [.dst 0 d, .src 1 a, .src 2 b, .vs])
    {f : Word32 → Word → Word → Word × BitVec 4} (hv : f s.me.vs x y = (v, fl)) :
    fp2 false ok f d a b s = .next (finishFp (s.issued false) [a, b] d v fl) :=
  issue_next_of_ok hok hm (by simp only [rd_issued, hx, hy, Stop.ok_bind, State.vs_issued, hv]; rfl)

/-- An operation on two sources and d, which comes last. -/
theorem fp3_completes {ok : Bool} {z : Word} (hok : ok = true) (hm : MayIssue s 0 [.both 0 d, .src 1 a, .src 2 b, .vs])
    (hz : rd s d = .ok z) {f : Word32 → Word → Word → Word → Word × BitVec 4} (hv : f s.me.vs x y z = (v, fl)) :
    fp3 ok f d a b s = .next (finishFp (s.issued false) [a, b] d v fl) :=
  issue_next_of_ok hok hm (by simp only [rd_issued, hx, hy, hz, Stop.ok_bind, State.vs_issued, hv]; rfl)

end

/-! ## Results of another shape: a comparison's bit and a copied sign (R131) -/

theorem asWord_eq_ofNat (b : Bool) : asWord b = BitVec.ofNat 64 b.toNat := by cases b <;> rfl

theorem fcmpR_eq (f : FVal → FVal → Bool × BitVec 4) (ty : BitVec 2) (x y : Word) :
    fcmpR f ty x y = (BitVec.ofNat 64 (f (fpVal (fmtOf ty) x) (fpVal (fmtOf ty) y)).1.toNat,
      (f (fpVal (fmtOf ty) x) (fpVal (fmtOf ty) y)).2) :=
  congrArg (·, _) (asWord_eq_ofNat _)

/-- The weight that the leading bit has in a number below 2k. -/
theorem leading_bit_weight {k n : Nat} (h : n < 2 * k) : (if k ≤ n then k else 0) = n / k * k := by
  split
  · next hk => rw [Nat.div_eq_of_lt_le (by omega) (by omega : n < (1 + 1) * k), Nat.one_mul]
  · next hk => rw [Nat.div_eq_of_lt (by omega), Nat.zero_mul]

theorem fpBits_lt (ty : BitVec 2) (x : Word) : fpBits (fmtOf ty) x < 2 * 2 ^ ((fmtOf ty).width - 1) := by
  have hwide := fmtOf_wide ty
  rw [← Nat.pow_succ', Nat.succ_eq_add_one, Nat.sub_add_cancel (by omega)]
  exact Nat.mod_lt _ (Nat.two_pow_pos _)

theorem fsgnR_eq (ty : BitVec 2) (x y : Word) : fsgnR ty x y = BitVec.ofNat 64
    (fpBits (fmtOf ty) x % 2 ^ ((fmtOf ty).width - 1) +
      fpBits (fmtOf ty) y / 2 ^ ((fmtOf ty).width - 1) * 2 ^ ((fmtOf ty).width - 1)) := by
  rw [← leading_bit_weight (fpBits_lt ty y)]; rfl

/-- Settles O16: each form by the body that it shares with the others; a comparison and `fsgn` by the equation of their result. -/
theorem floatResults : Obligations.FloatResults := by
  unfold Obligations.FloatResults
  intro s d a b x y z rm ty src hrm hx
  dsimp only
  have hok : rmOk rm = true := decide_eq_true hrm
  refine ⟨fun hm hy => ?two, fun hm => ?one, fun hm hy hz => fp3_completes hx hy hok hm hz rfl,
    fun hm => unary_completes hx hm (f := fun x => classV (fmtOf ty) (fpVal (fmtOf ty) x)) rfl,
    fun hm hy => binary_completes hx hy hm (fsgnR_eq ty x y), fun hm hz => ?short⟩
  case two =>
    exact ⟨fp2_completes hx hy hok hm rfl, fp2_completes hx hy hok hm rfl, fp2_completes hx hy hok hm rfl,
      fp2_completes hx hy hok hm rfl, fp2_completes hx hy rfl hm (f := fun _ => fminmaxR ty false) rfl,
      fp2_completes hx hy rfl hm (f := fun _ => fminmaxR ty true) rfl,
      fp2_completes hx hy rfl hm (f := fun _ => fcmpR eqV ty) (fcmpR_eq eqV ty x y),
      fp2_completes hx hy rfl hm (f := fun _ => fcmpR ltV ty) (fcmpR_eq ltV ty x y),
      fp2_completes hx hy rfl hm (f := fun _ => fcmpR leV ty) (fcmpR_eq leV ty x y)⟩
  case one =>
    have hconv (hne : src ≠ ty) : (rmOk rm && src != ty) = true := by simp [hok, hne]
    exact ⟨fp1_completes hx hok hm rfl,
      fun hne => fp1_completes hx (hconv hne) hm
        (f := fun vs x => fpReg (cvtFF (fmtOf ty) (modeOf rm vs) (fpVal (fmtOf src) x))) rfl,
      fp1_completes hx hok hm (f := fun vs x => fpReg (cvtIF (fmtOf ty) (modeOf rm vs) (intValue src x))) rfl,
      fp1_completes hx hok hm (f := fun vs x =>
        let r := cvtFI (intBounds src).1 (intBounds src).2 (modeOf rm vs) (fpVal (fmtOf ty) x)
        (intReg src r.1, r.2)) rfl⟩
  case short =>
    exact ⟨fun hty => hty ▸ ⟨fpAccum_completes hx hm hz rfl, fpAccum_completes hx hm hz rfl⟩,
      fun hty => hty ▸ ⟨fpAccum_completes hx hm hz rfl, fpAccum_completes hx hm hz rfl⟩⟩

end Sys2Proof.Machine
end

section
/-! PROOF. The hardware loops (O20): the nesting checks as one condition, entering and skipping a body, and leaving a loop. -/

namespace Sys2Proof.Machine

/-! ## Updates of the running thread -/

/-- An update is decided by what it makes of the thread as it is. -/
theorem State.modMe_congr {s : State} {f g : Ctx → Ctx} (h : f s.me = g s.me) : s.modMe f = s.modMe g :=
  congrArg (s.setCtx s.cur) h

/-- To write the thread that has just issued as it is changes nothing. -/
theorem State.modMe_issued_fixed {s : State} {half : Bool} {f : Ctx → Ctx} (h : f (s.issued half).me = (s.issued half).me) :
    (s.issued half).modMe f = s.issued half := by
  show (s.issued half).setCtx s.cur (f (s.issued half).me) = _
  rw [h]
  unfold State.issued
  rw [State.me_modMe]
  exact congrArg (fun ts => { s.stamp half with threads := ts }) (Tbl.set_set _ _ id)

@[simp] theorem State.loopReg_issued (s : State) (half : Bool) (l : BitVec 5) : (s.issued half).me.loopReg l = s.me.loopReg l := by
  rw [State.me_issued]; rfl

@[simp] theorem State.ext_issued (s : State) (half : Bool) : (s.issued half).me.e = s.me.e := by rw [State.me_issued]

/-! ## The nesting checks (R139, R282) -/

theorem need_bind_need (p q : Bool) (cls : TrapClass) (info addr : Word) :
    (need p cls info addr >>= fun _ => need q cls info addr) = need (p && q) cls info addr := by
  cases p <;> rfl

/-- A body that runs from top for span halfwords lies within that of loop o. -/
def LoopReg.encloses (o : LoopReg) (top span : Nat) : Bool :=
  o.top.toNat ≤ top ∧ top + 2 * span ≤ o.top.toNat + 2 * o.span.toNat

/-- A loop on register l whose body runs from top for span halfwords passes the nesting checks. -/
def Ctx.nests (c : Ctx) (l : BitVec 5) (top span : Nat) : Bool :=
  !stIh c.status && (!(c.loopReg l).act && stLd c.status != 2 && (stLd c.status != 1 || (c.loopReg (1 - l)).encloses top span))

theorem checkNest_eq (c : Ctx) (l : BitVec 5) (top span : Nat) : checkNest c l top span = need (c.nests l top span) .loop 1 := by
  simp only [checkNest, need_bind_need, Ctx.nests, LoopReg.encloses, Bool.decide_and]

@[simp] theorem Ctx.nests_issued (s : State) (half : Bool) (l : BitVec 5) (top span : Nat) :
    (s.issued half).me.nests l top span = s.me.nests l top span := by
  simp only [Ctx.nests, State.status_issued, State.loopReg_issued]

section
variable {c : Ctx} {l : BitVec 5} {top span : Nat}

theorem Ctx.nests_within (hih : stIh c.status = false) (hact : (c.loopReg l).act = false)
    (hin : stLd c.status = 0 ∨ (stLd c.status = 1 ∧ (c.loopReg (1 - l)).encloses top span = true)) :
    c.nests l top span = true := by
  rcases hin with hld | ⟨hld, hin⟩
  · rw [Ctx.nests, hih, hact, hld]; rfl
  · rw [Ctx.nests, hih, hact, hld, hin]; rfl

theorem Ctx.nests_astray (h : stIh c.status = true ∨ (c.loopReg l).act = true ∨ stLd c.status = 2 ∨
    (stLd c.status = 1 ∧ (c.loopReg (1 - l)).encloses top span = false)) : c.nests l top span = false := by
  rcases h with hih | hact | hld | ⟨hld, hout⟩
  · simp [Ctx.nests, hih]
  · simp [Ctx.nests, hact]
  · simp [Ctx.nests, hld]
  · rw [Ctx.nests, hld, hout]; simp

end

/-! ## Entering a body and skipping it (R138, R139) -/

/-- The running thread at the head of a loop's body, at top, with ld loops outside it. -/
def State.loopEntered (u : State) (l : BitVec 5) (span : BitVec 11) (top : BitVec 57) (ld : BitVec 2) (i b st : Word32) : State :=
  u.modMe fun c => { c with
    l := vset c.l l.toNat ⟨i, b, st, top, span.setWidth 10, true⟩, lFull := vset c.lFull l.toNat true
    status := setLd c.status (ld + 1), pc := top }

/-- The running thread past the end of a loop's body. -/
def State.loopSkipped (u : State) (span : BitVec 11) (top : BitVec 57) : State :=
  u.modMe fun c => { c with pc := top + 2 * span.setWidth 57 }

/-- Of an issued instruction's state the loop takes pc and status.ld alone. -/
theorem enterLoop_eq {u s : State} (hpc : u.me.pc = s.me.pc) (hst : u.me.status = s.me.status) (l : BitVec 5) (span : BitVec 11)
    (i b st : Word32) (enter : Bool) : enterLoop u l span i b st enter =
      if enter then u.loopEntered l span (s.me.pc + 4) (stLd s.me.status) i b st else u.loopSkipped span (s.me.pc + 4) := by
  rw [← hpc, ← hst]; cases enter <;> rfl

theorem spanOk_of_bounds {span : BitVec 11} (hlo : 0 < span.toNat) (hhi : span.toNat < 1024) : spanOk span = true := by
  simp [spanOk, hlo, hhi]

section
variable {s : State} {l a : BitVec 5} {span : BitVec 11} (hspan : spanOk span = true)
include hspan

section
variable {x : Word} (hm : MayIssue s 0 [.file 1 l 1, .src 2 a]) (hx : rd s a = .ok x)
include hm

/-- The nesting decides before the count is read. -/
theorem lp_astray (hn : s.me.nests l (s.me.pc.toNat + 4) span.toNat = false) :
    exec (.lp l a span) s = .next ((s.issued false).trapAt s.cur .loop 1 0) := by
  show execLp l a span s = _
  exact issue_trap_of_ok hspan hm (by
    simp only [checkNest_eq, State.pc_issued, Ctx.nests_issued, need_fail hn, Stop.error_bind])

include hx

theorem lp_nests (hn : s.me.nests l (s.me.pc.toNat + 4) span.toNat = true) :
    exec (.lp l a span) s = .next (if x.setWidth 32 = (0 : Word32)
      then ((s.issued false).consume s.cur [a]).loopSkipped span (s.me.pc + 4)
      else ((s.issued false).consume s.cur [a]).loopEntered l span (s.me.pc + 4) (stLd s.me.status) 0 (x.setWidth 32) 1) := by
  show execLp l a span s = _
  refine issue_next_of_ok hspan hm ?_
  simp only [checkNest_eq, State.pc_issued, Ctx.nests_issued, need_pass hn, Stop.ok_bind, rd_issued, hx, State.issued_cur, bits_zero]
  rw [enterLoop_eq (s := s) (by simp) (by simp)]
  simp only [bne_iff_ne, ne_eq, ite_not]; rfl

end

section
variable (hm : MayIssue s 0 [.file 1 l 1, .ext a.toNat 2])
include hm

/-- Set bits above the step trap OPND, before every nesting check (R138). -/
theorem lpx_reserved (habove : (vget 0 s.me.e (a.toNat + 1)).extractLsb' 32 32 ≠ (0 : Word32)) :
    exec (.lpx l a span) s = .next ((s.issued false).trapAt s.cur .opnd (opndInfo 3 (a.toNat + 1)) 0) := by
  show execLpx l a span s = _
  exact issue_trap_of_ok hspan hm (by
    simp only [State.ext_issued, bits, need_fail (beq_eq_false_iff_ne.2 habove), Stop.error_bind])

variable (habove : (vget 0 s.me.e (a.toNat + 1)).extractLsb' 32 32 = (0 : Word32))
include habove

theorem lpx_astray (hn : s.me.nests l (s.me.pc.toNat + 4) span.toNat = false) :
    exec (.lpx l a span) s = .next ((s.issued false).trapAt s.cur .loop 1 0) := by
  show execLpx l a span s = _
  exact issue_trap_of_ok hspan hm (by
    simp only [State.ext_issued, bits, need_pass (beq_iff_eq.2 habove), Stop.ok_bind, checkNest_eq, State.pc_issued,
      Ctx.nests_issued, need_fail hn, Stop.error_bind])

variable (hn : s.me.nests l (s.me.pc.toNat + 4) span.toNat = true)
include hn

theorem lpx_stepless (hstep : (vget 0 s.me.e (a.toNat + 1)).setWidth 32 = (0 : Word32)) :
    exec (.lpx l a span) s = .next ((s.issued false).trapAt s.cur .loop 2 0) := by
  show execLpx l a span s = _
  exact issue_trap_of_ok hspan hm (by
    simp only [State.ext_issued, bits_zero]
    simp only [bits, need_pass (beq_iff_eq.2 habove), Stop.ok_bind, checkNest_eq, State.pc_issued, Ctx.nests_issued, need_pass hn,
      hstep, bne_self_eq_false, need_fail, Stop.error_bind])

theorem lpx_nests {start bound step : Word32} (hstart : (vget 0 s.me.e a.toNat).setWidth 32 = start)
    (hbound : (vget 0 s.me.e a.toNat).extractLsb' 32 32 = bound) (hstep : (vget 0 s.me.e (a.toNat + 1)).setWidth 32 = step)
    (hne : step ≠ 0) : exec (.lpx l a span) s = .next
      (if (if 0 < step.toInt then start.toInt < bound.toInt else bound.toInt < start.toInt)
      then (s.issued false).loopEntered l span (s.me.pc + 4) (stLd s.me.status) start bound step
      else (s.issued false).loopSkipped span (s.me.pc + 4)) := by
  show execLpx l a span s = _
  refine issue_next_of_ok hspan hm ?_
  simp only [State.ext_issued, bits_zero]
  simp only [bits, need_pass (beq_iff_eq.2 habove), Stop.ok_bind, checkNest_eq, State.pc_issued, Ctx.nests_issued, need_pass hn,
    hstart, hbound, hstep, need_pass (bne_iff_ne.2 hne)]
  rw [enterLoop_eq (s := s) (by simp) (by simp)]
  have henter : (if 0 < step.toInt then start.slt bound else bound.slt start) =
      decide (if 0 < step.toInt then start.toInt < bound.toInt else bound.toInt < start.toInt) := by
    split <;> rfl
  exact congrArg Except.ok (by rw [henter]; simp only [decide_eq_true_eq])

end
end

/-! ## Leaving a loop (R141, R282) -/

/-- Loop register i inactive. -/
def loopOff (v : Vector LoopReg 2) (i : Nat) : Vector LoopReg 2 := vset v i { vget LoopReg.zero v i with act := false }

section
variable {c : Ctx} {l : BitVec 5}

theorem Ctx.loopExit_none (h : stIh c.status = true ∨ (c.loopReg l).act = false) : c.loopExit l = c :=
  if_pos (by rcases h with h | h <;> simp [h])

section
variable (hih : stIh c.status = false) (hact : (c.loopReg l).act = true)
include hih hact

theorem Ctx.loopExit_both (hord : c.loopOrder = [1 - l.toNat, l.toNat]) : c.loopExit l =
    { c with l := loopOff (loopOff c.l l.toNat) (1 - l.toNat), status := setLd c.status (stLd c.status - 2) } := by
  simp only [Ctx.loopExit, hih, hact, hord, Bool.not_true, Bool.or_self, Bool.false_eq_true, if_false, if_true]; rfl

theorem Ctx.loopExit_one (hord : c.loopOrder ≠ [1 - l.toNat, l.toNat]) : c.loopExit l =
    { c with l := loopOff c.l l.toNat, status := setLd c.status (stLd c.status - 1) } := by
  simp only [Ctx.loopExit, hih, hact, hord, Bool.not_true, Bool.or_self, Bool.false_eq_true, if_false]; rfl

end

end

/-! ## Which of two active loops is the outer one (R140) -/

theorem Ctx.loopOrder_both {c : Ctx} (h0 : (vget LoopReg.zero c.l 0).act = true) (h1 : (vget LoopReg.zero c.l 1).act = true) :
    c.loopOrder = if (vget LoopReg.zero c.l 1).top.toNat < (vget LoopReg.zero c.l 0).top.toNat then [0, 1] else [1, 0] := by
  simp only [Ctx.loopOrder, h0, h1, Bool.and_self, if_true]

section
variable {c : Ctx} {i : Nat} (hi : i = 0 ∨ i = 1) (hact : (vget LoopReg.zero c.l i).act = true)
include hi hact

theorem Ctx.loopOrder_alone (hother : (vget LoopReg.zero c.l (1 - i)).act = false) : c.loopOrder = [i] := by
  rcases hi with rfl | rfl
  · have h1 : (vget LoopReg.zero c.l 1).act = false := hother
    simp only [Ctx.loopOrder, hact, h1, Bool.and_false, Bool.false_eq_true, if_false, if_true]
  · have h0 : (vget LoopReg.zero c.l 0).act = false := hother
    simp only [Ctx.loopOrder, hact, h0, Bool.false_and, Bool.false_eq_true, if_false, if_true]

variable (hother : (vget LoopReg.zero c.l (1 - i)).act = true)
include hother

/-- The loop of smaller top comes last. -/
theorem Ctx.loopOrder_outer (h : (vget LoopReg.zero c.l i).top.toNat < (vget LoopReg.zero c.l (1 - i)).top.toNat) :
    c.loopOrder = [1 - i, i] := by
  rcases hi with rfl | rfl
  · exact (Ctx.loopOrder_both hact hother).trans (if_neg (Nat.lt_asymm h))
  · exact (Ctx.loopOrder_both hother hact).trans (if_pos h)

/-- The loop of greater top comes first. -/
theorem Ctx.loopOrder_inner (h : (vget LoopReg.zero c.l (1 - i)).top.toNat < (vget LoopReg.zero c.l i).top.toNat) :
    c.loopOrder = [i, 1 - i] := by
  rcases hi with rfl | rfl
  · exact (Ctx.loopOrder_both hact hother).trans (if_pos h)
  · exact (Ctx.loopOrder_both hother hact).trans (if_neg (Nat.lt_asymm h))

end

/-! ## `lpidx` and `lpexit` -/

@[simp] theorem State.loopOrder_issued (s : State) (half : Bool) : (s.issued half).me.loopOrder = s.me.loopOrder := by
  rw [State.me_issued]; rfl

/-- The l field of an instruction that may issue names a loop register, and 1 - l names the other. -/
theorem loop_field {s : State} {l : BitVec 5} (hm : MayIssue s 0 [.file 1 l 1]) :
    (l.toNat = 0 ∨ l.toNat = 1) ∧ (1 - l).toNat = 1 - l.toNat := by
  obtain ⟨-, hbad, -⟩ := hm
  have hle : l.toNat ≤ 1 := by simpa [Field.bad] using hbad
  exact ⟨by omega, by bv_omega⟩

theorem lpidx_reads {s : State} {d l : BitVec 5} (hm : MayIssue s 0 [.dst 0 d, .file 1 l 1, .loop l]) :
    exec (.lpidx d l) s = .next (finish (s.issued false) [] d ((s.me.loopReg l).index.setWidth 64)) := by
  show execLpidx d l s = _
  exact issue_next hm (by rw [State.loopReg_issued]; rfl)

section
variable {s : State} {l : BitVec 5} (hm : MayIssue s 0 [.file 1 l 1])
include hm

theorem lpexit_leaves {f : Ctx → Ctx} (h : (s.issued false).me.loopExit l = f (s.issued false).me) :
    exec (.lpexit l) s = .next (finishNo ((s.issued false).modMe f) []) := by
  show execLpexit l s = _
  exact issue_next hm (congrArg (fun u => Except.ok (finishNo u [])) (State.modMe_congr h))

theorem lpexit_none (h : stIh s.me.status = true ∨ (s.me.loopReg l).act = false) :
    exec (.lpexit l) s = .next (finishNo (s.issued false) []) := by
  rw [lpexit_leaves hm (f := id) (Ctx.loopExit_none (by simpa using h)), State.modMe_issued_fixed rfl]

variable (hih : stIh s.me.status = false) (hact : (s.me.loopReg l).act = true)
include hih hact

theorem lpexit_one (hord : s.me.loopOrder ≠ [1 - l.toNat, l.toNat]) :
    exec (.lpexit l) s = .next (finishNo ((s.issued false).modMe fun c =>
      { c with l := loopOff c.l l.toNat, status := setLd c.status (stLd c.status - 1) }) []) :=
  lpexit_leaves hm (Ctx.loopExit_one (by rwa [State.status_issued]) (by rwa [State.loopReg_issued])
    (by rwa [State.loopOrder_issued]))

theorem lpexit_both (hord : s.me.loopOrder = [1 - l.toNat, l.toNat]) :
    exec (.lpexit l) s = .next (finishNo ((s.issued false).modMe fun c =>
      { c with l := loopOff (loopOff c.l l.toNat) (1 - l.toNat), status := setLd c.status (stLd c.status - 2) }) []) :=
  lpexit_leaves hm (Ctx.loopExit_both (by rwa [State.status_issued]) (by rwa [State.loopReg_issued])
    (by rwa [State.loopOrder_issued]))

end

theorem opndInfo_ext (a : BitVec 5) : opndInfo 3 (a.toNat + 1) = BitVec.ofNat 64 (3 + 256 * (a.toNat + 1)) := by
  rw [opndInfo, Nat.mod_eq_of_lt (by omega), Nat.mul_comm]

/-- The upper half of a word below 2^32 is 0. -/
theorem upper_half_zero {y : Word} (h : y.toNat / 2 ^ 32 = 0) : y.extractLsb' 32 32 = (0 : Word32) := by
  apply BitVec.eq_of_toNat_eq
  rw [BitVec.extractLsb'_toNat, Nat.shiftRight_eq_div_pow, h]; rfl

/-- Settles O20: `lp` and `lpx` by the nesting checks as one condition, `lpexit` by the order of the loops. -/
theorem loops : Obligations.Loops := by
  unfold Obligations.Loops
  refine ⟨fun s l a span x hlo hhi => ?nested, fun s l a span x hlo hhi => ?astray,
    fun s d l => ⟨lpidx_reads, fun hm => ?exit⟩⟩
  case nested =>
    intro top o hih hact hin enters skips
    have hspan := spanOk_of_bounds hlo hhi
    have hn := Ctx.nests_within hih hact (hin.imp id fun ⟨hld, hin⟩ => ⟨hld, decide_eq_true hin⟩)
    exact ⟨fun hm hx => lp_nests hspan hm hx hn, fun hm => ⟨fun habove hstep => lpx_nests hspan hm habove hn rfl rfl rfl hstep,
      fun habove hstep => lpx_stepless hspan hm habove hn hstep,
      fun habove => opndInfo_ext a ▸ lpx_reserved hspan hm habove⟩⟩
  case astray =>
    intro o top hout
    have hspan := spanOk_of_bounds hlo hhi
    have hn := Ctx.nests_astray (hout.imp id (.imp id (.imp id fun ⟨hld, hout⟩ => ⟨hld, decide_eq_false hout⟩)))
    exact ⟨fun hm _ => lp_astray hspan hm hn, fun hm habove => lpx_astray hspan hm (upper_half_zero habove) hn⟩
  case exit =>
    intro u off
    obtain ⟨hl, hother⟩ := loop_field hm
    simp only [Ctx.loopReg, hother]
    refine ⟨lpexit_none hm, fun hih hact ho => lpexit_one hm hih hact ?alone, fun hih hact ho =>
      ⟨fun htop => lpexit_both hm hih hact (Ctx.loopOrder_outer hl hact ho htop), fun htop => lpexit_one hm hih hact ?inner⟩⟩
    case alone => rw [Ctx.loopOrder_alone hl hact ho]; simp
    case inner =>
      rw [Ctx.loopOrder_inner hl hact ho htop]
      intro heq
      have := List.head_eq_of_cons_eq heq
      omega

end Sys2Proof.Machine
end
